-- ==== Sys2Proof/Word.lean ====
section
/-! DEFINITION. The word and byte types of the part, and the plainest arithmetic on them. -/

namespace Sys2Proof

/-- A register of the part: 32 bits (R4). -/
abbrev Word := BitVec 32

/-- The least addressable unit of HBM3, of the flash and of every message (R2). -/
abbrev Byte := BitVec 8

/-- Actuator index `a` of the manual's Indices table. -/
abbrev Act := Fin 16

/-- HDA index `h` of the manual's Indices table. -/
abbrev Hda := Fin 8

end Sys2Proof
end

