-- ==== Sys2Proof/Types.lean ====
section
/-! DEFINITION. The data that commands carry from outside the part: what the channel and the servo read from
the medium, what the converters sample, the frames of the host ports, the messages of the management path. -/

namespace Sys2Proof

/-! ### Servo (chapter 5) -/

/-- A servo span as the channel samples it (R90, R94): the 96 bits it decides from four bit periods before the expected SAM on, in the order in
which they pass (bit i is the i-th), the four burst magnitudes, and the Shed clocks since the previous wedge. -/
structure WedgeRead where
  bits : BitVec 96
  burstA : Nat
  burstB : Nat
  burstC : Nat
  burstD : Nat
  clocks : Nat
  deriving DecidableEq, Repr

/-- The four words of a wedge record (R94): the SAM search, the TID and WN information bits as decoded, the four
burst magnitudes, and the Shed clocks since the previous wedge. -/
structure WedgeRecord where
  samFound : Bool
  tid : Nat
  wn : Nat
  burstA : Nat
  burstB : Nat
  burstC : Nat
  burstD : Nat
  clocks : Nat
  deriving DecidableEq, Repr

/-- The intent of a seek (R105 and after): reading or writing. -/
inductive Intent | read | write
  deriving DecidableEq, Repr

/-- A seek from the Harness: target cylinder, data head, intent. -/
structure SeekCmd where
  cyl : Nat
  head : Fin 15
  intent : Intent
  deriving DecidableEq, Repr

/-! ### Spindle (chapter 6) -/

/-- What the SCU samples at a current-sample instant (R119, R121): the three shunt currents in mA, the voltage in µV at MBUS_V, behind the divider,
the chopper current in units of 10 mA; and in ZVBRAKE, at a rising zero-crossing of i_U, the
electrical period in Shed clocks and the peak of i_U over it in mA (R132). -/
structure PwmSample where
  iU : Int
  iV : Int
  iW : Int
  busIn : Nat
  ichop : Nat
  crossing : Option (Nat × Nat)
  deriving DecidableEq, Repr

/-- What DETECT measures on U–V and V–W for a catch (R136): the two electrical periods in Shed clocks, the lag of
V–W behind U–V in each, and whether the sequence is forward. -/
structure CatchMeasure where
  period1 : Nat
  period2 : Nat
  lag1 : Nat
  lag2 : Nat
  forward : Bool
  deriving DecidableEq, Repr

/-! ### Channel (chapters 2 to 4) -/

/-- A cycle of the warp tone as the warp PLL sees it (R51): the phase error of the raw signal against the oscillator, in warp cycles, and
whether the cycle is decided inverted. -/
structure WarpCycle where
  error : Rat
  inverted : Bool
  deriving DecidableEq, Repr

/-- A loss of lock (R54, R55): the channel, and the warp cycles since the end of the last mark. -/
structure LockLoss where
  act : Act
  cycles : List WarpCycle
  deriving DecidableEq, Repr

/-- A warp mark as it reaches the channel: the REFCLK count that it carries (R12), its symbols 0 to 31 (R25; symbol i is bit i), and the warp
cycles from the end of the last mark to the end of this one (R51, R54). -/
structure WarpMark where
  count : Nat
  symbols : BitVec 32
  cycles : List WarpCycle
  deriving DecidableEq, Repr

/-- What a decoder delivers (R66, R70): whether all 3,712 checks are satisfied, the iterations made, and the 4,144
protected-field bytes. -/
structure DecodeResult where
  checksOk : Bool
  iterations : Nat
  field : List Byte
  deriving DecidableEq, Repr

/-- One update of an adaptation loop (R60): up or down by the loop's step; for the FIR loop the sign of each tap's update. -/
inductive AdaptUpdate
  | gain (up : Bool)
  | baseline (up : Bool)
  | asym (up : Bool)
  | fir (signs : List Int)
  | timing (up : Bool)
  deriving DecidableEq, Repr

/-- What the read of a sector brings by its end: the updates that its adaptation loops made, in order (R60), and its raw ADC samples (R68). -/
structure SectorRead where
  updates : List AdaptUpdate
  samples : List (BitVec 6)
  deriving DecidableEq, Repr

/-- The preamplifier scripts of R47. -/
inductive ScriptKind
  | headSelect (s : Fin 15)
  | writeEntry
  | readEntry
  | idle
  deriving DecidableEq, Repr

/-! ### The Fresum image (chapter 18): record payloads, each in the units of its own chapter -/

/-- Front-end values (R60, R72), each in its loop's step: gain in 1/16 dB, baseline in 1/16 ADC code, asymmetry in 1/256, ten FIR taps in
2^−12, timing in 1/64 warp cycle. -/
structure FrontEnd where
  gain : Nat
  baseline : Int
  asym : Nat
  fir : List Int
  timing : Int
  deriving DecidableEq, Repr

/-- A recording zone of an ACTUATOR record (R20, R72, R90). WIN, THR and MODE are R74 to R77. -/
structure ZoneCfg where
  cyls : Nat
  fz : Nat
  sv : Nat
  bl : Nat
  nz : Nat
  kz : Nat
  sz : Nat
  cutoff : Nat
  boost : Nat
  iterMax : Nat
  iterRetry : Nat
  headSettle : Nat
  best : Bool
  win : Nat
  thr : Nat
  deriving DecidableEq, Repr

/-- An ACTUATOR record: the data heads, the recording zones, and the servo limits and time-outs of chapter 5.
PES_LIM, WI_CFG.NEIGHBOR and SETTLE_CFG are given as the register words they load. Voltages and resistances are
in the units of chapter 6, currents in mA, times in ms. -/
structure ActCfg where
  heads : Nat
  zones : List ZoneCfg
  pesLim : Word
  neighbor : Nat
  settleCfg : Word
  vmax : Nat
  amax : Nat
  jmax : Nat
  amin : Nat
  lostN : Nat
  recoverTmo : Nat
  loadVel : Nat
  loadTmo : Nat
  parkVmax : Nat
  parkVel : Nat
  parkPush : Nat
  parkTmo : Nat
  kff : Int
  imax : Nat
  rCoil : Nat
  deriving DecidableEq, Repr

/-- A HEADS record: per data head and recording zone, in that order, PC1 to PC3 and the calibrated values. -/
structure HeadCfg where
  head : Nat
  zone : Nat
  pc1 : Nat
  pc2 : Nat
  pc3 : Nat
  front : FrontEnd
  deriving DecidableEq, Repr

/-- One stage of a loop as an image gives it (R101). -/
structure StageCfg where
  b0 : Int
  b1 : Int
  b2 : Int
  a1 : Int
  a2 : Int
  ex : Int
  deriving DecidableEq, Repr

/-- An ACU_LOOPS or SCU_LOOPS record: the stages of each of the four loops, in the order of the LOOP codes. -/
structure LoopsCfg where
  loops : List (List StageCfg)
  velGains : List Int
  deriving DecidableEq, Repr

/-- A SPINDLE record (R20, R119, R130). POLE_PAIRS and W as numbers; R_PH in mΩ, L_PH in µH, KE in 10 µV·s/rad,
G_E in hundredths, PLL_BW in Hz, DEADT and TW in 2.5 ns Shed clocks, currents in mA, speeds in rpm, SPD_TOL in
hundredths of a percent, RES_THR and I_START in percent, BEMF_MIN in mV, DETECT_TMO and STILL_T in ms, BRAKE_TMO in s,
IPD_T in µs, RETRY_WAIT in 100 ms, CHOP_FALL_T in µs, V_HOLD in mV; the divider ratio in thousandths. -/
structure SpindleCfg where
  wedges : Nat
  divider : Nat
  target : Nat
  polePairs : Nat
  rPh : Nat
  lPh : Nat
  ke : Nat
  gE : Nat
  pllBw : Nat
  deadT : Nat
  tw : Nat
  imaxSp : Nat
  ibusMax : Nat
  izvMax : Nat
  amaxSp : Nat
  jmaxSp : Nat
  spdMax : Nat
  spdTol : Nat
  resThr : Nat
  resN : Nat
  bemfMin : Nat
  detectTmo : Nat
  stillT : Nat
  brakeTmo : Nat
  ipdT : Nat
  iStart : Nat
  olAcc : Nat
  handover : Nat
  startTries : Nat
  catchTries : Nat
  retryWait : Nat
  zvRpm : Nat
  chopImin : Nat
  chopFallT : Nat
  vHold : Nat
  deriving DecidableEq, Repr

/-- A PREAMP record (R47, R48): the frames of each script. -/
structure PreampCfg where
  select : List (List (BitVec 16))
  writeEntry : List (BitVec 16)
  readEntry : List (BitVec 16)
  idle : List (BitVec 16)
  deriving DecidableEq, Repr

/-- A DEVICE record (R352): configured HDAs and actuators, the sled serial, the target device name, RES_SIZE, IDLE_T and TJ_LIM. -/
structure DeviceRec where
  hdas : BitVec 8
  acts : BitVec 16
  platters : Nat
  serial : List Byte
  devName : BitVec 64
  resSize : Nat
  idleT : Nat
  tjLim : Nat
  deriving DecidableEq, Repr

/-- A PORT record: the SAS address and the coefficient limits of each lane. -/
structure PortRec where
  addr : BitVec 64
  coef : List (List Nat)
  deriving DecidableEq, Repr

/-- What a JACQUARD record's payload says (R157, R354): the stores it fills, VERSION, IFACE, LAYOUT, the words and their SHA-384 digest. -/
structure JqRec where
  mask : BitVec 64
  ver : Word
  iface : Nat
  layout : Nat
  words : List (BitVec 128)
  digest : List Byte
  deriving DecidableEq, Repr

/-- A SHUTTLE record (R249, R255): the instructions, start and length of each of the 32 programs, the program of each job kind. -/
structure ShuttleRec where
  store : List (BitVec 64)
  info : List (Nat × Nat)
  kinds : List Nat
  deriving DecidableEq, Repr

/-- A CHECKVAL record (R309). -/
structure CvRec where
  width : Nat
  refin : Bool
  refout : Bool
  poly : BitVec 64
  init : BitVec 64
  xorout : BitVec 64
  deriving DecidableEq, Repr

/-- What a run of an LU record says (R353); `ztype` is its ZTYPE byte. -/
structure RunRec where
  count : Nat
  act : Nat
  head : Nat
  rz : Nat
  ztype : Nat
  first : Nat
  deriving DecidableEq, Repr

/-- An LU record (R181, R191, R264, R269, R353); its runs as the 16-byte entries of R353, quotas in the units of their registers. -/
structure LuRec where
  zbase : Nat
  zcount : Nat
  runBytes : List Byte
  pool : Nat
  minBob : Nat
  maxBob : Nat
  minCtx : Nat
  maxCtx : Nat
  weight : Nat
  maxOpen : Nat
  pifmt : Nat
  ptype : Nat
  modes : List (Nat × List Byte)
  deriving DecidableEq, Repr

/-- A QUEUEING record: the words of INT_CFG, INT_ACT_CFG, SCH_CFG, SCH_CFG2 and SCH_BG_CFG. -/
structure QueueRec where
  intCfg : Word
  actCfg : Word
  schCfg : Word
  schCfg2 : Word
  bgCfg : Word
  deriving DecidableEq, Repr

/-- A row of a FAULTS record: source, severity, profile, PROF_EN. -/
structure SevRec where
  src : Nat
  sev : Nat
  profile : Nat
  profEn : Bool
  deriving DecidableEq, Repr

/-- A RECORDER record: profile entries (profile, entry, address), histograms (number, QTY, SCOPE, SHIFT, BASE), CHKPT_MIN. -/
structure RecorderRec where
  profiles : List (Nat × Nat × Nat)
  hists : List (Nat × Nat × Nat × Nat × Int)
  chkpt : Nat
  deriving DecidableEq, Repr

/-- A CALIB record: TEMP_DELTA, PERIOD, SKEW_WEDGES, SKEW_JUMP, and the limit around the factory front-end values (R407). -/
structure CalibRec where
  tempDelta : Nat
  period : Nat
  skewWedges : Nat
  skewJump : Nat
  frontLimit : Nat
  deriving DecidableEq, Repr

/-- The payload of a record (R352), as its chapter's tables read it; a type the loader does not know; a payload whose bytes the
tables of its chapter do not fit. -/
inductive RecBody
  | device (d : DeviceRec)
  | port (p : PortRec)
  | spindle (c : SpindleCfg)
  | scuLoops (l : LoopsCfg)
  | actuator (c : ActCfg)
  | heads (l : List HeadCfg)
  | acuLoops (l : LoopsCfg)
  | preamp (c : PreampCfg)
  | jacquard (payload : List Byte)
  | shuttle (r : ShuttleRec)
  | checkval (c : CvRec)
  | pools (l : List (Nat × Nat))
  | lu (l : LuRec)
  | queueing (q : QueueRec)
  | faults (l : List SevRec)
  | recorder (r : RecorderRec)
  | calib (c : CalibRec)
  | fin
  | unknown (typ : Nat)
  | malformed (typ : Nat)
  deriving DecidableEq, Repr

/-- A record (R351): its INDEX, its OPTIONAL flag, LEN of its payload, whether its RCRC matches, and its payload. -/
structure ImgRec where
  index : Nat
  optional : Bool
  len : Nat
  crcOk : Bool
  body : RecBody
  deriving DecidableEq, Repr

/-- An image as the loader reads it from a slot (R349 to R352): its 256 bytes of header; whether the key's digest matches the one stored for
its KEY_ID and whether the signature verifies (R350), which rest on the one-time-programmable store and on published algorithms; the SHA-384
digest of the signed bytes; and its records. -/
structure ImageFile where
  header : List Byte
  keyOk : Bool
  sigOk : Bool
  sha : List Byte
  recs : List ImgRec
  deriving DecidableEq, Repr

/-! ### Stores and memories (chapters 7 and 16) -/

/-- A word of a store as it is read (R161, R162): the bits of its codeword that read wrong, data bits first, then check bits. -/
structure FetchErr where
  flips : List Nat
  deriving DecidableEq, Repr

def FetchErr.clean : FetchErr := ⟨[]⟩

/-- A word that is rewritten from its shadow (R162): the bits that read wrong in the shadow's block of 64 words, and in the word when it is fetched
again. -/
structure ShadowRead where
  block : FetchErr
  again : FetchErr
  deriving DecidableEq, Repr

/-- What the two read-backs of a bank find wrong (R159): the words in which bits read wrong, after the first write and after the second. -/
structure BankCheck where
  store : Fin 64
  first : List (Nat × FetchErr)
  second : List (Nat × FetchErr)
  deriving DecidableEq, Repr

/-- The end of a check pass (R355): the image as read, and the read-backs of the banks that are written again where a restart refuses it (R356). -/
structure ImagePass where
  file : ImageFile
  fills : List BankCheck
  deriving DecidableEq, Repr

/-- A motion domain is loaded (R374): its HDA, and the read-backs of its banks. -/
structure DomainLoad where
  hda : Hda
  fills : List BankCheck
  deriving DecidableEq, Repr

/-! ### Host ports (chapters 8 and 9) -/

/-- The protocol of an OPEN address frame (R173). -/
inductive OpenProto | ssp | stp | smp
  deriving DecidableEq, Repr

/-- An OPEN address frame: port, phy, protocol, connection rate in the codes of PHY_STAT.RATE, initiator SAS address. -/
structure OpenFrame where
  port : Fin 2
  lane : Fin 4
  proto : OpenProto
  rate : Fin 4
  addr : BitVec 64
  deriving DecidableEq, Repr

/-- Task attributes (R194, R197). -/
inductive TaskAttr | simple | ordered | headOfQueue
  deriving DecidableEq, Repr

/-- A COMMAND frame: port, initiator index, tag, the eight LUN bytes, task attribute, additional CDB length, the CDB (zero-padded
to 16 bytes), and the parameter data that the command's data-out phase brings. -/
structure CmdFrame where
  port : Fin 2
  init : Fin 2048
  tag : BitVec 16
  lun : List Byte
  attr : TaskAttr
  addLen : Nat
  cdb : List Byte
  param : List Byte
  deriving DecidableEq, Repr

/-- A TASK frame (R176): port, initiator index, its own tag, LUN, and the tag of the task it manages. -/
structure TmfFrame where
  port : Fin 2
  init : Fin 2048
  tag : BitVec 16
  lun : List Byte
  managed : BitVec 16
  deriving DecidableEq, Repr

/-- A DATA frame from an initiator (R180). -/
structure DataFrame where
  port : Fin 2
  init : Fin 2048
  tag : BitVec 16
  offset : Nat
  data : List Byte
  deriving DecidableEq, Repr

/-! ### Shuttle (chapter 12) -/

/-- Job kinds of R249. -/
inductive JobKind | hostIn | hostOut | mediaOut | mediaIn | compareIn
  deriving DecidableEq, Repr

/-- What JOB_POST posts a job for (R249): an XFER_RDY burst of a port, the data of a read, a media pass. -/
inductive JobPost
  | burst (port : Fin 2)
  | hostOut (c : Fin 40960)
  | media (a : Act)
  deriving DecidableEq, Repr

/-- Causes of a bus error (R259), in the order of SHU_CH_ERR.CAUSE from 1. -/
inductive BusCause | readUncorrectable | writeError | crossing
  deriving DecidableEq, Repr

/-! ### Scheduler (chapter 10) -/

/-- A slot that a recovery reads forward (R277): what its Selvedge holds. -/
structure FwdSlot where
  stamp : Nat
  lu : Nat
  lbaTag : Nat
  deriving DecidableEq, Repr

/-- What the end of a pass brings from outside the Harness: whether a system record that it had to read is readable, and the slots that a recovery read forward, none where one failed to
decode (R277). -/
structure PassEnd where
  readable : Bool
  forward : List (Option FwdSlot)
  deriving DecidableEq, Repr

/-! ### Calibration (chapter 21) -/

/-- What an entry window measured (R406): for each wedge tracked the difference between the warp cylinder code and the head's TID (none for a
missing wedge), the constant term of the fit to the angular samples (ANGLE), and the loop values at the pad of each sector of outcome MARK. -/
structure CalWindow where
  wedges : List (Option Int)
  angle : Int
  fronts : List FrontEnd
  deriving DecidableEq, Repr

/-! ### Units, phases, crossings -/

/-- A Shed unit: ACU[a] or SCU[h] (R10). -/
inductive ShedUnit | acu (a : Act) | scu (h : Hda)
  deriving DecidableEq, Repr

/-- The unit kinds of R394, in the order of their codes. -/
inductive UnitKind | lu | act | hda
  deriving DecidableEq, Repr

/-- What a bring-up phase belongs to (R367): an HDA's SPIN, or an actuator's phases. -/
inductive BuUnit | spin (h : Hda) | act (a : Act)
  deriving DecidableEq, Repr

/-- A surface's defect table as bring-up reads it (R45, R46): its head, and the protected fields of the slots of each copy, in their order; a slot
that does not decode gives no bytes. -/
structure TableIn where
  head : Fin 15
  copyA : List (List Byte)
  copyB : List (List Byte)
  deriving DecidableEq, Repr

/-- A save record as bring-up reads it (R274): its number, and the protected field of each copy. -/
structure SaveIn where
  rcd : Nat
  copyA : List Byte
  copyB : List Byte
  deriving DecidableEq, Repr

/-- How a bring-up phase ended (R367), with what it read from the media. DEFECT: the tables of the heads. ZONES: the save records, and for a
zone saved open the slots that its recovery read forward, by global number (R277). -/
inductive PhaseResult
  | done
  | failed
  | tables (l : List TableIn)
  | saved (l : List SaveIn) (forward : List (Nat × List (Option FwdSlot)))
  deriving DecidableEq, Repr

/-- The crossings of R12 between islands; the Bool is the direction, true towards the lower level. -/
inductive Crossing
  | phyLoom (lane : Fin 8) (down : Bool)
  | loomHarness (down : Bool)
  | loomShed (u : ShedUnit) (down : Bool)
  | harnessHbm (down : Bool)
  | harnessChan (a : Act) (down : Bool)
  | harnessShed (u : ShedUnit) (down : Bool)
  | acuChan (a : Act) (down : Bool)
  | scuAcu (a : Act) (toAcu : Bool)
  | chanScu (a : Act)
  deriving DecidableEq, Repr

/-- The PLLs that GLB_ISLAND_STAT shows and source 0xB6 watches (R10, R330). -/
inductive Pll | harness | shed | hbm
  deriving DecidableEq, Repr

/-- The HBM3 stack temperature crossings of R436. -/
inductive HbmTemp | above85 | below85 | above95 | below95 | above105
  deriving DecidableEq, Repr

/-! ### Management (chapter 20) -/

/-- An MCTP packet of the transmission unit of R380: first and last flags, sequence number, and body. -/
structure MctpPacket where
  som : Bool
  eom : Bool
  seq : Fin 4
  body : List Byte
  deriving DecidableEq, Repr

/-- What FINISH brings (R383, R386): whether mutual authentication was requested, whether the chain and the
signatures verify, and the SHA-384 digest of the root certificate of the requester's chain. -/
structure FinishMsg where
  mutualAuth : Bool
  verified : Bool
  rootDigest : List Byte
  deriving DecidableEq, Repr

/-- A register-access message of R387 after its enterprise number, as bytes. -/
structure RegMsg where
  bytes : List Byte
  deriving DecidableEq, Repr

/-- What the STATE field of a UNIT_STATE request says (R396). -/
structure UnitStateReq where
  kind : Byte
  index : Byte
  target : Byte
  expGen : BitVec 16
  drainT : BitVec 16
  zero : Byte
  deriving DecidableEq, Repr

/-- The monitored sensors of R391. -/
inductive MonitorQuery
  | hdaTemp (h : Hda)
  | dieTemp
  | vbus (h : Hda)
  | speed (h : Hda)
  | unitState (k : UnitKind) (i : Fin 256)
  deriving DecidableEq, Repr

end Sys2Proof
end

