-- ==== Sys2Proof/Syntax.lean ====
section
/-! DEFINITION. The commands of the block, one constructor for each row of opcode_table.json, in the table's order.
The docstring of a constructor names its row and the rule the table gives it; its arguments are what comes from outside the part. -/

namespace Sys2Proof

/-- A command: an operation or an event of the part, whole and indivisible. -/
inductive Instr
  /-- POWER_ON_RELEASE (R364) -/
  | powerOnRelease (mbus : Bool)
  /-- PLL_LOCK (R365) -/
  | pllLock
  /-- HBM_TRAINED (R365) -/
  | hbmTrained (ok : Bool)
  /-- LOADER_START (R355) -/
  | loaderStart
  /-- IMAGE_CHECK_PASS_DONE (R355) -/
  | imageCheckPassDone (f : ImagePass)
  /-- IMAGE_APPLY_PASS_DONE (R355) -/
  | imageApplyPassDone (recheck : List Bool) (fills : List BankCheck)
  /-- CIPHER_SELF_TEST_DONE (R365) -/
  | cipherSelfTestDone (ok : Bool)
  /-- PHY_LINK_UP (R170) -/
  | phyLinkUp (port : Fin 2) (lane : Fin 4) (rate : Fin 4) (attached : BitVec 64)
  /-- BRINGUP_START (R369) -/
  | bringupStart
  /-- BU_START (R369) -/
  | buStart (n : Fin 4)
  /-- STAGGER_PLACE_FREE (R368) -/
  | staggerPlaceFree
  /-- BRINGUP_PHASE_DONE (R367) -/
  | bringupPhaseDone (u : BuUnit) (r : PhaseResult)
  /-- BRINGUP_WARP_TIMEOUT (R367) -/
  | bringupWarpTimeout (a : Act)
  /-- SYS_RST_QUALIFY (R371) -/
  | sysRstQualify
  /-- SOFT_RESET (R371) -/
  | softReset (n : Fin 4)
  /-- RESET_DOMAIN_ENTER (R371) -/
  | resetDomainEnter
  /-- SYS_RST_RELEASE (R371) -/
  | sysRstRelease
  /-- LOOM_RESTART (R373) -/
  | loomRestart
  /-- MOTION_RESET (R374) -/
  | motionReset (n : Fin 4)
  /-- MOTION_RESET_GATES_OFF (R374) -/
  | motionResetGatesOff (h : Hda)
  /-- MOTION_RESET_DONE (R374) -/
  | motionResetDone (h : DomainLoad)
  /-- PG_MAIN_FALL (R375) -/
  | pgMainFall
  /-- PG_MAIN_RISE (R375) -/
  | pgMainRise
  /-- PG_MOT_FALL (R377) -/
  | pgMotFall
  /-- PG_MOT_RISE (R377) -/
  | pgMotRise
  /-- PG_MBUS_FALL (R376) -/
  | pgMbusFall
  /-- PG_MBUS_RISE (R376) -/
  | pgMbusRise
  /-- MBUS_RUN_DELAY_END (R376) -/
  | mbusRunDelayEnd
  /-- STANDBY_SECOND (R379) -/
  | standbySecond
  /-- STANDBY_SUPPLY_LOSS (R379) -/
  | standbySupplyLoss
  /-- CROSSING_WORD (R11) -/
  | crossingWord (x : Crossing)
  /-- SECTOR_BOUNDARY (R9) -/
  | sectorBoundary (a : Act) (slot : Fin 2048) (rd : SectorRead)
  /-- FRAMER_MARK_FIRST (R76) -/
  | framerMarkFirst (a : Act) (llrs : List Int)
  /-- FRAMER_WINDOW_CLOSE (R77) -/
  | framerWindowClose (a : Act) (llrs : List Int)
  /-- INLINE_DECODE_DONE (R66) -/
  | inlineDecodeDone (a : Act) (llrs : List Int)
  /-- RETRY_DECODER_GRANT (R69) -/
  | retryDecoderGrant (a : Act) (k : Fin 4)
  /-- RETRY_COPY_DONE (R69) -/
  | retryCopyDone (k : Fin 4)
  /-- RETRY_ATTEMPT_DONE (R70) -/
  | retryAttemptDone (k : Fin 4) (llrs : List Int)
  /-- WARP_MARK (R52) -/
  | warpMark (a : Act) (m : WarpMark)
  /-- WARP_LOCK_ACQUIRED (R54) -/
  | warpLockAcquired (a : Act)
  /-- WARP_LOCK_LOST (R55) -/
  | warpLockLost (a : LockLoss)
  /-- WARP_ZONE_CHANGE (R54) -/
  | warpZoneChange (a : Act) (zone : Fin 64)
  /-- PREAMP_FAULT (R50) -/
  | preampFault (a : Act)
  /-- PREAMP_FAULT_CLEAR (R50) -/
  | preampFaultClear (a : Act)
  /-- PREAMP_SCRIPT_START (R48) -/
  | preampScriptStart (a : Act)
  /-- PREAMP_SCRIPT_DONE (R48) -/
  | preampScriptDone (a : Act)
  /-- HEAD_SETTLE_END (R48) -/
  | headSettleEnd (a : Act)
  /-- PA_ACC_GO (R49) -/
  | paAccGo (n : Fin 4) (a : Act) (w : Word)
  /-- PA_ACC_SEND (R49) -/
  | paAccSend (a : Act)
  /-- PA_ACC_FRAME_DONE (R47) -/
  | paAccFrameDone (a : Act) (data : Byte)
  /-- ADAPT_RESET (R61) -/
  | adaptReset (n : Fin 4) (a : Act)
  /-- WEDGE_RECORD (R94) -/
  | wedgeRecord (a : Act) (r : WedgeRead)
  /-- SERVO_LOCK_CONFIRMED (R97) -/
  | servoLockConfirmed (a : Act)
  /-- SERVO_LOCK_LOST (R113) -/
  | servoLockLost (a : Act)
  /-- SEEK_SETTLED (R107) -/
  | seekSettled (a : Act)
  /-- SETTLE_TIMEOUT (R107) -/
  | settleTimeout (a : Act)
  /-- MASAT_INHIBIT (R109) -/
  | masatInhibit (a : Act)
  /-- SHOCK_ASSERT (R17) -/
  | shockAssert (h : Hda)
  /-- SHOCK_HOLD_EXPIRE (R109) -/
  | shockHoldExpire (a : Act)
  /-- WRITE_PERMIT_RETURN (R110) -/
  | writePermitReturn (a : Act)
  /-- VCM_PWM_PERIOD (R98) -/
  | vcmPwmPeriod (a : Act) (sense : Int)
  /-- ACU_SEEK (R108) -/
  | acuSeek (a : Act) (c : SeekCmd)
  /-- ACU_LOAD (R115) -/
  | acuLoad (a : Act) (rCoil : Nat)
  /-- LOAD_TIMEOUT (R115) -/
  | loadTimeout (a : Act)
  /-- RECOVER_TIMEOUT (R113) -/
  | recoverTimeout (a : Act)
  /-- HARNESS_PARK (R116) -/
  | harnessPark (a : Act)
  /-- PARK_REGISTER (R116) -/
  | parkRegister (n : Fin 4) (a : Act)
  /-- UNIT_STOP_PARK (R334) -/
  | unitStopPark (a : Act)
  /-- PARK_LATCHED (R117) -/
  | parkLatched (a : Act) (rCoil : Nat)
  /-- PARK_TIMEOUT (R117) -/
  | parkTimeout (a : Act)
  /-- CLE_DATA_WRITE (R104) -/
  | cleDataWrite (n : Fin 4) (u : ShedUnit) (w : Word) (busy : Bool)
  /-- CLE_BYPASS_WRITE (R104) -/
  | cleBypassWrite (n : Fin 4) (u : ShedUnit) (w : Word) (busy : Bool)
  /-- CLE_WRITE_APPLY (R104) -/
  | cleWriteApply (u : ShedUnit) (l : Fin 4)
  /-- PWM_PERIOD (R120) -/
  | pwmPeriod (h : Hda) (p : PwmSample)
  /-- CHOP_MIN_ON_END (R142) -/
  | chopMinOnEnd (h : Hda) (vbus : Nat)
  /-- OBSERVER_LOCK_CONFIRMED (R127) -/
  | observerLockConfirmed (h : Hda)
  /-- IN_TOL_SET (R133) -/
  | inTolSet (h : Hda)
  /-- ROTOR_LOSS_DECLARED (R139) -/
  | rotorLossDeclared (h : Hda)
  /-- ROTOR_CURRENT_DECAYED (R139) -/
  | rotorCurrentDecayed (h : Hda)
  /-- DETECT_FORWARD (R136) -/
  | detectForward (h : Hda)
  /-- CATCH_MEASURED (R136) -/
  | catchMeasured (h : Hda) (m : CatchMeasure)
  /-- DETECT_REVERSE (R137) -/
  | detectReverse (h : Hda)
  /-- DETECT_TIMEOUT (R134) -/
  | detectTimeout (h : Hda)
  /-- ALIGN_DONE (R135) -/
  | alignDone (h : Hda) (peaks : List Nat)
  /-- OPENLOOP_HANDOVER (R135) -/
  | openloopHandover (h : Hda)
  /-- START_FAILURE (R138) -/
  | startFailure (h : Hda)
  /-- START_RETRY_WAIT_END (R138) -/
  | startRetryWaitEnd (h : Hda)
  /-- ZVBRAKE_STILL_END (R141) -/
  | zvbrakeStillEnd (h : Hda)
  /-- BRAKE_TIMEOUT (R137) -/
  | brakeTimeout (h : Hda)
  /-- SCU_RUN (R134) -/
  | scuRun (n : Fin 4) (h : Hda)
  /-- SCU_STOP (R141) -/
  | scuStop (n : Fin 4) (h : Hda)
  /-- SCU_COAST (R141) -/
  | scuCoast (n : Fin 4) (h : Hda)
  /-- SCU_TARGET_WRITE (R133) -/
  | scuTargetWrite (n : Fin 4) (h : Hda) (w : Word)
  /-- CHOP_OPEN_DETECT (R143) -/
  | chopOpenDetect (h : Hda)
  /-- CHOP_NOFALL_DETECT (R143) -/
  | chopNofallDetect (h : Hda)
  /-- CHOP_STUCK_DETECT (R143) -/
  | chopStuckDetect (h : Hda)
  /-- CHOP_FAULT_CLEAR (R144) -/
  | chopFaultClear (n : Fin 4) (h : Hda) (w : Word)
  /-- OVERVOLTAGE_TRIP (R145) -/
  | overvoltageTrip (h : Hda)
  /-- BUSHOLD_END (R148) -/
  | busholdEnd (h : Hda)
  /-- PICK_SELECT (R151) -/
  | pickSelect (q : Fin 64) (e : FetchErr) (cond : Bool)
  /-- PICK_EXIT (R151) -/
  | pickExit (q : Fin 64) (e : FetchErr) (hit : Bool)
  /-- PICK_LOOP (R151) -/
  | pickLoop (q : Fin 64) (e : FetchErr)
  /-- SHED_NOP (R155) -/
  | shedNop (u : ShedUnit) (e : FetchErr) (cond : Bool)
  /-- SHED_CLRA (R155) -/
  | shedClra (u : ShedUnit) (e : FetchErr) (cond : Bool)
  /-- SHED_MAC (R155) -/
  | shedMac (u : ShedUnit) (e : FetchErr) (cond : Bool)
  /-- SHED_MSC (R155) -/
  | shedMsc (u : ShedUnit) (e : FetchErr) (cond : Bool)
  /-- SHED_RND (R155) -/
  | shedRnd (u : ShedUnit) (e : FetchErr) (cond : Bool)
  /-- SHED_MOV (R155) -/
  | shedMov (u : ShedUnit) (e : FetchErr) (cond : Bool)
  /-- SHED_LDI (R155) -/
  | shedLdi (u : ShedUnit) (e : FetchErr) (cond : Bool)
  /-- SHED_ADDS (R155) -/
  | shedAdds (u : ShedUnit) (e : FetchErr) (cond : Bool)
  /-- SHED_SUBS (R155) -/
  | shedSubs (u : ShedUnit) (e : FetchErr) (cond : Bool)
  /-- SHED_IN (R155) -/
  | shedIn (u : ShedUnit) (e : FetchErr) (cond : Bool) (port : BitVec 24)
  /-- SHED_OUTP (R155) -/
  | shedOutp (u : ShedUnit) (e : FetchErr) (cond : Bool)
  /-- SHED_BYPCK (R155) -/
  | shedBypck (u : ShedUnit) (e : FetchErr) (cond : Bool)
  /-- SHED_DLY (R155) -/
  | shedDly (u : ShedUnit) (e : FetchErr) (cond : Bool)
  /-- SHED_SAT (R155) -/
  | shedSat (u : ShedUnit) (e : FetchErr) (cond : Bool)
  /-- JQ_FALLBACK_REPAIR (R162) -/
  | jqFallbackRepair (q : Fin 64) (block : FetchErr) (again : FetchErr)
  /-- JQ_ARM (R165) -/
  | jqArm (n : Fin 4)
  /-- JQ_ABORT (R167) -/
  | jqAbort (n : Fin 4)
  /-- JQ_SWAP_IDLE (R166) -/
  | jqSwapIdle (u : ShedUnit)
  /-- JQ_SWAP_TIMEOUT (R167) -/
  | jqSwapTimeout
  /-- OPEN_ADDRESS_FRAME (R173) -/
  | openAddressFrame (f : OpenFrame)
  /-- INITIATOR_IDLE_EXPIRE (R172) -/
  | initiatorIdleExpire (x : Fin 2048)
  /-- TEST_UNIT_READY (R189) -/
  | testUnitReady (f : CmdFrame)
  /-- REQUEST_SENSE (R443) -/
  | requestSense (f : CmdFrame)
  /-- FORMAT_UNIT (R441) -/
  | formatUnit (f : CmdFrame)
  /-- REASSIGN_BLOCKS (R42) -/
  | reassignBlocks (f : CmdFrame)
  /-- INQUIRY (R184) -/
  | inquiry (f : CmdFrame)
  /-- MODE_SELECT_6 (R185) -/
  | modeSelect6 (f : CmdFrame)
  /-- MODE_SELECT_10 (R185) -/
  | modeSelect10 (f : CmdFrame)
  /-- MODE_SENSE_6 (R185) -/
  | modeSense6 (f : CmdFrame)
  /-- MODE_SENSE_10 (R185) -/
  | modeSense10 (f : CmdFrame)
  /-- RECEIVE_DIAGNOSTIC_RESULTS (R178) -/
  | receiveDiagnosticResults (f : CmdFrame)
  /-- SEND_DIAGNOSTIC (R230) -/
  | sendDiagnostic (f : CmdFrame)
  /-- WRITE_BUFFER_DOWNLOAD (R357) -/
  | writeBufferDownload (f : CmdFrame)
  /-- WRITE_BUFFER_ACTIVATE (R212) -/
  | writeBufferActivate (f : CmdFrame)
  /-- READ_BUFFER (R178) -/
  | readBuffer (f : CmdFrame)
  /-- SANITIZE (R308) -/
  | sanitize (f : CmdFrame)
  /-- LOG_SENSE (R186) -/
  | logSense (f : CmdFrame)
  /-- READ_16 (R206) -/
  | read16 (f : CmdFrame)
  /-- WRITE_16 (R201) -/
  | write16 (f : CmdFrame)
  /-- VERIFY_16 (R178) -/
  | verify16 (f : CmdFrame)
  /-- SYNCHRONIZE_CACHE_16 (R209) -/
  | synchronizeCache16 (f : CmdFrame)
  /-- CLOSE_ZONE (R268) -/
  | closeZone (f : CmdFrame)
  /-- FINISH_ZONE (R268) -/
  | finishZone (f : CmdFrame)
  /-- OPEN_ZONE (R268) -/
  | openZone (f : CmdFrame)
  /-- RESET_WRITE_POINTER (R270) -/
  | resetWritePointer (f : CmdFrame)
  /-- REPORT_ZONES (R178) -/
  | reportZones (f : CmdFrame)
  /-- READ_CAPACITY_16 (R181) -/
  | readCapacity16 (f : CmdFrame)
  /-- REPORT_LUNS (R178) -/
  | reportLuns (f : CmdFrame)
  /-- UNSUPPORTED_OPCODE (R178) -/
  | unsupportedOpcode (f : CmdFrame)
  /-- ADMISSION_RETRY (R192) -/
  | admissionRetry
  /-- ADMISSION_TIMEOUT (R192) -/
  | admissionTimeout (k : Fin 4096)
  /-- ABORT_TASK (R210) -/
  | abortTask (t : TmfFrame)
  /-- ABORT_TASK_SET (R210) -/
  | abortTaskSet (t : TmfFrame)
  /-- CLEAR_TASK_SET (R210) -/
  | clearTaskSet (t : TmfFrame)
  /-- LOGICAL_UNIT_RESET (R210) -/
  | logicalUnitReset (t : TmfFrame)
  /-- I_T_NEXUS_RESET (R210) -/
  | iTNexusReset (t : TmfFrame)
  /-- QUERY_TASK (R176) -/
  | queryTask (t : TmfFrame)
  /-- QUERY_TASK_SET (R176) -/
  | queryTaskSet (t : TmfFrame)
  /-- TMF_UNSUPPORTED (R176) -/
  | tmfUnsupported (t : TmfFrame)
  /-- ABORT_STOP_COMPLETE (R211) -/
  | abortStopComplete
  /-- SAS_HARD_RESET (R177) -/
  | sasHardReset (port : Fin 2) (lane : Fin 4)
  /-- I_T_NEXUS_LOSS (R177) -/
  | iTNexusLoss (x : Fin 2048)
  /-- XFER_RDY_SEND (R180) -/
  | xferRdySend (port : Fin 2)
  /-- DATA_FRAME_RECEIVED (R180) -/
  | dataFrameReceived (f : DataFrame)
  /-- INITIATOR_RESPONSE_TIMEOUT (R180) -/
  | initiatorResponseTimeout (c : Fin 40960)
  /-- ACK_NAK_TIMEOUT (R180) -/
  | ackNakTimeout (c : Fin 40960)
  /-- NAK_RECEIVED (R180) -/
  | nakReceived (c : Fin 40960)
  /-- DATA_FRAME_SEND (R258) -/
  | dataFrameSend (port : Fin 2)
  /-- PIN_EXPIRE (R207) -/
  | pinExpire (c : Fin 40960)
  /-- INT_LU_QUOTA_WRITE (R215) -/
  | intLuQuotaWrite (n : Fin 4) (ctxq : Bool) (w : Word)
  /-- ACTIVATION_QUIESCE_DONE (R212) -/
  | activationQuiesceDone
  /-- ACTIVATION_QUIESCE_TIMEOUT (R212) -/
  | activationQuiesceTimeout
  /-- ACTIVATION_VERIFY_DONE (R213) -/
  | activationVerifyDone (f : ImageFile) (fills : List BankCheck)
  /-- ACTIVATION_SWAP_DONE (R212) -/
  | activationSwapDone
  /-- SCHEDULER_DECISION (R216) -/
  | schedulerDecision (a : Act) (cyc : Nat)
  /-- PASS_END (R222) -/
  | passEnd (a : Act) (m : PassEnd)
  /-- PENDING_SEEK_ISSUE (R249) -/
  | pendingSeekIssue (a : Act)
  /-- SELFTEST_STARVE (R231) -/
  | selftestStarve (a : Act)
  /-- BOBBIN_POP (R241) -/
  | bobbinPop (c : Fin 40960)
  /-- BOBBIN_RETURN (R242) -/
  | bobbinReturn
  /-- HEAD_CACHE_REFILL (R243) -/
  | headCacheRefill (p : Fin 65)
  /-- CREEL_REBUILD_DONE (R246) -/
  | creelRebuildDone (p : Fin 65)
  /-- BITMAP_WORD_REBUILD_DONE (R327) -/
  | bitmapWordRebuildDone (w : Fin 3840)
  /-- JOB_POST (R249) -/
  | jobPost (j : JobPost)
  /-- HOST_JOB_DEQUEUE (R250) -/
  | hostJobDequeue
  /-- SHUTTLE_END (R256) -/
  | shuttleEnd (d : Fin 64)
  /-- SHUTTLE_MOVE (R254) -/
  | shuttleMove (d : Fin 64)
  /-- MOVE_BLOCK (R254) -/
  | moveBlock (d : Fin 64)
  /-- SHUTTLE_LOOP (R256) -/
  | shuttleLoop (d : Fin 64)
  /-- SHUTTLE_WAIT (R252) -/
  | shuttleWait (d : Fin 64)
  /-- WAIT_CONDITION_MET (R252) -/
  | waitConditionMet (d : Fin 64)
  /-- WAIT_TIMEOUT (R256) -/
  | waitTimeout (d : Fin 64)
  /-- SHUTTLE_SIGNAL (R252) -/
  | shuttleSignal (d : Fin 64)
  /-- PACE_RESUME (R257) -/
  | paceResume (d : Fin 64)
  /-- BUS_ERROR (R259) -/
  | busError (d : Fin 64) (cause : BusCause) (addr : BitVec 34)
  /-- BUS_RETRY (R259) -/
  | busRetry (d : Fin 64)
  /-- SHUTTLE_CLEAR (R261) -/
  | shuttleClear (n : Fin 4)
  /-- MEDIA_CHANNEL_AUTO_CLEAR (R261) -/
  | mediaChannelAutoClear (a : Act)
  /-- TEMPLE_LOOKUP (R280) -/
  | templeLookup (g : BitVec 25) (soon : Bool)
  /-- TEMPLE_FILL_DONE (R283) -/
  | templeFillDone (x : Fin 48)
  /-- TEMPLE_UPDATE (R282) -/
  | templeUpdate (g : BitVec 25) (off : Fin 28) (bytes : List Byte) (soon : Bool)
  /-- MERGE_BUFFER_WRITE_DONE (R282) -/
  | mergeBufferWriteDone
  /-- TEMPLE_INVALIDATE (R285) -/
  | templeInvalidate (n : Fin 4)
  /-- TEMPLE_PRELOAD (R285) -/
  | templePreload (n : Fin 4)
  /-- TEMPLE_UNLOCK (R285) -/
  | templeUnlock (n : Fin 4)
  /-- TEMPLE_INVALIDATE_ALL (R285) -/
  | templeInvalidateAll (n : Fin 4)
  /-- TEMPLE_GROUP_OFF (R285) -/
  | templeGroupOff (n : Fin 4) (m : Fin 8)
  /-- GROUP_CLEAN_DONE (R286) -/
  | groupCleanDone
  /-- TEMPLE_GROUP_ON (R285) -/
  | templeGroupOn (n : Fin 4) (m : Fin 8)
  /-- CIPHER_KEY_LOAD (R300) -/
  | cipherKeyLoad (n : Fin 4) (kcv : BitVec 24)
  /-- CIPHER_KEY_CLEAR (R302) -/
  | cipherKeyClear (n : Fin 4)
  /-- KEY_CLEAR_COMPLETE (R302) -/
  | keyClearComplete (u : Fin 256)
  /-- KEY_DERIVATION_DONE (R304) -/
  | keyDerivationDone
  /-- CIPHER_CORE_TAKE (R305) -/
  | cipherCoreTake (k : Fin 4)
  /-- CIPHER_ENCRYPT_DONE (R292) -/
  | cipherEncryptDone (k : Fin 4)
  /-- CIPHER_DECRYPT_DONE (R293) -/
  | cipherDecryptDone (k : Fin 4)
  /-- ZONE_REKEY (R307) -/
  | zoneRekey (n : Fin 4)
  /-- CV_START (R310) -/
  | cvStart (n : Fin 4) (v : Fin 8) (w : Word)
  /-- CV_FEED (R310) -/
  | cvFeed (n : Fin 4) (v : Fin 8) (w : Word)
  /-- CV_RUN_LOAD (R319) -/
  | cvRunLoad (n : Fin 4) (v : Fin 8) (w : Word)
  /-- HEDDLE_READ (R322) -/
  | heddleRead (m : Fin 204) (w : Fin 4096) (flip : BitVec 80) (bad : Bool)
  /-- HEDDLE_WRITEBACK (R323) -/
  | heddleWriteback (hard : Bool)
  /-- HEDDLE_NARROW_WRITE (R325) -/
  | heddleNarrowWrite (m : Fin 204) (w : Fin 4096) (mask : BitVec 8) (data : BitVec 64) (flip : BitVec 80)
  /-- HEDDLE_SCRUB_READ (R328) -/
  | heddleScrubRead (flip : BitVec 80) (bad : Bool) (e : FetchErr) (rp : ShadowRead)
  /-- HEDDLE_RAW_READ (R329) -/
  | heddleRawRead (n : Fin 4)
  /-- HEDDLE_INJECT (R329) -/
  | heddleInject (n : Fin 4)
  /-- HEDDLE_DATA_ONLY (R329) -/
  | heddleDataOnly (n : Fin 4)
  /-- HEDDLE_CHECK_ONLY (R329) -/
  | heddleCheckOnly (n : Fin 4)
  /-- FAULT_COLLECT (R338) -/
  | faultCollect
  /-- ERRN_HOLD_CLEAR (R341) -/
  | errnHoldClear (n : Fin 4)
  /-- ERRN_MIN_PULSE_END (R341) -/
  | errnMinPulseEnd
  /-- SEVERITY_WRITE (R338) -/
  | severityWrite (n : Fin 4) (w : Word)
  /-- STAGING_ERASE_DONE (R357) -/
  | stagingEraseDone
  /-- DIRECTORY_UPDATE_DONE (R358) -/
  | directoryUpdateDone
  /-- JOURNAL_ENTRY_DONE (R361) -/
  | journalEntryDone
  /-- JOURNAL_COMPACT (R361) -/
  | journalCompact
  /-- I3C_ENTDAA (R380) -/
  | i3cEntdaa (addr : BitVec 7)
  /-- MCTP_PACKET (R380) -/
  | mctpPacket (p : MctpPacket)
  /-- SET_ENDPOINT_ID (R381) -/
  | setEndpointId (eid : Byte)
  /-- GET_ENDPOINT_ID (R381) -/
  | getEndpointId
  /-- GET_ENDPOINT_UUID (R381) -/
  | getEndpointUuid
  /-- GET_MCTP_VERSION_SUPPORT (R381) -/
  | getMctpVersionSupport (t : Byte)
  /-- GET_MESSAGE_TYPE_SUPPORT (R381) -/
  | getMessageTypeSupport
  /-- GET_VENDOR_DEFINED_MESSAGE_SUPPORT (R381) -/
  | getVendorDefinedMessageSupport (sel : Byte)
  /-- GET_VERSION (R382) -/
  | getVersion
  /-- GET_CAPABILITIES (R382) -/
  | getCapabilities
  /-- NEGOTIATE_ALGORITHMS (R382) -/
  | negotiateAlgorithms (ok : Bool)
  /-- GET_DIGESTS (R382) -/
  | getDigests
  /-- GET_CERTIFICATE (R382) -/
  | getCertificate (slot : Nat) (offset : Nat) (len : Nat)
  /-- CHALLENGE (R382) -/
  | challenge (slot : Nat) (nonce : List Byte)
  /-- GET_MEASUREMENTS (R382) -/
  | getMeasurements (index : Byte) (nonce : List Byte)
  /-- KEY_EXCHANGE (R384) -/
  | keyExchange (mutualAuth : Bool)
  /-- FINISH (R383) -/
  | finish (n : Fin 4) (f : FinishMsg)
  /-- HEARTBEAT (R382) -/
  | heartbeat (n : Fin 4)
  /-- KEY_UPDATE (R382) -/
  | keyUpdate (n : Fin 4)
  /-- END_SESSION (R384) -/
  | endSession (n : Fin 4)
  /-- SESSION_IDLE_TIMEOUT (R384) -/
  | sessionIdleTimeout (n : Fin 4)
  /-- CLAIM_WINDOW_END (R386) -/
  | claimWindowEnd
  /-- REG_READ (R387) -/
  | regRead (n : Option (Fin 4)) (m : RegMsg)
  /-- REG_WRITE (R389) -/
  | regWrite (n : Option (Fin 4)) (m : RegMsg)
  /-- REG_WRITE_MASKED (R389) -/
  | regWriteMasked (n : Option (Fin 4)) (m : RegMsg)
  /-- UNIT_STATE (R396) -/
  | unitState (n : Option (Fin 4)) (m : RegMsg) (st : List Byte)
  /-- DRAIN_DEADLINE (R399) -/
  | drainDeadline (k : UnitKind) (x : Fin 256)
  /-- DRAIN_COMPLETE (R399) -/
  | drainComplete (k : UnitKind) (x : Fin 256)
  /-- PLDM_DISCOVERY (R391) -/
  | pldmDiscovery (n : Option (Fin 4)) (cmd : Byte)
  /-- PLDM_MONITOR_READ (R391) -/
  | pldmMonitorRead (n : Option (Fin 4)) (q : MonitorQuery)
  /-- PLDM_FIRMWARE_TRANSFER (R357) -/
  | pldmFirmwareTransfer (n : Fin 4) (offset : Nat) (data : List Byte)
  /-- ACTIVATE_FIRMWARE (R212) -/
  | activateFirmware (n : Fin 4)
  /-- OEM_RAISE_SVN_MIN (R391) -/
  | oemRaiseSvnMin (n : Fin 4) (v : Nat)
  /-- OEM_REVOKE_KEY (R391) -/
  | oemRevokeKey (n : Fin 4) (k : Fin 4)
  /-- OEM_ARM_EXPIRE (R391) -/
  | oemArmExpire
  /-- ANCHOR_INSTALL (R392) -/
  | anchorInstall (n : Fin 4)
  /-- ANCHOR_REMOVE (R392) -/
  | anchorRemove (n : Fin 4)
  /-- ANCHOR_COPY (R392) -/
  | anchorCopy (n : Fin 4)
  /-- THERMISTOR_READ (R403) -/
  | thermistorRead (h : Hda) (temp : BitVec 8)
  /-- CAL_PERIOD_EXPIRE (R403) -/
  | calPeriodExpire (h : Hda)
  /-- CAL_GO (R403) -/
  | calGo (n : Fin 4)
  /-- CAL_ABORT (R408) -/
  | calAbort (n : Fin 4)
  /-- CAL_REFERENCE_STEP (R402) -/
  | calReferenceStep (u : ShedUnit) (input : Fin 8) (gain : Int) (ofs : Int)
  /-- RPH_MEASURE_DONE (R404) -/
  | rphMeasureDone (h : Hda) (r : Nat)
  /-- CAL_WINDOW_END (R407) -/
  | calWindowEnd (a : Act) (m : CalWindow)
  /-- RECORDER_SCAN_DONE (R413) -/
  | recorderScanDone
  /-- RECORDER_PROGRAM_DONE (R417) -/
  | recorderProgramDone
  /-- RECORDER_ERASE_DONE (R411) -/
  | recorderEraseDone
  /-- SNAPSHOT_START (R416) -/
  | snapshotStart
  /-- SNAPSHOT_DONE (R416) -/
  | snapshotDone
  /-- CHECKPOINT_TIMER (R420) -/
  | checkpointTimer
  /-- RECORDER_SECOND (R419) -/
  | recorderSecond
  /-- ER_CLEAR_HIST (R421) -/
  | erClearHist (n : Fin 4)
  /-- ER_CLEAR_LOG (R421) -/
  | erClearLog (n : Fin 4)
  /-- ER_CLEAR_BOTH (R421) -/
  | erClearBoth (n : Fin 4)
  /-- ER_READ_GO (R411) -/
  | erReadGo (n : Fin 4)
  /-- ER_READ_DONE (R411) -/
  | erReadDone (n : Fin 4)
  /-- HIST_CONFIG_WRITE (R419) -/
  | histConfigWrite (n : Fin 4) (base : Bool) (w : Word)
  /-- DIE_TEMPERATURE_LIMIT (R436) -/
  | dieTemperatureLimit
  /-- HBM3_TEMPERATURE_THRESHOLD (R436) -/
  | hbm3TemperatureThreshold (t : HbmTemp)
  /-- CLOCK_PLL_LOSES_LOCK (R330) -/
  | clockPllLosesLock (p : Pll)
  /-- PHY_LINK_LOSS (R170) -/
  | phyLinkLoss (port : Fin 2) (lane : Fin 4)
  /-- SHOCK_RELEASE (R109) -/
  | shockRelease (h : Hda)
  /-- IN_BAND_INTERRUPT (R380) -/
  | inBandInterrupt
  deriving DecidableEq, Repr

end Sys2Proof
end

