-- ==== Sys2Proof/Decode.lean ====
section
/-! DEFINITION. The decoder. The block takes commands, and no row of opcode_table.json gives a command any bits, so no word spells one. -/

namespace Sys2Proof

/-- The command that a word of the table's bits spells: no row has bits. -/
def decodeTableWord (_nbits _w : Nat) : Option Instr := none

end Sys2Proof
end

