-- ==== Sys2Proof/Machine/Cfg.lean ====
section
/-! DEFINITION. The values of the image in force that no register holds, in the records' own shape, and the empty
values that stand before an image is loaded. -/

namespace Sys2Proof.Machine

/-- A run of an LU record (R353). -/
structure ZoneRun where
  count : Nat
  act : Nat
  head : Nat
  rz : Nat
  seq : Bool
  first : Nat
  deriving DecidableEq, Repr

/-- An LU record (R181, R191, R264, R269, R353): zone base and runs, pool, maximum of open zones, PI bytes' format as the
PIFMT code of R33, protection type 1 to 3 (0: none), and the mode pages the image gives (page × 256 + subpage). -/
structure LuCfg where
  lu : Nat
  zbase : Nat
  runs : List ZoneRun
  pool : Nat
  minBob : Nat
  maxBob : Nat
  minCtx : Nat
  maxCtx : Nat
  weight : Nat
  maxOpen : Nat
  pifmt : Nat
  ptype : Nat
  modes : List (Nat × List Byte)
  deriving DecidableEq, Repr

/-- The DEVICE record's values that no register holds. -/
structure DevCfg where
  serial : List Byte
  devName : BitVec 64
  idleT : Nat
  tjLim : Nat
  deriving DecidableEq, Repr

/-- What the image in force tells the units, record by record (R352, R360). -/
structure ImgCfg where
  acts : Vector ActCfg 16
  heads : Vector (List HeadCfg) 16
  velGains : Vector (List Int) 16
  spin : Vector SpindleCfg 8
  preamp : Vector PreampCfg 16
  lus : List LuCfg
  dev : DevCfg
  deriving DecidableEq, Repr

def ActCfg.none : ActCfg :=
  ⟨0, [], 0, 0, 0, 0, 0, 0, 0, 4, 20, 0, 0, 0, 0, 0, 0, 0, 0, 0⟩

def SpindleCfg.none : SpindleCfg :=
  ⟨0, 0, 0, 0, 0, 0, 0, 0, 0, 0, 0, 0, 0, 0, 0, 0, 0, 0, 0, 0, 0, 0, 0, 0, 0, 0, 0, 0, 0, 0, 0, 0, 0, 0, 0⟩

def PreampCfg.none : PreampCfg := ⟨[], [], [], []⟩

/-- No image: every value zero or empty (the defaults R97 and R113 give stand for LOST_N and RECOVER_TMO). -/
def ImgCfg.none : ImgCfg :=
  { acts := Vector.replicate 16 ActCfg.none
    heads := Vector.replicate 16 []
    velGains := Vector.replicate 16 []
    spin := Vector.replicate 8 SpindleCfg.none
    preamp := Vector.replicate 16 PreampCfg.none
    lus := []
    dev := ⟨[], 0, 1, 115⟩ }

end Sys2Proof.Machine
end

