-- ==== Sys2Proof/Config.lean ====
section
/-! DEFINITION. What an implementation fixes and the values the spec leaves open (free values). Every free value is
an opaque constant: nothing in Lean can evaluate it, so a claim holds whatever it is. The assumption log names each. -/

namespace Sys2Proof.Config

/-- Free (log entry 3): whether an inexact position error rounds up, R95 gives the PES unit and no rounding. -/
opaque pesRoundUp : Int → Nat → Bool

/-- Free (log entry 4): the value that the Treadle takes for the square or cube root (the first argument, 2 or 3) of R106, which is irrational; the
rule gives no precision. -/
opaque treadleRoot : Nat → Rat → Rat

/-- Free (log entry 4): the jerk, in cylinders/ms³, that a profile planned from a moving reference has next (R108 gives its limits and not its
course), from its position, velocity, acceleration and target and the clocks since it was planned. -/
opaque replanJerk : Rat → Rat → Rat → Rat → Nat → Rat

/-- Free (log entry 4): whether a profile planned from a moving reference (R108) has ended, from the same. -/
opaque replanDone : Rat → Rat → Rat → Rat → Nat → Bool

/-- Free (log entry 4): the gain that KFF stands for, from cylinders/ms² to the 24-bit numbers of R101 (R98 names the product and no unit). -/
opaque kffGain : Int → Rat

/-- Free (log entry 4): which cylinder of the outer guard a park heads for (R117); the guard has 128. -/
opaque parkCylinder : Nat

/-- Free (log entry 3): the position error of a wedge whose burst sums are zero, which an amplitude floor of zero lets
through: R95 divides by them. -/
opaque pesOpen : WedgeRecord → Int

/-- Free (log entry 45): the natural frequency, in radians per warp cycle, of the warp PLL's loop from its bandwidth in cycles per warp cycle
(R51 gives the bandwidth and the damping factor, and not which measure of bandwidth it means). -/
opaque pllNatural : Rat → Rat

/-- Free (log entry 5): the current command of the velocity loop of R114, 24-bit, from its gains, the velocity asked for and the estimated
back-EMF. -/
opaque velocityLoop : List Int → Int → Rat → Int

/-- Free (log entry 5): the inductive term of R114 in mV, from the change in sensed current over the period in mA. -/
opaque coilInductive : Rat → Rat

/-- Free (log entry 5): the velocity that an estimated back-EMF stands for, in the unit of PARK_VEL. -/
opaque bemfSpeed : Rat → Rat

/-- Free (log entry 5): how far from mid-scale the two microactuator DACs stand for a 24-bit command (R98 gives no scale). -/
opaque dacStep : Int → BitVec 16

/-- Free (log entry 3): the information bit that a pair of channel bits 00 or 11 is decoded to, from the second bit (R91 writes 01 and 10 only). -/
opaque badDibit : Bool → Bool

/-- Free (log entry 6): the values that the engine takes for the cosine and the sine of an angle in electrical degrees (R125, R135). -/
opaque cosDeg : Rat → Rat
opaque sinDeg : Rat → Rat

/-- Free (log entry 6): the value that the engine takes for 1 / √3. -/
opaque invSqrt3 : Rat

/-- Free (log entry 6): the whole number that a computed current, voltage or width becomes (R125 names no rounding). -/
opaque spinRound : Rat → Int

/-- Free (log entry 6): the part of the bus voltage, in mV, that a 24-bit voltage stands for (R125 gives the voltages no scale). -/
opaque voltPart : Rat → Nat → Rat

/-- Free (log entry 6): the 24-bit voltage that stands for so many mV (R136). -/
opaque voltCode : Rat → Int

/-- Free (log entry 6): whether a bus voltage that is no whole number of mV is shown rounded up (R119). -/
opaque busRoundUp : Nat → Bool

/-- Free (log entry 6): the tracking loop of R126: the next angle and the speed in 1/16 rpm, signed, from the back-EMF estimate, the angle and
speed before, PLL_BW in Hz and the periods of 25 µs since the last update. -/
opaque track : Rat × Rat → Rat → Int → Nat → Nat → Rat × Int

/-- Free (log entry 6): the peak phase back-EMF in mV of a rotor with a KE at an electrical speed (1/16 rpm × pole pairs); it involves π (R136). -/
opaque emfPeak : Nat → Nat → Rat

/-- Free (log entry 6): the short-circuit speed between the entry to ZVBRAKE and the first crossing of i_U, from the speed reported last (R132 gives
none). -/
opaque zvSpeed : Nat → Nat

/-- Free (log entry 6): the bus current in mA that the SCU estimates from the widths, in Shed clocks, and the phase currents (R133). -/
opaque busCurrent : Nat × Nat × Nat → Int × Int × Int → Int

/-- Free (log entry 6): the 24-bit input of loop SPD from a speed error in 1/16 rpm (R125 gives no scale). -/
opaque spdScale : Rat → Int

/-- Free (log entry 6): the 24-bit input of loop VB from a bus error in mV (R125 gives no scale). -/
opaque vbScale : Int → Int

/-- Free (log entry 6): the rate, in 1/16 rpm/s², at which the Treadle changes the acceleration of the speed reference, from the reference, its
acceleration and its goal (R133 gives the limits and not the course). -/
opaque speedJerk : Rat → Rat → Rat → Rat

/-- Free (log entry 6): the rate at which that acceleration is reduced while the bus current is at IBUS_MAX. -/
opaque busBack : Rat → Rat

/-- Free (log entry 6): whether a V–W lag counts as one third of its period; R136 gives no tolerance. -/
opaque lagThird : Nat → Nat → Bool

/-- Free (log entry 7): which item of the control-law engine's coefficients a CADDR of a layout names: the loop, stage and item.
R154 says that the memory is written through the CLE registers and not how it is laid out. -/
opaque coefItem : Nat → Nat → Fin 4 × Fin 12 × Fin 6

/-- Free (log entry 7): the loop that a BYPCK or SAT word of a store at an address concerns; R155 names the bit only. -/
opaque wordLoop : Nat → Nat → Fin 4

/-- Free (log entry 10): where intake looks first for a free context; R194 gives a free list and not its order. -/
opaque ctxStart : Nat → Nat

/-- Free (log entry 10): the list link of a context, by how many contexts have been taken and its number; R194 names the field and not how the free
list and the queues are linked. -/
opaque ctxLink : Nat → Nat → Nat

/-- Free (log entry 48): the OUTCOME byte of a sector descriptor for a sector that was never framed, by actuator, cylinder and slot; R188 gives it
the framing outcome of R85, which a write has none of. -/
opaque unframedOutcome : Nat → Nat → Nat → Nat

/-- Free (log entry 11): the parameter bytes of a log page, and the body of VPD page 0xC1, from the numbers they report; the
spec names what these pages hold and not where each number stands. The arguments are page, subpage and the numbers. -/
opaque pageBytes : Nat → Nat → List Nat → List Byte

/-- Free (log entry 11): the VERSION byte of the standard INQUIRY data. -/
opaque inqVersion : Byte

/-- Free (log entry 12): what READ BUFFER mode 0x02 returns; no command the part accepts writes that buffer. -/
opaque readBufferByte : Nat → Byte

/-- Free (log entry 13): whether a FORMAT UNIT header with protection asks for the 64-bit guard; the standard's fields that R178
names select the type only. -/
opaque formatGuard64 : List Byte → Bool

/-- Free (log entry 19): whether an access cost that is no whole number of nanoseconds rounds up; R220 computes it to 1 ns. -/
opaque costRoundUp : Int → Nat → Bool

/-- Free (log entry 17): sense key, additional code and qualifier of the informational exception that a source reports at Degrade or
above; R331 says that one is reported and not which. -/
opaque degradeSense : Nat → Nat × Nat × Nat

/-- Free (log entry 20): the offset, from the start of the record or of the image, of the first failing check of a refusal code in a
record; R356 reports it and places it for a CRC and a signature only. -/
opaque errOffset : Nat → Nat → Nat

/-- Free (log entry 21): whether the mean of a unit's reference pairs that is no whole register unit is shown rounded up; R402 gives
the mean and no rounding. -/
opaque refRoundUp : Int → Nat → Bool

/-- Free (log entry 21): which of the cylinder differences that are equally frequent R406's "most frequent difference" is; R406 gives none. -/
opaque modeTie : List Int → Nat

/-- Free (log entry 15): what the die temperature sensor reads at a time, in °C. -/
opaque dieTemp : Nat → Int

/-- Free (log entry 15): what the HBM3 stack reports as its temperature at a time, in °C. -/
opaque hbmTemp : Nat → Byte

/-- Free (log entry 22): whether a register write that a message makes lands while the loop it concerns is computing (R104). -/
opaque cleBusy : Nat → Bool

/-- Free (log entry 47): the bits that the read-backs of R159 find wrong in the banks that a rise of PG_MOT writes. -/
opaque bankReads : Nat → List BankCheck

/-- Free (log entry 23): the endpoint's UUID; R381 names the command that reports it and no value. -/
opaque uuid : Nat → Byte

/-- Free (log entry 23): the version entries that Get MCTP Version Support reports for a message type. -/
opaque mctpVersions : Byte → List Byte

/-- Free (log entry 23): what a PLDM base discovery command returns; R391 names the commands and no contents. -/
opaque pldmDiscovery : Byte → List Byte

end Sys2Proof.Config
end

