-- ==== Sys2Proof/Machine/RegBase.lean ====
section
/-! DEFINITION. Sparse tables in one canonical form (registers, HBM3 bytes, flash bytes), and the shape of a
register table's row. -/

namespace Sys2Proof.Machine

/-- The value at key `k` of a sparse table; an unlisted key reads as `d`. -/
def sget {α : Type} (d : α) : List (Nat × α) → Nat → α
  | [], _ => d
  | (k', v) :: t, k => if k' = k then v else sget d t k

/-- Write `v` at key `k`, keeping the keys strictly rising and no entry equal to the default `d`. -/
def sset {α : Type} [DecidableEq α] (d : α) : List (Nat × α) → Nat → α → List (Nat × α)
  | [], k, v => if v = d then [] else [(k, v)]
  | (k', v') :: t, k, v =>
    if k < k' then (if v = d then (k', v') :: t else (k, v) :: (k', v') :: t)
    else if k = k' then (if v = d then t else (k, v) :: t)
    else (k', v') :: sset d t k v

/-- Every key of the table lies above `b`, keys rise strictly, and no entry holds the default. -/
def swfAbove {α : Type} [DecidableEq α] (d : α) : Nat → List (Nat × α) → Bool
  | _, [] => true
  | b, (k, v) :: t => decide (b ≤ k) && decide (v ≠ d) && swfAbove d (k + 1) t

/-- The canonical form of a sparse table. -/
def swf {α : Type} [DecidableEq α] (d : α) (m : List (Nat × α)) : Bool := swfAbove d 0 m

/-- Drop every entry whose key satisfies `p` (the table then reads the default there). -/
def sdrop {α : Type} (p : Nat → Bool) (m : List (Nat × α)) : List (Nat × α) := m.filter (fun e => !p e.1)

/-- The access codes of R4. -/
inductive Access | ro | rw | wo | w1c | w1s | rc | rwk
  deriving DecidableEq, Repr

/-- The reset domains of R370, as far as registers lie in them. `glb` is the Global block and the
recorder's counters, which no reset but power-on clears. -/
inductive Domain | glb | key | loom | harness | motion
  deriving DecidableEq, Repr

/-- A field's bit range `[hi:lo]`. -/
structure Fld where
  hi : Nat
  lo : Nat
  deriving DecidableEq, Repr

/-- A field of a register table: its bits, its access code, and whether its Reset column reads
"from image" (or names a rule) in place of a number. -/
structure FldDesc where
  hi : Nat
  lo : Nat
  acc : Access
  img : Bool
  deriving DecidableEq, Repr

/-- A row of the register index of R422: instances of the block lie 0x1_0000 apart, replicas inside a block `stride` apart. -/
structure RegDesc where
  name : String
  base : Nat
  blocks : Nat
  stride : Nat
  count : Nat
  dom : Domain
  fields : List FldDesc
  deriving DecidableEq, Repr

/-- The mask of a field's bits, placed. -/
def Fld.mask (f : Fld) : Nat := (2 ^ (f.hi + 1 - f.lo) - 1) * 2 ^ f.lo

/-- Read a field of a register's value. -/
def Fld.get (f : Fld) (w : Word) : Nat := w.toNat / 2 ^ f.lo % 2 ^ (f.hi + 1 - f.lo)

/-- Replace a field of a register's value; the value is taken modulo the field's width. -/
def Fld.set (f : Fld) (w : Word) (v : Nat) : Word :=
  BitVec.ofNat 32 (w.toNat - f.get w * 2 ^ f.lo + v % 2 ^ (f.hi + 1 - f.lo) * 2 ^ f.lo)

/-- The largest value a field holds. -/
def Fld.max (f : Fld) : Nat := 2 ^ (f.hi + 1 - f.lo) - 1

/-- The key under which the register table keeps instance `i` of a register that a selection register
governs (R423): its address, above the 16 MiB space, in a page of its own for each item. -/
def bank (i addr : Nat) : Nat := 0x1000000 * (i + 1) + addr

/-- The address inside the 16 MiB space that a key stands for. -/
def keyAddr (k : Nat) : Nat := k % 0x1000000

end Sys2Proof.Machine
end

