-- ==== Sys2Proof/Machine/Units.lean ====
section
/-! DEFINITION. The state of the units of the Fibre, Pick and Shed levels: the channels, the actuator and
spindle control units, their control-law engines. State that a register shows and nothing else uses lives in the
register table of State; what stands here is the state the spec gives these units beside their registers. -/

namespace Sys2Proof.Machine

/-! ### The control-law engine (R98, R101 to R104, R125) -/

/-- A stage: five mantissas, the shared exponent, and the delay lines of R101. -/
structure Stage where
  b0 : Int
  b1 : Int
  b2 : Int
  a1 : Int
  a2 : Int
  ex : Int
  x1 : Int
  x2 : Int
  y1 : Int
  y2 : Int
  deriving DecidableEq, Repr

/-- A write of R104 that has landed and is not yet applied. -/
inductive CleWrite
  | item (stage : Nat) (item : Nat) (value : Int)
  | bypass (mask : BitVec 12)
  deriving DecidableEq, Repr

/-- A loop: stages in use (R103), its twelve stages, the bypass bits, the saturation bits of CLE_SAT, and the
writes that are pending. -/
structure Loop where
  nstage : Nat
  stages : Vector Stage 12
  bypass : BitVec 12
  stageSat : BitVec 12
  outSat : Bool
  waiting : List CleWrite
  deriving DecidableEq, Repr

/-! ### The actuator control unit (chapter 5) -/

/-- Motion states of R99, in the order of their codes. -/
inductive AcuState | ramp | loading | seek | settle | follow | lost | parking | halted
  deriving DecidableEq, Repr

/-- A Treadle profile (R106, R108): its start and target in 1/16,384 cylinder, its limits, the Shed clocks since its first wedge, and whether it
was planned from a moving reference. -/
structure Plan where
  start : Rat
  target : Rat
  vmax : Nat
  amax : Nat
  jmax : Nat
  clocks : Nat
  moving : Bool
  deriving DecidableEq, Repr

/-- A seek in progress: its command, whether this is the second attempt, its profile, whether it waits for the new head's first wedge (R106), and
whether it was reported failed (R107). -/
structure SeekRun where
  cmd : SeekCmd
  second : Bool
  plan : Plan
  waitHead : Bool
  failed : Bool
  deriving DecidableEq, Repr

/-- What ACU[a] last reported to the Harness about a seek (R107, R108). -/
inductive SeekReport | completed | failed | notReady
  deriving DecidableEq, Repr

/-- The steps of a park (R117): 1 the Treadle's profile to the outer guard, 2 the velocity loop outwards, and PARK_PUSH against the ramp's stop. -/
inductive ParkStep | plan (p : Plan) | drive
  deriving DecidableEq, Repr

/-- The state of ACU[a] beside its registers. `pesLim`, `wiCfg` and `settleCfg` are the register words in force since the last wedge;
`pos` is the last valid position and `refPos` the reference, in 1/16,384 cylinder, `refVel` and `refAcc` its velocity and acceleration in
cylinders and ms; `folWedge` says that the last wedge fell in FOLLOW, and `latchRun` counts the PWM periods of R117 step 3. -/
structure Acu where
  clocked : Bool
  state : AcuState
  head : Option (Fin 15)
  servoLock : Bool
  rdOk : Bool
  wrOk : Bool
  lastCmd : Option SeekCmd
  report : Option SeekReport
  pesLim : Word
  wiCfg : Word
  settleCfg : Word
  refPos : Rat
  refVel : Rat
  refAcc : Rat
  lastPes : Int
  pesValid : Bool
  folWedge : Bool
  pos : Rat
  posCyl : Int
  wedge : Nat
  lockRun : Nat
  missRun : Nat
  rdRun : Nat
  wrRun : Nat
  tolRun : Nat
  settleWedges : Nat
  seek : Option SeekRun
  park : Option ParkStep
  latchRun : Nat
  bemf : Rat
  lastSense : Int
  shockIn : Bool
  shockLeft : Option Nat
  shockCheck : Bool
  masatRun : Nat
  warpCause : Bool
  rotorIn : Bool
  speedIn : Bool
  speed16 : Nat
  vbus : Nat
  um : Int
  ym : Int
  curCmd : Int
  duty : Int
  gatesOn : Bool
  dacPos : BitVec 16
  dacNeg : BitVec 16
  coilR : Nat
  calWin : Option Nat
  loops : Vector Loop 4
  deriving DecidableEq, Repr

/-! ### The spindle control unit (chapter 6) -/

/-- States of R131, in the order of their codes. -/
inductive ScuState
  | stopped | detect | align | openloop | accel | run | decel | coast | zvbrake | bushold | halted
  deriving DecidableEq, Repr

/-- The spindle gates (R120, R131): off, switched by the modulator, the position pulses of R135, all low sides on, or forced low. -/
inductive Gates | off | on | pulses | zero | forced
  deriving DecidableEq, Repr

/-- Commanded widths of the three phases, in Shed clocks. -/
structure Widths where
  u : Nat
  v : Nat
  w : Nat
  deriving DecidableEq, Repr

/-- One phase's pulse as issued in a period (R120, R122, R123): the start and width of the high-side gate's, and where the low-side gate turns
off and on again, all in half clocks: the low side is on before `lowOff` and from `lowOn`. -/
structure Pulse where
  start : Nat
  width : Nat
  lowOff : Nat
  lowOn : Nat
  measured : Bool
  shifted : Bool
  deriving DecidableEq, Repr

/-- Which phase, of U, V and W. -/
inductive Phase | u | v | w
  deriving DecidableEq, Repr

/-- What follows ZVBRAKE (R137, R141): a start from rest, a stop, or a stop with a run command waiting. -/
inductive AfterZv | align | stop | stopThenRun
  deriving DecidableEq, Repr

/-- The state of SCU[h] beside its registers. Speeds are in 1/16 rpm, currents in mA, voltages in mV, angles in electrical degrees, the α–β pairs as
α and √3 β. `iLast`, `vLast` and `vbusLast` are of the last measured period (R126), `iUsed` the currents that the loops use (R124); `ended` and
`endedUnmeas` tell of the period that ended last (PWM_STAT), `issued` and `unmeas` of the one that runs; `lockLow` and `lockHigh` are the channels'
lock states as they have crossed (R12); `alignAt` counts Shed clocks in ALIGN and `olAngle` is the angle of the rotating vector (R135). -/
structure Scu where
  clocked : Bool
  state : ScuState
  gates : Gates
  dirRev : Bool
  obsLock : Bool
  inTol : Bool
  tolRun : Nat
  tries : Nat
  speed16 : Nat
  fromWarp : Bool
  obsSpeed : Int
  lastSpeed : Nat
  shortSpeed : Nat
  shortLow : Bool
  lockLow : Bool
  lockHigh : Bool
  warpLow : Option Nat
  warpHigh : Option Nat
  idxLow : Option Nat
  idxHigh : Option Nat
  refSpeed : Rat
  refAcc : Rat
  vbus : Nat
  vbusLast : Nat
  ichop : Nat
  theta : Rat
  eEst : Rat × Rat
  iLast : Rat × Rat
  iUsed : Rat × Rat
  iPhase : Int × Int × Int
  vLast : Widths
  curW : Widths
  next : Widths
  issued : Pulse × Pulse × Pulse
  unmeas : Bool
  ended : Pulse × Pulse × Pulse
  endedUnmeas : Bool
  carry : Option (Phase × Nat)
  dtPeriods : Nat
  goodRun : Nat
  badRes : Nat
  badSpeed : Nat
  lossPending : Bool
  rotor : Bool
  catching : Bool
  catchFails : Nat
  startFails : Nat
  measuring : Bool
  fromBushold : Bool
  afterZv : AfterZv
  coastToZv : Bool
  tryWait : Bool
  qCmd : Int
  chopOn : Bool
  chopAt : Nat
  chopHold : Bool
  olPeriods : Nat
  olAngle : Rat
  alignAt : Nat
  zcPeriods : Nat
  waitPlace : Bool
  loops : Vector Loop 4
  deriving DecidableEq, Repr

/-! ### The channel (chapters 3 and 4) -/

/-- The marks that travel with a sector beside its framing outcome (R50, R53, R55). -/
structure SectorMarks where
  paFault : Bool
  warpErr : Bool
  holdover : Bool
  deriving DecidableEq, Repr

/-- A candidate record (R78): the offsets in record order, the mode and the overflow flag. -/
structure CandRecord where
  cands : List Int
  best : Bool
  overflow : Bool
  deriving DecidableEq, Repr

/-- A sector in progress on the channel: its slot, whether it is written, the settings latched at its preamble
(R28, R72, R87), where it stands at a split (R35: 0 in its first part, 1 over the servo span, 2 in its second part), and for a read the mark
selected so far with its distance and the marks set so far. `seq` tells two readings of one slot apart. -/
structure SectorRun where
  seq : Nat
  slot : Nat
  write : Bool
  zone : Nat
  iterMax : Nat
  iterRetry : Nat
  part : Nat
  skew : Word
  precomp : Word
  best : Bool
  win : Nat
  thr : Nat
  selected : Option (Int × Nat)
  record : Option CandRecord
  marks : SectorMarks
  deriving DecidableEq, Repr

/-- A slot whose samples the Reed buffer holds (R68), or whose decode is under way: the settings latched for it, the front-end values that
the in-line channel held for it and those calibrated for it (R70), and its raw samples. -/
structure ReedSlot where
  seq : Nat
  slot : Nat
  zone : Nat
  iterMax : Nat
  iterRetry : Nat
  adapted : FrontEnd
  calibrated : FrontEnd
  samples : List (BitVec 6)
  framedAt : Int
  framedDist : Nat
  record : CandRecord
  marks : SectorMarks
  deriving DecidableEq, Repr

/-- A decoded sector in the output buffer, with its slot tag, framing outcome (R85) and marks, and whether a retry decoder recovered
it only in its second pass (R204). -/
structure DecodedSector where
  slot : Nat
  field : List Byte
  outcome : Nat
  marks : SectorMarks
  second : Bool
  deriving DecidableEq, Repr

/-- A sector that failed: its slot tag, why (6 unrecoverable, 7 a revolution retry, 8 misdirected, 9 its tag, 10 a lost write), the
framing outcome of R85 and the marks. -/
structure FailedSector where
  slot : Nat
  why : Nat
  outcome : Nat
  marks : SectorMarks
  deriving DecidableEq, Repr

/-- A protected field in the staging buffer (R13). -/
structure StagedField where
  slot : Nat
  complete : Bool
  field : List Byte
  deriving DecidableEq, Repr

/-- A media pass (R57, R222) on the track under the head: the direction, the track's number in the pass, and the slots
still to run, in the order they pass, and whether its first slot has come up. A slot is tagged with its track: track × 2,048 + slot. -/
structure ChanPass where
  write : Bool
  track : Nat
  slots : List Nat
  begun : Bool
  deriving DecidableEq, Repr

/-- Where the preamplifier link stands (R47 to R49): free, or sending the frames of a script or one frame of a management access. -/
inductive LinkUse | free | script (k : ScriptKind) (frames : List (BitVec 16)) | management (frame : BitVec 16)
  deriving DecidableEq, Repr

/-- The warp PLL (R51, R54): the oscillator's phase in warp cycles and the integrator of its loop in warp cycles per cycle; the run of cycles
within ±1/16, up to 64, and whether it has reached 64 since lock was last lost; the consecutive GOOD marks since, up to two; the run of cycles
beyond ±1/8, up to 256. -/
structure WarpPll where
  phase : Rat
  freq : Rat
  tolRun : Nat
  tolMet : Bool
  lockMarks : Nat
  badRun : Nat
  deriving DecidableEq, Repr

/-- What the channel writes in one frame (R21, R22, R58): the frame, where in it the write gate opens, in 1/64 warp cycle from the start of the
warp frame (R27, R56), and the bytes over which it stays open. -/
structure FrameBytes where
  frame : Nat
  start : Int
  bytes : List Byte
  deriving DecidableEq, Repr

/-- A slot being written: its parts, one for each frame, and the delay of each channel bit's transition in 1/64 channel bit (R59). -/
structure Written where
  slot : Nat
  parts : List FrameBytes
  delays : List (List Nat)
  deriving DecidableEq, Repr

/-- The state of channel island a beside its registers. -/
structure Chan where
  clocked : Bool
  locked : Bool
  holdover : Bool
  pll : WarpPll
  zone : Nat
  frame : Nat
  goodMarks : Nat
  badFrames : Nat
  slipFrame : Option Nat
  framingHeld : Bool
  paHeld : Bool
  head : Option (Fin 15)
  writing : Bool
  gate : Bool
  lastGate : Nat
  pass : Option ChanPass
  cur : Option SectorRun
  lastWrite : Bool
  stage : List StagedField
  decoding : List ReedSlot
  reed : List ReedSlot
  retryReq : List Nat
  out : List DecodedSector
  failed : List FailedSector
  paFault : Bool
  due : List ScriptKind
  link : LinkUse
  settling : Bool
  paWaiting : Bool
  adaptCal : Bool
  adaptReset : Bool
  adapt : FrontEnd
  atBound : BitVec 5
  retryEn : Bool
  nextSeq : Nat
  lastIter : Nat
  finalOutcome : Word
  skew : List (Nat × Word)
  skewShown : List (Nat × Word)
  written : Option Written
  deriving DecidableEq, Repr

/-- A shared retry decoder at work (R69, R70): the actuator, the slot's samples, the re-framing list with the step
of R82 at which each offset entered, whether the copy has completed, and the attempts made. -/
structure RetryJob where
  act : Fin 16
  slot : ReedSlot
  offsets : List (Int × Nat)
  copied : Bool
  attempts : Nat
  deriving DecidableEq, Repr

end Sys2Proof.Machine
end

