-- ==== Sys2Proof/Machine/Harness.lean ====
section
/-! DEFINITION. The state of the Harness and of the ports beside their registers: Jacquard stores, intake and contexts,
scheduler, Creel, Shuttle, zone table and Temple, cipher, check-value units, Heddle memories. -/

namespace Sys2Proof.Machine

/-! ### Jacquard stores (chapter 7) -/

/-- The contents of a bank (R157): version, interface and data-layout identifiers, words. -/
structure Prog where
  ver : Word
  iface : Nat
  layout : Nat
  words : List (BitVec 128)
  checks : List (BitVec 9)
  digest : List Byte
  deriving DecidableEq, Repr

/-- A store and its sequencer: the two banks, the shadow slot of the active one, whether the sequencer runs or holds, its
address, loop counter (Pick), flags, accumulator, saturation note, register file and output ports (Shed), the
datapath controls it drives, the events it has sent or, for a Shed engine, has received, and its place in an activation. -/
structure Store where
  active : Option Prog
  staging : Option Prog
  stgValid : Bool
  slot : Bool
  running : Bool
  held : Bool
  pc : Nat
  lcnt : Nat
  flags : BitVec 4
  sat : Bool
  acc : Int
  file : List (Nat × Int)
  ports : List (Nat × Int)
  out : BitVec 45
  irqs : Nat
  armed : Bool
  waitIdle : Bool
  deriving DecidableEq, Repr

/-! ### Heddle memories (chapter 16) -/

/-- The protected memories, whose words are numbered macro × 8,192 + address, the remap words after the macro's own. `damage` holds the
words that are not stored right: the 80 bits, and the content they were to hold; once that content has changed the word has been
written anew and is right. `raw` holds the content of words that no other field of the state holds. `due` lists the words whose
write-back is due, `scrub` is the next word the scrubber reads, `retired` the contexts of R327, `out` the word the last read
delivered. -/
structure Heddle where
  damage : List (Nat × BitVec 80 × BitVec 64)
  raw : List (Nat × BitVec 64)
  due : List (Nat × Nat)
  scrub : Nat
  retired : List Nat
  out : Option (BitVec 64)
  deriving DecidableEq, Repr

/-! ### Creel (chapter 11) -/

/-- A free list: its head cache, first to pop first, the bobbin at the head of the list in HBM3, and a rebuild. -/
structure Pool where
  cache : List Nat
  head : Option Nat
  rebuild : Bool
  deriving DecidableEq, Repr

/-- The Creel: pools 0 to 63 and the internal reserve as number 64, the ownership bitmap of R244, 64 bobbins a word, the words of it
that are being rebuilt, and the returns that wait to be accepted (bobbin, LU charged, whether of the reserve). -/
structure Creel where
  pools : Vector Pool 65
  owned : List (Nat × BitVec 64)
  bitmapWait : List Nat
  returns : List (Nat × Nat × Bool)
  deriving DecidableEq, Repr

/-! ### Shuttle (chapter 12) and cipher queues (chapter 14) -/

/-- A job (R249): kind, context, first block of its range and number of blocks. -/
structure Job where
  kind : JobKind
  ctx : Nat
  first : Nat
  count : Nat
  deriving DecidableEq, Repr

/-- States of a channel, in the order of SHU_CH_STAT.STATE. -/
inductive ChState | idle | run | paced | wait | halted
  deriving DecidableEq, Repr

/-- A Shuttle channel: state, job, bank and program, instruction index, cursor, loop counter, blocks left of the MOVE in
progress, failed accesses of the block in progress, whether a retry is due, the raw states of its check context
(R312), the instruction's start time, and for a media channel the time it last returned by itself (R261). -/
structure ShuCh where
  state : ChState
  job : Option Job
  bank : Bool
  prog : Nat
  pc : Nat
  cursor : Nat
  counter : Option Nat
  moving : Option Nat
  fails : Nat
  retryDue : Bool
  runRaw : BitVec 64
  startRaw : BitVec 64
  returned : Option Nat
  stopped : Bool
  deriving DecidableEq, Repr

/-- A block in an outbound buffer: context, block of the transfer, its bytes as they go on the wire, and how many are sent. -/
structure OutBlock where
  ctx : Nat
  blk : Nat
  bytes : List Byte
  sent : Nat
  deriving DecidableEq, Repr

/-- A block that waits for encryption: the actuator's slot it goes to, what its trailer says, its data and PI field. -/
structure EncItem where
  tag : Nat
  ctx : Nat
  zone : Nat
  lba : Nat
  attempt : Nat
  stamp : Nat
  lu : Nat
  pifmt : Nat
  reassigned : Bool
  fill : Bool
  data : List Byte
  pi : List Byte
  deriving DecidableEq, Repr

/-- A decrypted block that waits to be placed. -/
structure InBlock where
  ctx : Nat
  blk : Nat
  data : List Byte
  pi : List Byte
  deriving DecidableEq, Repr

/-- Data received for a burst in progress: the context, the offset of the next byte expected and the bytes not yet moved. -/
structure RxBurst where
  ctx : Nat
  lo : Nat
  hi : Nat
  next : Nat
  data : List Byte
  deriving DecidableEq, Repr

structure Shuttle where
  ch : Vector ShuCh 64
  hostQ : List Job
  overflow : List Job
  bank : Bool
  store : Vector (List (BitVec 64)) 2
  info : Vector (List (Nat × Nat)) 2
  kinds : Vector (List Nat) 2
  hostOut : Vector (List OutBlock) 2
  cipherOut : Vector (List EncItem) 16
  cipherIn : Vector (List InBlock) 16
  rx : List RxBurst
  deriving DecidableEq, Repr

/-- What a cipher core works on. -/
inductive CoreJob
  | enc (a : Act) (i : EncItem)
  | dec (a : Act) (i : DecodedSector)
  deriving DecidableEq, Repr

/-- A derived-key entry (R304): its tag, the key once derived, how many passes use it, and its place in use order. -/
structure DKey where
  lu : Nat
  zone : Nat
  label : Nat
  key : Option (List Byte)
  uses : Nat
  deriving DecidableEq, Repr

/-- The cipher: keys by LU, staged key words, derived keys in order of use (least recent first), derivations waiting,
cores, the queue served last (the encrypt queue of an actuator is its CIPHER_OUT buffer, its decrypt queue the sectors its
channel and the retry decoders deliver), a re-key in progress, key slots that wait to be cleared. -/
structure Cipher where
  keys : List (Nat × List Byte)
  staged : Vector Word 8
  derived : List DKey
  derivQ : List (Nat × Nat × Nat)
  cores : Vector (Option CoreJob) 4
  lastQ : Nat
  rekey : Option Nat
  ready : Bool
  deriving DecidableEq, Repr

/-! ### Zones and the Temple (chapter 13) -/

/-- A zone descriptor (R265) without DCHK. -/
structure ZDesc where
  cond : Nat
  ztype : Bool
  valid : Bool
  warn : Bool
  limit : Bool
  attempt : Nat
  lu : Nat
  head : Nat
  act : Nat
  wp : Nat
  rz : Nat
  mzone : Nat
  stamp : Nat
  klabel : Nat
  defIdx : Nat
  defPrim : Nat
  defGrown : Nat
  gen : Nat
  deriving DecidableEq, Repr

/-- States of a Temple entry (R280); an EVICTING entry holds the descriptor that will take its place. -/
inductive TState
  | invalid
  | filling
  | valid
  | evicting (next : Nat)
  deriving DecidableEq, Repr

/-- A Temple entry; `used` orders entries by last use; `again` says that its fill repeats one that failed DCHK (R266). -/
structure TEntry where
  g : Nat
  bytes : List Byte
  state : TState
  lock : Bool
  used : Nat
  again : Bool
  deriving DecidableEq, Repr

/-- A merging-buffer entry (R282): the bytes of the descriptor that are changed, absent where the mask bit is 0. -/
structure MBEntry where
  g : Nat
  bytes : List (Option Byte)
  deriving DecidableEq, Repr

/-- The Temple: entries, merging buffer, use order, the group being cleaned, and a maintenance operation (its OP and zone) that
waits for a fill (R287). -/
structure Temple where
  entries : Vector TEntry 48
  mb : List MBEntry
  clock : Nat
  cleaning : Option Nat
  maint : Option (Nat × Nat)
  deriving DecidableEq, Repr

/-- A primary or grown defect (R44, R278) by ordinal in the surface's slot sequence of a recording zone; a grown
defect has its spare's ordinal. -/
structure DefEntry where
  rz : Nat
  ord : Nat
  spare : Option Nat
  deriving DecidableEq, Repr

/-- The defect table of a surface in HBM3 (R278): its entries as decoded, and what its directory entry holds beside their numbers. -/
structure Surface where
  act : Nat
  head : Nat
  prim : List DefEntry
  grown : List DefEntry
  cap : Nat
  gen : Nat
  primOfs : Nat
  grownOfs : Nat
  deriving DecidableEq, Repr

/-- A descriptor save record on the medium (R274): actuator, record number, save generation, and for each of its zones the
global number and the saved bytes. -/
structure SavedRec where
  act : Nat
  rcd : Nat
  gen : Nat
  zones : List (Nat × List Byte)
  deriving DecidableEq, Repr

/-- What waits for the save of a record (R276): the context of a zone operation, a format, a sanitize or a re-key. -/
inductive SaveWait
  | ctx (c : Nat)
  deriving DecidableEq, Repr

/-- A reassignment written and not yet in the defect table (R42 steps 3 and 4): surface, recording zone, the ordinal of the slot it
replaces, the spare's ordinal, the global zone, and the context that waits. -/
structure PendGrown where
  act : Nat
  head : Nat
  rz : Nat
  ord : Nat
  spare : Nat
  zone : Nat
  ctx : Nat
  deriving DecidableEq, Repr

/-- Zones (R264 to R279): the Temple, defect tables, save records on the medium, records marked for saving, what waits for a save,
leases and saved write pointers by zone, admitted write pointers, descriptors to put back (R343), reassignments not yet in a
table, the top of the used part of the defect region (R279), the time each zone was written last, zones that a sanitize has changed and
whose save is not yet written, with the KLABEL before it (R308), and the protection formats that FORMAT UNIT has set (R181: LU, PIFMT, type). -/
structure Zones where
  temple : Temple
  surfaces : List Surface
  saved : List SavedRec
  marked : List (Nat × Nat)
  waits : List (SaveWait × Nat × Nat)
  lease : List (Nat × Nat)
  awp : List (Nat × Nat)
  savedWp : List (Nat × Nat)
  undo : List (Nat × Nat × List Byte)
  grow : List PendGrown
  defTop : Nat
  lastW : List (Nat × Nat)
  wiping : List (Nat × Nat)
  formats : List (Nat × Nat × Nat)
  deriving DecidableEq, Repr

/-! ### Ports, intake and contexts (chapters 8 and 9) -/

/-- An initiator-table entry (R172). -/
structure Initiator where
  port : Fin 2
  addr : BitVec 64
  deriving DecidableEq, Repr

/-- A unit attention condition (R177, R210). -/
structure UnitAtt where
  init : Nat
  lu : Nat
  asc : Nat
  ascq : Nat
  deriving DecidableEq, Repr

/-- Sense data before formatting (R188): key, ASC, ASCQ, INFORMATION, and the sector descriptor's bytes 2 to 11. -/
structure Sense where
  key : Nat
  asc : Nat
  ascq : Nat
  info : Option Nat
  sdesc : Option (List Byte)
  deriving DecidableEq, Repr

/-- A frame the CY816 sends on a port. -/
inductive PortMsg
  | response (init : Nat) (tag : Nat) (status : Nat) (sense : List Byte)
  | data (init : Nat) (tag : Nat) (offset : Nat) (bytes : List Byte)
  | xferRdy (init : Nat) (tag : Nat) (offset : Nat) (len : Nat)
  | tmf (init : Nat) (tag : Nat) (code : Nat)
  | openAccept (lane : Nat)
  | openReject (lane : Nat) (reason : Nat)
  | ack (init : Nat) (tag : Nat)
  deriving DecidableEq, Repr

/-- A zone segment (R194); `base` is the place of its first block in the command's chain. -/
structure Seg where
  base : Nat
  zone : Nat
  start : Nat
  count : Nat
  done : Nat
  act : Nat
  head : Nat
  passes : Nat
  deriving DecidableEq, Repr

/-- Context states of R195, in the order of their codes. -/
inductive CState | free | held | dataIn | waiting | queued | media | dataOut | responding | stopping | linger
  deriving DecidableEq, Repr

/-- A context (R194); `adm` is its place in admission order. The fields from `bobs` on beside those of R194: the chain as numbers, credits still unused, the
contexts it depends on, the blocks placed, the time it first became queued, the parameter data, the counter values taken
by segment (R272), the re-reads made of each block, how many passes in a row each slot has ended (R203), the cause of
the last pass's end, the blocks it is served from another write's bobbins (context and LBA), its own dependants of that kind,
data asked for and acknowledged, the sense it will end with once it may, whether a slot of it lies part-written, and
whether the save it waits for is done. A reassignment (class 5) has, for each block read, what its sector carried (place, STAMP,
ATTEMPT, FILL), and stands in phase 0 while it reads, 1 while it writes, 2 while the defect table is updated; `moved` holds the
places that go to a spare, with the spare's ordinal and whether the abandoned slot has still to be overwritten (R298). An internal
reassignment has port 2. A command whose response has been sent already has `response` non-empty. -/
structure Ctx where
  state : CState
  attr : TaskAttr
  heldFlag : Bool
  pinned : Bool
  abort : Bool
  lu : Nat
  port : Nat
  init : Nat
  tag : Nat
  cdb : List Byte
  lba : Nat
  nblk : Nat
  seq : Nat
  adm : Nat
  admitT : Nat
  segs : List Seg
  hostDone : Nat
  err : Option (Nat × Sense)
  prot : Nat
  pifmt : Nat
  cls : Nat
  reserve : Bool
  bobs : List Nat
  credits : Nat
  preds : List Nat
  placed : List Nat
  queuedAt : Nat
  queuedOnce : Bool
  param : List Byte
  response : List Byte
  taken : List (Nat × Nat)
  rereads : List (Nat × Nat)
  slotEnds : List (Nat × Nat)
  contd : List Nat
  pinFrom : List (Nat × Nat)
  pinCnt : Nat
  requested : Nat
  outstanding : Bool
  acked : Nat
  doom : Option Sense
  part : Bool
  saved : Bool
  phase : Nat
  srcs : List (Nat × Nat × Nat × Bool)
  moved : List (Nat × Nat × Bool)
  deriving DecidableEq, Repr

/-- A command in the admission queue (R192): its frame, its arrival time, and whether it counts in AWP. -/
structure Waiting where
  frame : CmdFrame
  arrived : Nat
  counted : Bool
  deriving DecidableEq, Repr

/-- A task management function that waits for its tasks to stop (R210). -/
structure TmfWait where
  port : Nat
  init : Nat
  tag : Nat
  tasks : List Nat
  deriving DecidableEq, Repr

/-- Who asked for the activation in progress (R212): a context, or the management path. -/
inductive ActBy | ctx (c : Nat) | mgmt
  deriving DecidableEq, Repr

structure Intake where
  ctxs : List (Nat × Ctx)
  admq : List Waiting
  uas : List UnitAtt
  exceptions : List (Nat × Sense)
  nextSeq : Nat
  actBy : Option ActBy
  armAgain : Bool
  verifyFrom : Nat
  initTab : List (Nat × Initiator)
  tmfs : List TmfWait
  sent : Vector (List PortMsg) 2
  logs : List (Nat × Nat)
  modes : List (Nat × List Byte)
  selftests : List (Nat × Nat × Nat)
  attached : Vector (BitVec 64) 8
  diagWritten : List (Nat × List Byte)
  deriving DecidableEq, Repr

/-! ### Scheduler (chapter 10) -/

/-- What a write of a defect table does (R46): an update writes both copies; a rewrite puts copy A, or copy B, in order from the other. -/
inductive TableJob | update | copyA | copyB
  deriving DecidableEq, Repr

/-- Internal work of an actuator (R227), with the time it was raised. -/
inductive Work
  | verify (cyl head frame : Nat)
  | defect (head : Nat) (job : TableJob)
  | reload (g : Nat)
  | save (rcd : Nat)
  | fill (g start : Nat)
  | cal (head zone : Nat)
  | selftest (head zone start : Nat) (ext : Bool)
  deriving DecidableEq, Repr

/-- A sector of a pass: its tag (track number in the pass × 2,048 + slot), its context and segment, the block of the
transfer, its global zone and LU-relative LBA, whether its slot is a spare, and whether the slot is only overwritten (R298). -/
structure PassBlk where
  tag : Nat
  ctx : Nat
  seg : Nat
  blk : Nat
  zone : Nat
  lba : Nat
  spare : Bool
  erase : Bool
  deriving DecidableEq, Repr

/-- What a pass does. -/
inductive PassKind
  | host
  | internal (w : Work)
  deriving DecidableEq, Repr

/-- A pass (R216, R222): kind, direction, sectors, tracks (cylinder, then the tags on it), the track under way and whether its
slots have been given to the channel, head, the LU charged, the predicted service in µs, the step of R225, the time of dispatch,
sectors written (for a self-test that reads slots again, the ordinal it goes on from), what ended it early (0 nothing, 1 PES or MISS, 2 a preamplifier fault, 3 anything else) and at which tag, zone keys
in use, the contexts whose media job has been posted, whether other work lets it run to its end (R231), and the protected fields of the system records that
it writes (R45), which its sectors name by `blk`. -/
structure SchPass where
  kind : PassKind
  write : Bool
  blks : List PassBlk
  tracks : List (Nat × List Nat)
  track : Nat
  head : Nat
  lu : Option Nat
  predicted : Nat
  access : Nat
  step : Nat
  at_ : Nat
  onTrack : Bool
  wrote : Nat
  endCause : Nat
  endTag : Nat
  keys : List (Nat × Nat × Nat)
  posted : List Nat
  firm : Bool
  recs : List (List Byte)
  deriving DecidableEq, Repr

/-- The decision engine of an actuator: the pass in progress, a read pass that has ended while sectors of it are still decoded or
placed (R249), a decision that stands, internal work pending with the time it was raised, whether a self-test segment is forced
(R231), and the last cylinder, head and direction commanded. -/
structure Sch where
  pass : Option SchPass
  tail : Option SchPass
  decided : Option SchPass
  work : List (Work × Nat)
  forced : Bool
  cyl : Nat
  head : Nat
  writing : Bool
  deriving DecidableEq, Repr

end Sys2Proof.Machine
end

