-- ==== Sys2Proof/Machine/Mgmt.lean ====
section
/-! DEFINITION. The state of the Loom's management side: faults, recorder, sessions, unit states, loader, power. -/

namespace Sys2Proof.Machine

/-- The unit a fault source concerns (R330). -/
inductive FUnit | none | lu (u : Nat) | act (a : Act) | hda (h : Hda)
  deriving DecidableEq, Repr

/-- A raise that its unit has made and the collector has not yet recorded (R338): the source, its unit, the
severity its unit applied, whether it was made while the Loom was in reset (R418), whether its local reaction has been
carried out, and whether it repeats a raise that is pending, with no reaction of its own (R340). -/
structure Raise where
  src : Nat
  unit : FUnit
  sev : Nat
  late : Bool
  reacted : Bool
  again : Bool
  deriving DecidableEq, Repr

/-- A record of the event recorder (R412): its TYPE, SEQ, TIME and PAYLOAD. -/
structure Rec where
  typ : Nat
  seq : Nat
  time : Nat
  payload : List Byte
  deriving DecidableEq, Repr

/-- A snapshot that waits or runs (R416): the FAULT record it belongs to, its profile, and the addresses the
engine took when it began. -/
structure Snap where
  rcd : Rec
  profile : Nat
  addrs : List Nat
  deriving DecidableEq, Repr

/-- An erase sector of the recorder's ring (R411) that holds a header: its number in the ring, SSEQ, FIRST, and the
records in it that carry their mark. -/
structure RingSector where
  pos : Nat
  sseq : Nat
  first : Nat
  recs : List Rec
  deriving DecidableEq, Repr

/-- The event recorder beside its registers (R410 to R421). -/
structure Recorder where
  cycles : Nat
  hours : Nat
  secs : Nat
  accepting : Bool
  nextSeq : Nat
  buf : List Rec
  lostNow : Nat
  snaps : List Snap
  running : Option Snap
  ring : List RingSector
  erasing : List Nat
  clearing : Option Nat
  maxHda : Int
  maxDie : Int
  clearGen : Nat
  deriving DecidableEq, Repr

/-- A session's roles (R383). -/
inductive Role | observer | operator | keeper
  deriving DecidableEq, Repr

/-- A session slot of PROT_SESS (R384): closed, in key exchange, or open with its role and the anchor slot matched,
and the time of its last message. -/
inductive SessPhase | closed | exchanging (mutualAuth : Bool) | opened
  deriving DecidableEq, Repr

structure Sess where
  phase : SessPhase
  role : Role
  slot : Nat
  anchored : Bool
  lastMsg : Nat
  deriving DecidableEq, Repr

/-- A drain under way (R399): the unit, the target, the time left in units of 100 ms (none: no deadline). -/
structure Drain where
  kind : UnitKind
  index : Nat
  target : Nat
  deadline : Option Nat
  started : Nat
  deriving DecidableEq, Repr

/-! ### The management endpoint (chapter 20) -/

/-- SPDM responses (R382). -/
inductive SpdmRsp
  | version
  | capabilities
  | algorithms
  | digests
  | certificate (slot offset len : Nat)
  | challengeAuth (slot : Nat) (nonce : List Byte)
  | measurements (count : Nat) (blocks : List (Nat × List Byte)) (nonce : List Byte)
  | keyExchange (session : Fin 4) (mutualAuth : Bool)
  | finish
  | heartbeatAck
  | keyUpdateAck
  | endSessionAck
  | error (code : Nat)
  deriving DecidableEq, Repr

/-- A message that the CY816 has for the management bus (R380, R381, R387, R391): an MCTP control response with its command code, an
SPDM response, a register-access response, a PLDM response with its type and command, and a PlatformEventMessage of a raise. `n` is
the session it is sent in. -/
inductive MgmtMsg
  | control (code : Nat) (data : List Byte)
  | spdm (n : Option (Fin 4)) (r : SpdmRsp)
  | regs (n : Option (Fin 4)) (data : List Byte)
  | pldm (n : Option (Fin 4)) (typ code : Nat) (data : List Byte)
  | event (src sev : Nat) (u : FUnit)
  deriving DecidableEq, Repr

/-- An irreversible PLDM command that its first arrival has armed (R391): its session, its code and argument, and when it came. -/
structure Armed where
  sess : Fin 4
  code : Nat
  arg : Nat
  at_ : Nat
  deriving DecidableEq, Repr

/-- An anchor command whose journal entry is being written (R392): the role's code, the slot, the digest (empty for a removal) and
the session. -/
structure AnchorJob where
  role : Nat
  slot : Nat
  digest : List Byte
  deriving DecidableEq, Repr

/-- The endpoint on the I3C bus (R380 to R393): its dynamic address and endpoint identifier, the message being reassembled (next
packet's sequence number and the bytes so far; none after one that is being discarded), messages received, messages ready and
messages sent, the one-time-programmable SVN_MIN and revoked keys (R350), an armed command, an anchor command in progress, and
whether the claim window is open. -/
structure Endpoint where
  dynAddr : Option (BitVec 7)
  eid : Byte
  asm : Option (Nat × List Byte)
  received : List (List Byte)
  ready : List MgmtMsg
  sent : List MgmtMsg
  svnMin : Nat
  revoked : List Nat
  armed : Option Armed
  anchorJob : Option AnchorJob
  claimOpen : Bool
  deriving DecidableEq, Repr

/-- What an entry of the run-time journal says (R361). -/
structure JEntry where
  kind : Nat
  lu : Nat
  page : Nat
  sub : Nat
  part : Nat
  parts : Nat
  seq : Nat
  data : List Byte
  deriving DecidableEq, Repr

/-- What waits until a journal entry is written (R361, R393): a MODE SELECT, an anchor command. -/
inductive JWait | ctx (c : Nat) | anchor
  deriving DecidableEq, Repr

/-- What a boot directory copy says (R348). -/
structure BootDir where
  gen : Nat
  active : Nat
  prevOk : Bool
  actVer : Nat
  prevVer : Nat
  deriving DecidableEq, Repr

/-- Why the loader runs (GLB_IMG_ERR.WHEN): power-on, activation, loader restart. -/
inductive LoadWhen | powerOn | activation | restart
  deriving DecidableEq, Repr

/-- Where the loader stands (R355); after a power-on at which no slot loads it has stopped (R356). -/
inductive LoaderPhase | idle | stopped | checking (w : LoadWhen) (slot : Nat) | applying (w : LoadWhen) (slot : Nat)
  deriving DecidableEq, Repr

/-- Who holds the staging slot (R357). -/
inductive Writer | host | pldm
  deriving DecidableEq, Repr

/-- The staging slot (R357): its holder, whether the erase is running, the next offset, the write that waits for the erase. -/
structure Staging where
  holder : Option Writer
  erasing : Bool
  next : Nat
  waiting : Option (List Byte)
  deriving DecidableEq, Repr

/-- The last-gasp record (R379), without its MAGIC and LCRC, which are computed. -/
structure LastGasp where
  fell : Nat
  first : Nat
  time : Nat
  acu : List Nat
  scu : List Nat
  writing : Nat
  deriving DecidableEq, Repr

/-- The data-path reset (R371): not in reset; qualified and finishing; in reset. -/
inductive ResetPhase | run | qualified | held
  deriving DecidableEq, Repr

/-- A motion reset of one HDA (R374): parking; held in reset. -/
inductive MotPhase | parking | held
  deriving DecidableEq, Repr

/-- A calibration run of an HDA (R403, R404): whether one is in progress, whether its SCU part is due, the entry windows still to run
on the lower and the upper actuator (head, zone), whether ABORT ended it while a window was under way, the temperature at its
start, first measurements of skew entries that jumped (actuator, head, zone, ANGLE), whether it is bring-up's, its cause, and the
operating hours when T_LAST was set. -/
structure CalRun where
  running : Bool
  scu : Bool
  left : Vector (List (Nat × Nat)) 2
  aborted : Bool
  temp : Int
  first : List (Nat × Nat × Nat × Int)
  bringup : Bool
  cause : Nat
  hours : Nat
  deriving DecidableEq, Repr

/-- A message of a crossing (R12): what the SCU sends its ACUs every PWM period; what an ACU sends its SCU at each change of motion state; the lock
state of a channel and the REFCLK count of a frame-0 mark; a seek, and the end of a seek (R107); a wedge record (R94) and a position disagreement
(R53); the IRQ of a store's word (R150, R154); and any other word, by its bits. -/
inductive XMsg
  | report (speed16 : Nat) (vbus : Nat) (inTol : Bool) (rotor : Bool)
  | motion (st : AcuState)
  | lock (locked : Bool)
  | index (count : Nat)
  | seek (c : SeekCmd)
  | seekDone (c : SeekCmd)
  | wedge (r : WedgeRecord)
  | doubt
  | irq (q : Fin 64)
  | word (bits : Nat)
  deriving DecidableEq, Repr

/-- A word of a crossing: the message it belongs to, its place in it and the message's word count (R14). -/
structure XWord where
  msg : XMsg
  idx : Nat
  total : Nat
  deriving DecidableEq, Repr

/-- One crossing's handshake FIFO (R11): the words in it, the words its source holds because it is full, the words
of a partial message at the destination, and the message the destination took last. -/
structure XFifo where
  fifo : List XWord
  held : List XWord
  partial_ : List XWord
  last : Option XMsg
  deriving DecidableEq, Repr

/-- Power, reset and start (chapter 19). `buDue` holds a start of bring-up that is due once PG_MBUS is high and the ports are up: none;
at power-on, which AUTO governs (false); after a restart, which nothing governs (true). -/
structure Power where
  released : Bool
  mainHi : Bool
  motHi : Bool
  mbusHi : Bool
  firstFell : Option Nat
  phase : ResetPhase
  sysLow : Bool
  soft : Bool
  cause : Nat
  hbmRefresh : Nat
  stbyValid : Bool
  lg : Option LastGasp
  offSecs : Nat
  mot : Vector (Option MotPhase) 8
  buRun : Vector Bool 8
  buStart : Vector Nat 8
  placed : Vector Bool 8
  tables : Vector Bool 16
  stopWait : Vector Bool 16
  hdaStop : Vector Bool 8
  buDue : Option Bool
  mbusDelay : Bool
  portsOn : Bool
  errnLow : Bool
  deriving DecidableEq, Repr

end Sys2Proof.Machine
end

