-- ==== Sys2Proof/Machine/Regs.lean ====
section
/-! DEFINITION. The register map of the part: the address of every register of the index of R422, the
bit range of every field of every register table, and the table of access codes (R4) that the generic read and
write of Ops use. Register addresses take the block instance `i` (an actuator, an HDA, a port) and then the
replication index `n`, as the index of R422 gives them. -/

namespace Sys2Proof.Machine

/-! ### Addresses (R422) -/

def Reg.GLB_ID : Nat := 0x0
def Reg.GLB_GEOM : Nat := 0x4
def Reg.GLB_ISLAND_STAT : Nat := 0x100
def Reg.GLB_WARP_LOCK : Nat := 0x104
def Reg.GLB_IMG_STAT : Nat := 0x200
def Reg.GLB_IMG_VER : Nat := 0x204
def Reg.GLB_IMG_PREV : Nat := 0x208
def Reg.GLB_IMG_ERR : Nat := 0x20c
def Reg.GLB_IMG_ERR_OFS : Nat := 0x210
def Reg.GLB_READY : Nat := 0x300
def Reg.GLB_BU_CFG : Nat := 0x304
def Reg.GLB_BU (n : Nat) : Nat := 0x320 + n * 0x4
def Reg.GLB_RST : Nat := 0x380
def Reg.GLB_RST_CAUSE : Nat := 0x384
def Reg.GLB_PWR : Nat := 0x388
def Reg.GLB_STBY_STAT : Nat := 0x390
def Reg.GLB_STBY_OFF : Nat := 0x394
def Reg.GLB_LG (n : Nat) : Nat := 0x3a0 + n * 0x4
def Reg.PROT_CFG : Nat := 0x10000
def Reg.PROT_SESS (n : Nat) : Nat := 0x10010 + n * 0x4
def Reg.PROT_ANCHOR_SEL : Nat := 0x10020
def Reg.PROT_ANCHOR_CMD : Nat := 0x10024
def Reg.PROT_ANCHOR_DIG (n : Nat) : Nat := 0x10030 + n * 0x4
def Reg.FLT_CFG : Nat := 0x20000
def Reg.FLT_ERRN : Nat := 0x20004
def Reg.FLT_SEL : Nat := 0x20010
def Reg.FLT_SEV : Nat := 0x20014
def Reg.FLT_SRC_CNT : Nat := 0x20018
def Reg.FLT_PEND (n : Nat) : Nat := 0x20020 + n * 0x4
def Reg.FLT_LAST : Nat := 0x20040
def Reg.FLT_LAST_T_LO : Nat := 0x20044
def Reg.FLT_LAST_T_HI : Nat := 0x20048
def Reg.FLT_STOP : Nat := 0x2004c
def Reg.FLT_CNT : Nat := 0x20050
def Reg.ER_STAT : Nat := 0x30000
def Reg.ER_TIME_LO : Nat := 0x30004
def Reg.ER_TIME_HI : Nat := 0x30008
def Reg.ER_CFG : Nat := 0x3000c
def Reg.ER_CLEAR : Nat := 0x30010
def Reg.ER_LOST : Nat := 0x30014
def Reg.ER_SEQ : Nat := 0x30018
def Reg.ER_RD_ADDR : Nat := 0x30020
def Reg.ER_RD_CTRL : Nat := 0x30024
def Reg.ER_RD_DATA (n : Nat) : Nat := 0x30040 + n * 0x4
def Reg.ER_HIST_SEL : Nat := 0x30100
def Reg.ER_HIST_CFG : Nat := 0x30104
def Reg.ER_HIST_BASE : Nat := 0x30108
def Reg.ER_HIST_MIN : Nat := 0x3010c
def Reg.ER_HIST_MAX : Nat := 0x30110
def Reg.ER_HIST_MAXT_LO : Nat := 0x30114
def Reg.ER_HIST_MAXT_HI : Nat := 0x30118
def Reg.ER_HIST_BIN (n : Nat) : Nat := 0x30180 + n * 0x4
def Reg.ER_PROF_SEL : Nat := 0x30200
def Reg.ER_PROF_ENTRY : Nat := 0x30204
def Reg.CAL_CFG : Nat := 0x40000
def Reg.CAL_SKEW_CFG : Nat := 0x40004
def Reg.CAL_CMD : Nat := 0x40008
def Reg.CAL_REF_STAT : Nat := 0x4000c
def Reg.CAL_HDA (n : Nat) : Nat := 0x40020 + n * 0x4
def Reg.CAL_CNT : Nat := 0x40040
def Reg.CAL_CNT2 : Nat := 0x40044
def Reg.JQ_SEL : Nat := 0x50000
def Reg.JQ_DATA0 : Nat := 0x50004
def Reg.JQ_DATA1 : Nat := 0x50008
def Reg.JQ_DATA2 : Nat := 0x5000c
def Reg.JQ_DATA3 : Nat := 0x50010
def Reg.JQ_VER_ACT : Nat := 0x50020
def Reg.JQ_VER_STG : Nat := 0x50024
def Reg.JQ_STAT : Nat := 0x50028
def Reg.JQ_ACT : Nat := 0x50030
def Reg.JQ_ECC : Nat := 0x50040
def Reg.JQ_ECC_LAST : Nat := 0x50044
def Reg.JQ_FAIL_LO : Nat := 0x50050
def Reg.JQ_FAIL_HI : Nat := 0x50054
def Reg.JQ_SWAP_LO : Nat := 0x50058
def Reg.JQ_SWAP_HI : Nat := 0x5005c
def Reg.SAS_XR_CFG (i : Nat) : Nat := 0x80000 + i * 0x10000
def Reg.SAS_ADDR_LO (i : Nat) : Nat := 0x80004 + i * 0x10000
def Reg.SAS_ADDR_HI (i : Nat) : Nat := 0x80008 + i * 0x10000
def Reg.SAS_PHY_STAT (i : Nat) (n : Nat) : Nat := 0x80010 + i * 0x10000 + n * 0x4
def Reg.SAS_CNT_OPEN (i : Nat) : Nat := 0x80020 + i * 0x10000
def Reg.SAS_CNT_XFER (i : Nat) : Nat := 0x80024 + i * 0x10000
def Reg.INT_CFG : Nat := 0xa0000
def Reg.INT_ACT_CFG : Nat := 0xa0004
def Reg.INT_LU_SEL : Nat := 0xa0010
def Reg.INT_LU_BOB : Nat := 0xa0014
def Reg.INT_LU_CTX : Nat := 0xa0018
def Reg.INT_LU_USE_BOB : Nat := 0xa001c
def Reg.INT_LU_USE_CTX : Nat := 0xa0020
def Reg.INT_STAT : Nat := 0xa0030
def Reg.INT_ACT_STAT : Nat := 0xa0034
def Reg.INT_CTX_FMT : Nat := 0xa0038
def Reg.INT_CNT_ADMIT : Nat := 0xa0040
def Reg.INT_CNT_REFUSE : Nat := 0xa0044
def Reg.INT_CNT_WAIT : Nat := 0xa0048
def Reg.INT_CNT_MEDIA : Nat := 0xa004c
def Reg.INT_CNT_PIN : Nat := 0xa0050
def Reg.INT_CTX_SEL : Nat := 0xa0100
def Reg.INT_CTX_DATA (n : Nat) : Nat := 0xa0104 + n * 0x4
def Reg.SCH_ACT_STAT (n : Nat) : Nat := 0xc0100 + n * 0x10
def Reg.SCH_ACT_AGE (n : Nat) : Nat := 0xc0104 + n * 0x10
def Reg.SCH_ACT_WORK (n : Nat) : Nat := 0xc0108 + n * 0x10
def Reg.SCH_ACT_CNT (n : Nat) : Nat := 0xc010c + n * 0x10
def Reg.SCH_CFG : Nat := 0xc0000
def Reg.SCH_CFG2 : Nat := 0xc0004
def Reg.SCH_BG_CFG : Nat := 0xc0008
def Reg.SCH_LU_SEL : Nat := 0xc0010
def Reg.SCH_LU_WT : Nat := 0xc0014
def Reg.SCH_LU_DEF : Nat := 0xc0018
def Reg.SCH_CNT_DISP : Nat := 0xc0020
def Reg.SCH_CNT_DEF : Nat := 0xc0024
def Reg.CREEL_STAT : Nat := 0xd0000
def Reg.CREEL_RES : Nat := 0xd0004
def Reg.CREEL_HBM : Nat := 0xd0008
def Reg.CREEL_POOL_SEL : Nat := 0xd0010
def Reg.CREEL_POOL_BASE : Nat := 0xd0014
def Reg.CREEL_POOL_SIZE : Nat := 0xd0018
def Reg.CREEL_POOL_FREE : Nat := 0xd001c
def Reg.CREEL_POOL_CREDIT : Nat := 0xd0020
def Reg.CREEL_POOL_PIN : Nat := 0xd0024
def Reg.CREEL_POOL_PEAK : Nat := 0xd0028
def Reg.CREEL_POOL_CNT : Nat := 0xd002c
def Reg.CREEL_POOL_CNT2 : Nat := 0xd0030
def Reg.CREEL_CHK : Nat := 0xd0040
def Reg.CREEL_CHK_ADDR : Nat := 0xd0044
def Reg.CREEL_CNT_CHK : Nat := 0xd0048
def Reg.CREEL_PRIO : Nat := 0xd004c
def Reg.SHU_CFG : Nat := 0xe0000
def Reg.SHU_PACE_HO : Nat := 0xe0004
def Reg.SHU_PACE_CO : Nat := 0xe0008
def Reg.SHU_JOBQ : Nat := 0xe000c
def Reg.SHU_CH_SEL : Nat := 0xe0010
def Reg.SHU_CH_STAT : Nat := 0xe0014
def Reg.SHU_CH_ERR : Nat := 0xe0018
def Reg.SHU_CH_CTRL : Nat := 0xe001c
def Reg.SHU_HALT_LO : Nat := 0xe0020
def Reg.SHU_HALT_HI : Nat := 0xe0024
def Reg.SHU_CNT_ERR : Nat := 0xe0030
def Reg.SHU_CNT_JOB : Nat := 0xe0034
def Reg.SHU_CNT_PACE : Nat := 0xe0038
def Reg.SHU_PROG_SEL : Nat := 0xe0040
def Reg.SHU_PROG_INFO : Nat := 0xe0044
def Reg.SHU_KIND : Nat := 0xe0048
def Reg.ZT_SEL : Nat := 0xf0000
def Reg.ZT_DESC (n : Nat) : Nat := 0xf0004 + n * 0x4
def Reg.TMP_MAINT : Nat := 0xf0040
def Reg.TMP_MAINT_ADDR : Nat := 0xf0044
def Reg.TMP_STAT : Nat := 0xf0048
def Reg.ZT_SAVE : Nat := 0xf004c
def Reg.TMP_CNT_HIT : Nat := 0xf0050
def Reg.TMP_CNT_MISS : Nat := 0xf0054
def Reg.TMP_CNT_MB : Nat := 0xf0058
def Reg.TMP_CNT_ERR : Nat := 0xf005c
def Reg.CIP_STAT : Nat := 0x100000
def Reg.CIP_KEY_SEL : Nat := 0x100010
def Reg.CIP_KEY_CMD : Nat := 0x100014
def Reg.CIP_KEY_STAT : Nat := 0x100018
def Reg.CIP_KEY_DATA (n : Nat) : Nat := 0x100020 + n * 0x4
def Reg.CIP_REKEY_ADDR : Nat := 0x100040
def Reg.CIP_REKEY_CMD : Nat := 0x100044
def Reg.CIP_CNT_ENC : Nat := 0x100060
def Reg.CIP_CNT_DEC : Nat := 0x100064
def Reg.CIP_CNT_FAIL : Nat := 0x100068
def Reg.CIP_CNT_DK : Nat := 0x10006c
def Reg.CIP_CNT_NONCE : Nat := 0x100070
def Reg.CV_CFG (n : Nat) : Nat := 0x110000 + n * 0x40
def Reg.CV_POLY_LO (n : Nat) : Nat := 0x110004 + n * 0x40
def Reg.CV_POLY_HI (n : Nat) : Nat := 0x110008 + n * 0x40
def Reg.CV_INIT_LO (n : Nat) : Nat := 0x11000c + n * 0x40
def Reg.CV_INIT_HI (n : Nat) : Nat := 0x110010 + n * 0x40
def Reg.CV_XOR_LO (n : Nat) : Nat := 0x110014 + n * 0x40
def Reg.CV_XOR_HI (n : Nat) : Nat := 0x110018 + n * 0x40
def Reg.CV_FEED (n : Nat) : Nat := 0x11001c + n * 0x40
def Reg.CV_CTRL (n : Nat) : Nat := 0x110020 + n * 0x40
def Reg.CV_RUN_LO (n : Nat) : Nat := 0x110024 + n * 0x40
def Reg.CV_RUN_HI (n : Nat) : Nat := 0x110028 + n * 0x40
def Reg.CV_RESULT_LO (n : Nat) : Nat := 0x11002c + n * 0x40
def Reg.CV_RESULT_HI (n : Nat) : Nat := 0x110030 + n * 0x40
def Reg.CV_COUNT (n : Nat) : Nat := 0x110034 + n * 0x40
def Reg.CV_CNT_ICRC : Nat := 0x110200
def Reg.CV_CNT_STAMP : Nat := 0x110204
def Reg.HED_SCRUB : Nat := 0x120000
def Reg.HED_STAT : Nat := 0x120004
def Reg.HED_ERR_LAST : Nat := 0x120008
def Reg.HED_CNT : Nat := 0x12000c
def Reg.HED_MACRO_SEL : Nat := 0x120020
def Reg.HED_REMAP (n : Nat) : Nat := 0x120024 + n * 0x4
def Reg.HED_TEST_ADDR : Nat := 0x120050
def Reg.HED_TEST_CMD : Nat := 0x120054
def Reg.HED_TEST_DATA_LO : Nat := 0x120058
def Reg.HED_TEST_DATA_HI : Nat := 0x12005c
def Reg.HED_FLIP_LO : Nat := 0x120060
def Reg.HED_FLIP_HI : Nat := 0x120064
def Reg.HED_TEST_CHK : Nat := 0x120068
def Reg.ACU_MOTION (i : Nat) : Nat := 0x200000 + i * 0x10000
def Reg.ACU_POS (i : Nat) : Nat := 0x200004 + i * 0x10000
def Reg.ACU_PES (i : Nat) : Nat := 0x200008 + i * 0x10000
def Reg.ACU_PES_LIM (i : Nat) : Nat := 0x200010 + i * 0x10000
def Reg.ACU_WI_CFG (i : Nat) : Nat := 0x200014 + i * 0x10000
def Reg.ACU_WI_STAT (i : Nat) : Nat := 0x200018 + i * 0x10000
def Reg.ACU_SETTLE_CFG (i : Nat) : Nat := 0x20001c + i * 0x10000
def Reg.ACU_TRD_VMAX (i : Nat) : Nat := 0x200020 + i * 0x10000
def Reg.ACU_TRD_AMAX (i : Nat) : Nat := 0x200024 + i * 0x10000
def Reg.ACU_TRD_JMAX (i : Nat) : Nat := 0x200028 + i * 0x10000
def Reg.ACU_PARK_CTRL (i : Nat) : Nat := 0x200030 + i * 0x10000
def Reg.ACU_CNT_SERVO (i : Nat) : Nat := 0x200040 + i * 0x10000
def Reg.ACU_CNT_WI (i : Nat) : Nat := 0x200044 + i * 0x10000
def Reg.ACU_CNT_SEEK (i : Nat) : Nat := 0x200048 + i * 0x10000
def Reg.ACU_CLE_SEL (i : Nat) : Nat := 0x200100 + i * 0x10000
def Reg.ACU_CLE_DATA (i : Nat) : Nat := 0x200104 + i * 0x10000
def Reg.ACU_CLE_CTRL (i : Nat) : Nat := 0x200108 + i * 0x10000
def Reg.ACU_CLE_SAT (i : Nat) : Nat := 0x20010c + i * 0x10000
def Reg.ACU_CH_CTRL (i : Nat) : Nat := 0x200200 + i * 0x10000
def Reg.ACU_CH_STAT (i : Nat) : Nat := 0x200204 + i * 0x10000
def Reg.ACU_PRECOMP_SEL (i : Nat) : Nat := 0x200208 + i * 0x10000
def Reg.ACU_PRECOMP_DATA (i : Nat) : Nat := 0x20020c + i * 0x10000
def Reg.ACU_PA_ACC (i : Nat) : Nat := 0x200210 + i * 0x10000
def Reg.ACU_CNT_SECT (i : Nat) : Nat := 0x200220 + i * 0x10000
def Reg.ACU_CNT_RETRY (i : Nat) : Nat := 0x200224 + i * 0x10000
def Reg.ACU_CNT_RETRY_OK (i : Nat) : Nat := 0x200228 + i * 0x10000
def Reg.ACU_CNT_REV (i : Nat) : Nat := 0x20022c + i * 0x10000
def Reg.ACU_CNT_MISCORR (i : Nat) : Nat := 0x200230 + i * 0x10000
def Reg.ACU_CNT_STARVE (i : Nat) : Nat := 0x200234 + i * 0x10000
def Reg.ACU_CNT_WARP (i : Nat) : Nat := 0x200238 + i * 0x10000
def Reg.ACU_CNT_ADAPT (i : Nat) : Nat := 0x20023c + i * 0x10000
def Reg.ACU_FR_SEL (i : Nat) : Nat := 0x200280 + i * 0x10000
def Reg.ACU_FR_CFG (i : Nat) : Nat := 0x200284 + i * 0x10000
def Reg.ACU_FR_LAST (i : Nat) : Nat := 0x200288 + i * 0x10000
def Reg.ACU_CNT_FR_NOMARK (i : Nat) : Nat := 0x200290 + i * 0x10000
def Reg.ACU_CNT_FR_MULTI (i : Nat) : Nat := 0x200294 + i * 0x10000
def Reg.ACU_CNT_FR_ALT (i : Nat) : Nat := 0x200298 + i * 0x10000
def Reg.ACU_CNT_FR_SHIFT (i : Nat) : Nat := 0x20029c + i * 0x10000
def Reg.ACU_CNT_FR_NEAR (i : Nat) : Nat := 0x2002a0 + i * 0x10000
def Reg.ACU_SKEW_SEL (i : Nat) : Nat := 0x200300 + i * 0x10000
def Reg.ACU_SKEW_DATA (i : Nat) : Nat := 0x200304 + i * 0x10000
def Reg.SCU_SPIN (i : Nat) : Nat := 0x300000 + i * 0x10000
def Reg.SCU_SPEED (i : Nat) : Nat := 0x300004 + i * 0x10000
def Reg.SCU_BUS (i : Nat) : Nat := 0x300008 + i * 0x10000
def Reg.SCU_CTRL (i : Nat) : Nat := 0x300010 + i * 0x10000
def Reg.SCU_OBS_CFG (i : Nat) : Nat := 0x300014 + i * 0x10000
def Reg.SCU_CHOP (i : Nat) : Nat := 0x300018 + i * 0x10000
def Reg.SCU_PWM_STAT (i : Nat) : Nat := 0x30001c + i * 0x10000
def Reg.SCU_CNT_LOSS (i : Nat) : Nat := 0x300040 + i * 0x10000
def Reg.SCU_CNT_PWM (i : Nat) : Nat := 0x300044 + i * 0x10000
def Reg.SCU_CNT_CHOP (i : Nat) : Nat := 0x300048 + i * 0x10000
def Reg.SCU_CNT_START (i : Nat) : Nat := 0x30004c + i * 0x10000
def Reg.SCU_CLE_SEL (i : Nat) : Nat := 0x300100 + i * 0x10000
def Reg.SCU_CLE_DATA (i : Nat) : Nat := 0x300104 + i * 0x10000
def Reg.SCU_CLE_CTRL (i : Nat) : Nat := 0x300108 + i * 0x10000
def Reg.SCU_CLE_SAT (i : Nat) : Nat := 0x30010c + i * 0x10000
def Reg.UST_LU (n : Nat) : Nat := 0x400000 + n * 0x4
def Reg.UST_ACT (n : Nat) : Nat := 0x400400 + n * 0x4
def Reg.UST_HDA (n : Nat) : Nat := 0x400440 + n * 0x4
def Reg.UST_SEL : Nat := 0x400480
def Reg.UST_DRAIN : Nat := 0x400484
def Reg.UST_CNT : Nat := 0x400490

/-! ### Fields (the register tables of the chapters) -/

def Fld.GLB_ID_PART : Fld := ⟨15, 0⟩
def Fld.GLB_ID_STEPPING : Fld := ⟨23, 16⟩
def Fld.GLB_ID_FAMILY : Fld := ⟨31, 24⟩
def Fld.GLB_GEOM_HDA : Fld := ⟨7, 0⟩
def Fld.GLB_GEOM_ACT : Fld := ⟨23, 8⟩
def Fld.GLB_ISLAND_STAT_HARNESS_LOCK : Fld := ⟨0, 0⟩
def Fld.GLB_ISLAND_STAT_SHED_LOCK : Fld := ⟨1, 1⟩
def Fld.GLB_ISLAND_STAT_HBM_LOCK : Fld := ⟨2, 2⟩
def Fld.GLB_ISLAND_STAT_SAS0_LOCK : Fld := ⟨3, 3⟩
def Fld.GLB_ISLAND_STAT_SAS1_LOCK : Fld := ⟨4, 4⟩
def Fld.GLB_ISLAND_STAT_SCU_RUN : Fld := ⟨15, 8⟩
def Fld.GLB_ISLAND_STAT_ACU_RUN : Fld := ⟨31, 16⟩
def Fld.GLB_WARP_LOCK_LOCK : Fld := ⟨15, 0⟩
def Fld.GLB_WARP_LOCK_HOLDOVER : Fld := ⟨31, 16⟩
def Fld.GLB_IMG_STAT_LOADED : Fld := ⟨0, 0⟩
def Fld.GLB_IMG_STAT_SLOT : Fld := ⟨1, 1⟩
def Fld.GLB_IMG_STAT_FALLBACK : Fld := ⟨2, 2⟩
def Fld.GLB_IMG_STAT_DIR_PEND : Fld := ⟨3, 3⟩
def Fld.GLB_IMG_STAT_STG_BUSY : Fld := ⟨4, 4⟩
def Fld.GLB_IMG_STAT_RT_RESET : Fld := ⟨5, 5⟩
def Fld.GLB_IMG_VER_VERSION : Fld := ⟨31, 0⟩
def Fld.GLB_IMG_PREV_VERSION : Fld := ⟨31, 0⟩
def Fld.GLB_IMG_ERR_CODE : Fld := ⟨3, 0⟩
def Fld.GLB_IMG_ERR_REC : Fld := ⟨19, 4⟩
def Fld.GLB_IMG_ERR_WHEN : Fld := ⟨21, 20⟩
def Fld.GLB_IMG_ERR_OFS_OFFSET : Fld := ⟨31, 0⟩
def Fld.GLB_READY_MGMT : Fld := ⟨0, 0⟩
def Fld.GLB_READY_CLOCKS : Fld := ⟨1, 1⟩
def Fld.GLB_READY_HBM : Fld := ⟨2, 2⟩
def Fld.GLB_READY_IMAGE : Fld := ⟨3, 3⟩
def Fld.GLB_READY_CREEL : Fld := ⟨4, 4⟩
def Fld.GLB_READY_CIPHER : Fld := ⟨5, 5⟩
def Fld.GLB_READY_SAS0 : Fld := ⟨6, 6⟩
def Fld.GLB_READY_SAS1 : Fld := ⟨7, 7⟩
def Fld.GLB_READY_HDA : Fld := ⟨23, 16⟩
def Fld.GLB_BU_CFG_AUTO : Fld := ⟨0, 0⟩
def Fld.GLB_BU_CFG_STAGGER_N : Fld := ⟨4, 1⟩
def Fld.GLB_BU_CFG_START : Fld := ⟨8, 8⟩
def Fld.GLB_BU_CFG_HDA_MASK : Fld := ⟨23, 16⟩
def Fld.GLB_BU_SPIN : Fld := ⟨3, 0⟩
def Fld.GLB_BU_LO_PHASE : Fld := ⟨7, 4⟩
def Fld.GLB_BU_HI_PHASE : Fld := ⟨11, 8⟩
def Fld.GLB_BU_RESTARTS : Fld := ⟨15, 12⟩
def Fld.GLB_BU_ELAPSED : Fld := ⟨31, 16⟩
def Fld.GLB_RST_SOFT : Fld := ⟨0, 0⟩
def Fld.GLB_RST_MOT_HDA : Fld := ⟨15, 8⟩
def Fld.GLB_RST_MOT_GO : Fld := ⟨16, 16⟩
def Fld.GLB_RST_MOT_BUSY : Fld := ⟨17, 17⟩
def Fld.GLB_RST_MOT_RESULT : Fld := ⟨19, 18⟩
def Fld.GLB_RST_CAUSE_LAST : Fld := ⟨1, 0⟩
def Fld.GLB_RST_CAUSE_MOT_DONE : Fld := ⟨15, 8⟩
def Fld.GLB_RST_CAUSE_COUNT : Fld := ⟨31, 16⟩
def Fld.GLB_PWR_MBUS : Fld := ⟨0, 0⟩
def Fld.GLB_PWR_MBUS_LOST : Fld := ⟨1, 1⟩
def Fld.GLB_PWR_MOT : Fld := ⟨2, 2⟩
def Fld.GLB_PWR_MOT_LOST : Fld := ⟨3, 3⟩
def Fld.GLB_STBY_STAT_VALID : Fld := ⟨0, 0⟩
def Fld.GLB_STBY_STAT_LG_VALID : Fld := ⟨1, 1⟩
def Fld.GLB_STBY_OFF_SECONDS : Fld := ⟨31, 0⟩
def Fld.GLB_LG_BYTES : Fld := ⟨31, 0⟩
def Fld.PROT_CFG_HB_PERIOD : Fld := ⟨7, 0⟩
def Fld.PROT_CFG_CLAIM_WIN : Fld := ⟨15, 8⟩
def Fld.PROT_CFG_CLAIMED : Fld := ⟨16, 16⟩
def Fld.PROT_SESS_ACTIVE : Fld := ⟨0, 0⟩
def Fld.PROT_SESS_ROLE : Fld := ⟨2, 1⟩
def Fld.PROT_SESS_SLOT : Fld := ⟨4, 3⟩
def Fld.PROT_SESS_IDLE : Fld := ⟨31, 16⟩
def Fld.PROT_ANCHOR_SEL_ROLE : Fld := ⟨1, 0⟩
def Fld.PROT_ANCHOR_SEL_SLOT : Fld := ⟨3, 2⟩
def Fld.PROT_ANCHOR_CMD_OP : Fld := ⟨1, 0⟩
def Fld.PROT_ANCHOR_CMD_BUSY : Fld := ⟨2, 2⟩
def Fld.PROT_ANCHOR_CMD_RESULT : Fld := ⟨5, 3⟩
def Fld.PROT_ANCHOR_CMD_VALID : Fld := ⟨6, 6⟩
def Fld.PROT_ANCHOR_DIG_BYTES : Fld := ⟨31, 0⟩
def Fld.FLT_CFG_ERRN_MIN : Fld := ⟨2, 0⟩
def Fld.FLT_ERRN_HOLD : Fld := ⟨0, 0⟩
def Fld.FLT_ERRN_PIN : Fld := ⟨1, 1⟩
def Fld.FLT_ERRN_DEVSTOP : Fld := ⟨2, 2⟩
def Fld.FLT_SEL_SRC : Fld := ⟨7, 0⟩
def Fld.FLT_SEV_SEV : Fld := ⟨2, 0⟩
def Fld.FLT_SEV_MIN : Fld := ⟨6, 4⟩
def Fld.FLT_SEV_PROFILE : Fld := ⟨11, 8⟩
def Fld.FLT_SEV_PROF_EN : Fld := ⟨12, 12⟩
def Fld.FLT_SEV_DEF : Fld := ⟨18, 16⟩
def Fld.FLT_SRC_CNT_COUNT : Fld := ⟨15, 0⟩
def Fld.FLT_PEND_PEND : Fld := ⟨31, 0⟩
def Fld.FLT_LAST_SRC : Fld := ⟨7, 0⟩
def Fld.FLT_LAST_SEV : Fld := ⟨10, 8⟩
def Fld.FLT_LAST_KIND : Fld := ⟨12, 11⟩
def Fld.FLT_LAST_UNIT : Fld := ⟨20, 13⟩
def Fld.FLT_LAST_VALID : Fld := ⟨21, 21⟩
def Fld.FLT_LAST_T_LO_TIME : Fld := ⟨31, 0⟩
def Fld.FLT_LAST_T_HI_TIME : Fld := ⟨31, 0⟩
def Fld.FLT_STOP_HDA : Fld := ⟨7, 0⟩
def Fld.FLT_STOP_DEVICE : Fld := ⟨8, 8⟩
def Fld.FLT_CNT_RAISED : Fld := ⟨15, 0⟩
def Fld.FLT_CNT_STOPS : Fld := ⟨31, 16⟩
def Fld.ER_STAT_READY : Fld := ⟨0, 0⟩
def Fld.ER_STAT_ERASING : Fld := ⟨1, 1⟩
def Fld.ER_STAT_BUF_USED : Fld := ⟨17, 2⟩
def Fld.ER_TIME_LO_TIME : Fld := ⟨31, 0⟩
def Fld.ER_TIME_HI_TIME : Fld := ⟨31, 0⟩
def Fld.ER_CFG_CHKPT_MIN : Fld := ⟨10, 0⟩
def Fld.ER_CLEAR_SCOPE : Fld := ⟨1, 0⟩
def Fld.ER_LOST_DROPPED : Fld := ⟨15, 0⟩
def Fld.ER_LOST_PENDING : Fld := ⟨31, 16⟩
def Fld.ER_SEQ_SEQ : Fld := ⟨31, 0⟩
def Fld.ER_RD_ADDR_OFFSET : Fld := ⟨22, 0⟩
def Fld.ER_RD_CTRL_GO : Fld := ⟨0, 0⟩
def Fld.ER_RD_CTRL_BUSY : Fld := ⟨1, 1⟩
def Fld.ER_RD_DATA_BYTES : Fld := ⟨31, 0⟩
def Fld.ER_HIST_SEL_HIST : Fld := ⟨3, 0⟩
def Fld.ER_HIST_CFG_QTY : Fld := ⟨3, 0⟩
def Fld.ER_HIST_CFG_SCOPE : Fld := ⟨11, 4⟩
def Fld.ER_HIST_CFG_SHIFT : Fld := ⟨16, 12⟩
def Fld.ER_HIST_BASE_BASE : Fld := ⟨31, 0⟩
def Fld.ER_HIST_MIN_MIN : Fld := ⟨31, 0⟩
def Fld.ER_HIST_MAX_MAX : Fld := ⟨31, 0⟩
def Fld.ER_HIST_MAXT_LO_TIME : Fld := ⟨31, 0⟩
def Fld.ER_HIST_MAXT_HI_TIME : Fld := ⟨31, 0⟩
def Fld.ER_HIST_BIN_COUNT : Fld := ⟨31, 0⟩
def Fld.ER_PROF_SEL_PROF : Fld := ⟨3, 0⟩
def Fld.ER_PROF_SEL_ENTRY : Fld := ⟨8, 4⟩
def Fld.ER_PROF_ENTRY_ADDR : Fld := ⟨23, 0⟩
def Fld.ER_PROF_ENTRY_USED : Fld := ⟨24, 24⟩
def Fld.CAL_CFG_TEMP_DELTA : Fld := ⟨4, 0⟩
def Fld.CAL_CFG_PERIOD : Fld := ⟨15, 5⟩
def Fld.CAL_CFG_AUTO : Fld := ⟨16, 16⟩
def Fld.CAL_SKEW_CFG_SKEW_WEDGES : Fld := ⟨11, 0⟩
def Fld.CAL_SKEW_CFG_SKEW_JUMP : Fld := ⟨19, 12⟩
def Fld.CAL_CMD_HDA : Fld := ⟨7, 0⟩
def Fld.CAL_CMD_GO : Fld := ⟨8, 8⟩
def Fld.CAL_CMD_ABORT : Fld := ⟨9, 9⟩
def Fld.CAL_REF_STAT_GAIN_ERR : Fld := ⟨7, 0⟩
def Fld.CAL_REF_STAT_OFS_ERR : Fld := ⟨15, 8⟩
def Fld.CAL_REF_STAT_REF_BAD : Fld := ⟨16, 16⟩
def Fld.CAL_HDA_TEMP : Fld := ⟨7, 0⟩
def Fld.CAL_HDA_T_LAST : Fld := ⟨15, 8⟩
def Fld.CAL_HDA_RUNNING : Fld := ⟨16, 16⟩
def Fld.CAL_HDA_LEFT : Fld := ⟨24, 17⟩
def Fld.CAL_HDA_CAUSE : Fld := ⟨27, 25⟩
def Fld.CAL_CNT_DONE : Fld := ⟨15, 0⟩
def Fld.CAL_CNT_DISCARD : Fld := ⟨31, 16⟩
def Fld.CAL_CNT2_REJECT : Fld := ⟨15, 0⟩
def Fld.CAL_CNT2_JUMP : Fld := ⟨31, 16⟩
def Fld.JQ_SEL_STORE : Fld := ⟨5, 0⟩
def Fld.JQ_SEL_BANK : Fld := ⟨6, 6⟩
def Fld.JQ_SEL_WORD : Fld := ⟨19, 8⟩
def Fld.JQ_DATA0_BITS : Fld := ⟨31, 0⟩
def Fld.JQ_DATA1_BITS : Fld := ⟨31, 0⟩
def Fld.JQ_DATA2_BITS : Fld := ⟨31, 0⟩
def Fld.JQ_DATA3_BITS : Fld := ⟨31, 0⟩
def Fld.JQ_VER_ACT_BUILD : Fld := ⟨15, 0⟩
def Fld.JQ_VER_ACT_MINOR : Fld := ⟨23, 16⟩
def Fld.JQ_VER_ACT_MAJOR : Fld := ⟨31, 24⟩
def Fld.JQ_VER_STG_BUILD : Fld := ⟨15, 0⟩
def Fld.JQ_VER_STG_MINOR : Fld := ⟨23, 16⟩
def Fld.JQ_VER_STG_MAJOR : Fld := ⟨31, 24⟩
def Fld.JQ_STAT_IFACE : Fld := ⟨7, 0⟩
def Fld.JQ_STAT_LAYOUT : Fld := ⟨15, 8⟩
def Fld.JQ_STAT_STG_VALID : Fld := ⟨16, 16⟩
def Fld.JQ_STAT_ARMED : Fld := ⟨17, 17⟩
def Fld.JQ_STAT_WAIT_IDLE : Fld := ⟨18, 18⟩
def Fld.JQ_STAT_FAILED : Fld := ⟨19, 19⟩
def Fld.JQ_STAT_HELD : Fld := ⟨20, 20⟩
def Fld.JQ_ACT_ARM : Fld := ⟨0, 0⟩
def Fld.JQ_ACT_ABORT : Fld := ⟨1, 1⟩
def Fld.JQ_ACT_SWAP_TMO : Fld := ⟨15, 8⟩
def Fld.JQ_ACT_BUSY : Fld := ⟨16, 16⟩
def Fld.JQ_ACT_DONE : Fld := ⟨17, 17⟩
def Fld.JQ_ACT_PARTIAL : Fld := ⟨18, 18⟩
def Fld.JQ_ECC_CE : Fld := ⟨15, 0⟩
def Fld.JQ_ECC_UE : Fld := ⟨31, 16⟩
def Fld.JQ_ECC_LAST_STORE : Fld := ⟨5, 0⟩
def Fld.JQ_ECC_LAST_BANK : Fld := ⟨6, 6⟩
def Fld.JQ_ECC_LAST_WORD : Fld := ⟨18, 7⟩
def Fld.JQ_ECC_LAST_UNCORR : Fld := ⟨19, 19⟩
def Fld.JQ_FAIL_LO_MAP : Fld := ⟨31, 0⟩
def Fld.JQ_FAIL_HI_MAP : Fld := ⟨31, 0⟩
def Fld.JQ_SWAP_LO_MAP : Fld := ⟨31, 0⟩
def Fld.JQ_SWAP_HI_MAP : Fld := ⟨31, 0⟩
def Fld.SAS_XR_CFG_BURST : Fld := ⟨7, 0⟩
def Fld.SAS_XR_CFG_WINDOW : Fld := ⟨15, 8⟩
def Fld.SAS_ADDR_LO_ADDR : Fld := ⟨31, 0⟩
def Fld.SAS_ADDR_HI_ADDR : Fld := ⟨31, 0⟩
def Fld.SAS_PHY_STAT_RATE : Fld := ⟨1, 0⟩
def Fld.SAS_PHY_STAT_WIDE : Fld := ⟨2, 2⟩
def Fld.SAS_PHY_STAT_INVDW : Fld := ⟨15, 8⟩
def Fld.SAS_PHY_STAT_DISP : Fld := ⟨23, 16⟩
def Fld.SAS_PHY_STAT_RESETS : Fld := ⟨31, 24⟩
def Fld.SAS_CNT_OPEN_TABLE_FULL : Fld := ⟨15, 0⟩
def Fld.SAS_CNT_OPEN_PROTO : Fld := ⟨31, 16⟩
def Fld.SAS_CNT_XFER_ORPHAN : Fld := ⟨15, 0⟩
def Fld.SAS_CNT_XFER_VIOL : Fld := ⟨31, 16⟩
def Fld.INT_CFG_ADMIT_WAIT : Fld := ⟨9, 0⟩
def Fld.INT_CFG_WR_RETRY : Fld := ⟨13, 10⟩
def Fld.INT_CFG_RD_REV_MAX : Fld := ⟨17, 14⟩
def Fld.INT_CFG_PIN_T : Fld := ⟨27, 18⟩
def Fld.INT_ACT_CFG_QUIESCE_T : Fld := ⟨7, 0⟩
def Fld.INT_LU_SEL_LU : Fld := ⟨7, 0⟩
def Fld.INT_LU_BOB_MIN : Fld := ⟨15, 0⟩
def Fld.INT_LU_BOB_MAX : Fld := ⟨31, 16⟩
def Fld.INT_LU_CTX_MIN : Fld := ⟨15, 0⟩
def Fld.INT_LU_CTX_MAX : Fld := ⟨31, 16⟩
def Fld.INT_LU_USE_BOB_USED : Fld := ⟨17, 0⟩
def Fld.INT_LU_USE_BOB_POOL : Fld := ⟨23, 18⟩
def Fld.INT_LU_USE_CTX_USED : Fld := ⟨15, 0⟩
def Fld.INT_LU_USE_CTX_WAITING : Fld := ⟨28, 16⟩
def Fld.INT_STAT_CTX_FREE : Fld := ⟨15, 0⟩
def Fld.INT_STAT_ADMQ : Fld := ⟨28, 16⟩
def Fld.INT_STAT_QUOTA_REJ : Fld := ⟨29, 29⟩
def Fld.INT_ACT_STAT_PHASE : Fld := ⟨2, 0⟩
def Fld.INT_ACT_STAT_RESULT : Fld := ⟨4, 3⟩
def Fld.INT_ACT_STAT_HELD_ABORTED : Fld := ⟨5, 5⟩
def Fld.INT_ACT_STAT_HELD : Fld := ⟨31, 16⟩
def Fld.INT_CTX_FMT_FMT : Fld := ⟨7, 0⟩
def Fld.INT_CNT_ADMIT_COUNT : Fld := ⟨31, 0⟩
def Fld.INT_CNT_REFUSE_TSF : Fld := ⟨15, 0⟩
def Fld.INT_CNT_REFUSE_BUSY : Fld := ⟨31, 16⟩
def Fld.INT_CNT_WAIT_EMPTY : Fld := ⟨15, 0⟩
def Fld.INT_CNT_WAIT_WAITED : Fld := ⟨31, 16⟩
def Fld.INT_CNT_MEDIA_PASS : Fld := ⟨15, 0⟩
def Fld.INT_CNT_MEDIA_AUTO_REASSIGN : Fld := ⟨31, 16⟩
def Fld.INT_CNT_PIN_SERVED : Fld := ⟨15, 0⟩
def Fld.INT_CNT_PIN_EXPIRED : Fld := ⟨31, 16⟩
def Fld.INT_CTX_SEL_CTX : Fld := ⟨15, 0⟩
def Fld.INT_CTX_DATA_BYTES : Fld := ⟨31, 0⟩
def Fld.SCH_ACT_STAT_QUEUED : Fld := ⟨15, 0⟩
def Fld.SCH_ACT_STAT_WINDOW : Fld := ⟨24, 16⟩
def Fld.SCH_ACT_AGE_OLDEST : Fld := ⟨19, 0⟩
def Fld.SCH_ACT_AGE_NBL : Fld := ⟨28, 20⟩
def Fld.SCH_ACT_WORK_STEP : Fld := ⟨2, 0⟩
def Fld.SCH_ACT_WORK_VERIFY : Fld := ⟨3, 3⟩
def Fld.SCH_ACT_WORK_DEFECT : Fld := ⟨4, 4⟩
def Fld.SCH_ACT_WORK_CAL : Fld := ⟨5, 5⟩
def Fld.SCH_ACT_WORK_SELFTEST : Fld := ⟨6, 6⟩
def Fld.SCH_ACT_CNT_ROT_MISS : Fld := ⟨15, 0⟩
def Fld.SCH_ACT_CNT_AGED : Fld := ⟨31, 16⟩
def Fld.SCH_CFG_SLACK : Fld := ⟨11, 0⟩
def Fld.SCH_CFG_AGE_MAX : Fld := ⟨23, 12⟩
def Fld.SCH_CFG_LU_DEPTH : Fld := ⟨27, 24⟩
def Fld.SCH_CFG2_DEF_CAP : Fld := ⟨11, 0⟩
def Fld.SCH_CFG2_MARGIN : Fld := ⟨23, 12⟩
def Fld.SCH_BG_CFG_CAL_DEFER : Fld := ⟨7, 0⟩
def Fld.SCH_BG_CFG_ST_SEG : Fld := ⟨15, 8⟩
def Fld.SCH_BG_CFG_ST_STARVE : Fld := ⟨23, 16⟩
def Fld.SCH_LU_SEL_LU : Fld := ⟨7, 0⟩
def Fld.SCH_LU_SEL_ACT : Fld := ⟨11, 8⟩
def Fld.SCH_LU_WT_WT : Fld := ⟨7, 0⟩
def Fld.SCH_LU_DEF_DEF : Fld := ⟨23, 0⟩
def Fld.SCH_LU_DEF_BACKLOG : Fld := ⟨24, 24⟩
def Fld.SCH_CNT_DISP_COUNT : Fld := ⟨31, 0⟩
def Fld.SCH_CNT_DEF_CLAMP_POS : Fld := ⟨15, 0⟩
def Fld.SCH_CNT_DEF_CLAMP_NEG : Fld := ⟨31, 16⟩
def Fld.CREEL_STAT_FREE_ALL : Fld := ⟨17, 0⟩
def Fld.CREEL_STAT_READY : Fld := ⟨18, 18⟩
def Fld.CREEL_RES_SIZE : Fld := ⟨12, 0⟩
def Fld.CREEL_RES_HELD : Fld := ⟨25, 13⟩
def Fld.CREEL_HBM_READY : Fld := ⟨0, 0⟩
def Fld.CREEL_HBM_TRAIN_FAIL : Fld := ⟨1, 1⟩
def Fld.CREEL_HBM_REFRESH : Fld := ⟨3, 2⟩
def Fld.CREEL_HBM_TEMP : Fld := ⟨15, 8⟩
def Fld.CREEL_POOL_SEL_POOL : Fld := ⟨5, 0⟩
def Fld.CREEL_POOL_BASE_BASE : Fld := ⟨17, 0⟩
def Fld.CREEL_POOL_SIZE_SIZE : Fld := ⟨17, 0⟩
def Fld.CREEL_POOL_FREE_FREE : Fld := ⟨17, 0⟩
def Fld.CREEL_POOL_CREDIT_CREDIT : Fld := ⟨17, 0⟩
def Fld.CREEL_POOL_PIN_PINNED : Fld := ⟨17, 0⟩
def Fld.CREEL_POOL_PEAK_PEAK : Fld := ⟨17, 0⟩
def Fld.CREEL_POOL_CNT_GRANTS : Fld := ⟨31, 0⟩
def Fld.CREEL_POOL_CNT2_EMPTY : Fld := ⟨15, 0⟩
def Fld.CREEL_POOL_CNT2_OVER : Fld := ⟨31, 16⟩
def Fld.CREEL_CHK_LINK_BAD : Fld := ⟨0, 0⟩
def Fld.CREEL_CHK_RET_BAD : Fld := ⟨1, 1⟩
def Fld.CREEL_CHK_REBUILD : Fld := ⟨2, 2⟩
def Fld.CREEL_CHK_POOL : Fld := ⟨8, 3⟩
def Fld.CREEL_CHK_RES : Fld := ⟨9, 9⟩
def Fld.CREEL_CHK_ADDR_BOBBIN : Fld := ⟨17, 0⟩
def Fld.CREEL_CNT_CHK_LINK_BAD : Fld := ⟨15, 0⟩
def Fld.CREEL_CNT_CHK_RET_BAD : Fld := ⟨31, 16⟩
def Fld.CREEL_PRIO_NEXT : Fld := ⟨0, 0⟩
def Fld.SHU_CFG_RETRY_GAP : Fld := ⟨7, 0⟩
def Fld.SHU_PACE_HO_HI : Fld := ⟨7, 0⟩
def Fld.SHU_PACE_HO_LO : Fld := ⟨15, 8⟩
def Fld.SHU_PACE_CO_HI : Fld := ⟨7, 0⟩
def Fld.SHU_PACE_CO_LO : Fld := ⟨15, 8⟩
def Fld.SHU_JOBQ_QUEUED : Fld := ⟨12, 0⟩
def Fld.SHU_JOBQ_HOST_FREE : Fld := ⟨18, 13⟩
def Fld.SHU_CH_SEL_CH : Fld := ⟨5, 0⟩
def Fld.SHU_CH_STAT_STATE : Fld := ⟨2, 0⟩
def Fld.SHU_CH_STAT_PC : Fld := ⟨10, 3⟩
def Fld.SHU_CH_STAT_PROG : Fld := ⟨15, 11⟩
def Fld.SHU_CH_STAT_CTX : Fld := ⟨31, 16⟩
def Fld.SHU_CH_ERR_CAUSE : Fld := ⟨2, 0⟩
def Fld.SHU_CH_ERR_ADDR : Fld := ⟨30, 3⟩
def Fld.SHU_CH_CTRL_CLEAR : Fld := ⟨0, 0⟩
def Fld.SHU_HALT_LO_MAP : Fld := ⟨31, 0⟩
def Fld.SHU_HALT_HI_MAP : Fld := ⟨31, 0⟩
def Fld.SHU_CNT_ERR_RETRY : Fld := ⟨15, 0⟩
def Fld.SHU_CNT_ERR_HALT : Fld := ⟨31, 16⟩
def Fld.SHU_CNT_JOB_JOBS : Fld := ⟨31, 0⟩
def Fld.SHU_CNT_PACE_HO : Fld := ⟨15, 0⟩
def Fld.SHU_CNT_PACE_CO : Fld := ⟨31, 16⟩
def Fld.SHU_PROG_SEL_PROG : Fld := ⟨4, 0⟩
def Fld.SHU_PROG_INFO_START : Fld := ⟨11, 0⟩
def Fld.SHU_PROG_INFO_LEN : Fld := ⟨20, 12⟩
def Fld.SHU_KIND_HOST_IN : Fld := ⟨4, 0⟩
def Fld.SHU_KIND_HOST_OUT : Fld := ⟨9, 5⟩
def Fld.SHU_KIND_MEDIA_OUT : Fld := ⟨14, 10⟩
def Fld.SHU_KIND_MEDIA_IN : Fld := ⟨19, 15⟩
def Fld.SHU_KIND_COMPARE_IN : Fld := ⟨24, 20⟩
def Fld.ZT_SEL_ZONE : Fld := ⟨24, 0⟩
def Fld.ZT_DESC_BYTES : Fld := ⟨31, 0⟩
def Fld.TMP_MAINT_OP : Fld := ⟨2, 0⟩
def Fld.TMP_MAINT_GROUP : Fld := ⟨5, 3⟩
def Fld.TMP_MAINT_BUSY : Fld := ⟨8, 8⟩
def Fld.TMP_MAINT_RESULT : Fld := ⟨11, 9⟩
def Fld.TMP_MAINT_ADDR_ZONE : Fld := ⟨24, 0⟩
def Fld.TMP_STAT_PWR : Fld := ⟨5, 0⟩
def Fld.TMP_STAT_LOCKED : Fld := ⟨11, 6⟩
def Fld.TMP_STAT_MB_FILL : Fld := ⟨15, 12⟩
def Fld.ZT_SAVE_PENDING : Fld := ⟨15, 0⟩
def Fld.ZT_SAVE_WAITING : Fld := ⟨31, 16⟩
def Fld.TMP_CNT_HIT_HIT : Fld := ⟨31, 0⟩
def Fld.TMP_CNT_MISS_MISS : Fld := ⟨15, 0⟩
def Fld.TMP_CNT_MISS_RESCUE : Fld := ⟨31, 16⟩
def Fld.TMP_CNT_MB_MERGE : Fld := ⟨15, 0⟩
def Fld.TMP_CNT_MB_FULL_WAIT : Fld := ⟨31, 16⟩
def Fld.TMP_CNT_ERR_DCHK : Fld := ⟨15, 0⟩
def Fld.TMP_CNT_ERR_GROWN_MOVE : Fld := ⟨31, 16⟩
def Fld.CIP_STAT_BUSY : Fld := ⟨3, 0⟩
def Fld.CIP_STAT_DERIV : Fld := ⟨4, 4⟩
def Fld.CIP_STAT_DK_INUSE : Fld := ⟨11, 5⟩
def Fld.CIP_STAT_QUEUED : Fld := ⟨22, 12⟩
def Fld.CIP_KEY_SEL_LU : Fld := ⟨7, 0⟩
def Fld.CIP_KEY_CMD_OP : Fld := ⟨1, 0⟩
def Fld.CIP_KEY_CMD_KCV : Fld := ⟨31, 8⟩
def Fld.CIP_KEY_STAT_LOADED : Fld := ⟨0, 0⟩
def Fld.CIP_KEY_STAT_BUSY : Fld := ⟨1, 1⟩
def Fld.CIP_KEY_STAT_RESULT : Fld := ⟨4, 2⟩
def Fld.CIP_KEY_STAT_CLEARING : Fld := ⟨5, 5⟩
def Fld.CIP_KEY_STAT_KCV : Fld := ⟨31, 8⟩
def Fld.CIP_KEY_DATA_BITS : Fld := ⟨31, 0⟩
def Fld.CIP_REKEY_ADDR_ZONE : Fld := ⟨24, 0⟩
def Fld.CIP_REKEY_CMD_GO : Fld := ⟨0, 0⟩
def Fld.CIP_REKEY_CMD_BUSY : Fld := ⟨1, 1⟩
def Fld.CIP_REKEY_CMD_RESULT : Fld := ⟨4, 2⟩
def Fld.CIP_CNT_ENC_COUNT : Fld := ⟨31, 0⟩
def Fld.CIP_CNT_DEC_COUNT : Fld := ⟨31, 0⟩
def Fld.CIP_CNT_FAIL_TAG : Fld := ⟨15, 0⟩
def Fld.CIP_CNT_FAIL_LOCKED : Fld := ⟨31, 16⟩
def Fld.CIP_CNT_DK_HIT : Fld := ⟨15, 0⟩
def Fld.CIP_CNT_DK_MISS : Fld := ⟨31, 16⟩
def Fld.CIP_CNT_NONCE_ERASE : Fld := ⟨15, 0⟩
def Fld.CIP_CNT_NONCE_ERASE_CUT : Fld := ⟨31, 16⟩
def Fld.CV_CFG_WIDTH : Fld := ⟨6, 0⟩
def Fld.CV_CFG_REFIN : Fld := ⟨7, 7⟩
def Fld.CV_CFG_REFOUT : Fld := ⟨8, 8⟩
def Fld.CV_CFG_BOUND : Fld := ⟨9, 9⟩
def Fld.CV_POLY_LO_VALUE : Fld := ⟨31, 0⟩
def Fld.CV_POLY_HI_VALUE : Fld := ⟨31, 0⟩
def Fld.CV_INIT_LO_VALUE : Fld := ⟨31, 0⟩
def Fld.CV_INIT_HI_VALUE : Fld := ⟨31, 0⟩
def Fld.CV_XOR_LO_VALUE : Fld := ⟨31, 0⟩
def Fld.CV_XOR_HI_VALUE : Fld := ⟨31, 0⟩
def Fld.CV_FEED_DATA : Fld := ⟨31, 0⟩
def Fld.CV_CTRL_START : Fld := ⟨0, 0⟩
def Fld.CV_CTRL_NBYTES : Fld := ⟨2, 1⟩
def Fld.CV_RUN_LO_VALUE : Fld := ⟨31, 0⟩
def Fld.CV_RUN_HI_VALUE : Fld := ⟨31, 0⟩
def Fld.CV_RESULT_LO_VALUE : Fld := ⟨31, 0⟩
def Fld.CV_RESULT_HI_VALUE : Fld := ⟨31, 0⟩
def Fld.CV_COUNT_BYTES : Fld := ⟨31, 0⟩
def Fld.CV_CNT_ICRC_TO_MEDIA : Fld := ⟨15, 0⟩
def Fld.CV_CNT_ICRC_TO_HOST : Fld := ⟨31, 16⟩
def Fld.CV_CNT_STAMP_LOST : Fld := ⟨15, 0⟩
def Fld.CV_CNT_STAMP_MISDIR : Fld := ⟨31, 16⟩
def Fld.HED_SCRUB_INTERVAL : Fld := ⟨15, 0⟩
def Fld.HED_SCRUB_EN : Fld := ⟨16, 16⟩
def Fld.HED_STAT_PASSES : Fld := ⟨15, 0⟩
def Fld.HED_STAT_REMAP_FULL : Fld := ⟨16, 16⟩
def Fld.HED_ERR_LAST_MACRO : Fld := ⟨7, 0⟩
def Fld.HED_ERR_LAST_WORD : Fld := ⟨19, 8⟩
def Fld.HED_ERR_LAST_BIT : Fld := ⟨26, 20⟩
def Fld.HED_ERR_LAST_UNCORR : Fld := ⟨27, 27⟩
def Fld.HED_ERR_LAST_SRC : Fld := ⟨29, 28⟩
def Fld.HED_CNT_CE : Fld := ⟨15, 0⟩
def Fld.HED_CNT_UE : Fld := ⟨31, 16⟩
def Fld.HED_MACRO_SEL_MACRO : Fld := ⟨7, 0⟩
def Fld.HED_REMAP_ADDR : Fld := ⟨11, 0⟩
def Fld.HED_REMAP_VALID : Fld := ⟨12, 12⟩
def Fld.HED_TEST_ADDR_MACRO : Fld := ⟨7, 0⟩
def Fld.HED_TEST_ADDR_WORD : Fld := ⟨19, 8⟩
def Fld.HED_TEST_CMD_OP : Fld := ⟨2, 0⟩
def Fld.HED_TEST_CMD_BUSY : Fld := ⟨3, 3⟩
def Fld.HED_TEST_CMD_RESULT : Fld := ⟨5, 4⟩
def Fld.HED_TEST_DATA_LO_VALUE : Fld := ⟨31, 0⟩
def Fld.HED_TEST_DATA_HI_VALUE : Fld := ⟨31, 0⟩
def Fld.HED_FLIP_LO_MASK : Fld := ⟨31, 0⟩
def Fld.HED_FLIP_HI_MASK : Fld := ⟨31, 0⟩
def Fld.HED_TEST_CHK_CHK : Fld := ⟨15, 0⟩
def Fld.HED_TEST_CHK_FLIP : Fld := ⟨31, 16⟩
def Fld.ACU_MOTION_STATE : Fld := ⟨3, 0⟩
def Fld.ACU_MOTION_HEAD : Fld := ⟨7, 4⟩
def Fld.ACU_MOTION_SERVO_LOCK : Fld := ⟨8, 8⟩
def Fld.ACU_MOTION_RD_OK : Fld := ⟨9, 9⟩
def Fld.ACU_MOTION_WR_OK : Fld := ⟨10, 10⟩
def Fld.ACU_POS_CYL : Fld := ⟨21, 0⟩
def Fld.ACU_POS_RZONE : Fld := ⟨27, 22⟩
def Fld.ACU_PES_PES : Fld := ⟨15, 0⟩
def Fld.ACU_PES_WEDGE : Fld := ⟨25, 16⟩
def Fld.ACU_PES_VALID : Fld := ⟨26, 26⟩
def Fld.ACU_PES_LIM_WINDOW : Fld := ⟨12, 0⟩
def Fld.ACU_PES_LIM_RESUME : Fld := ⟨25, 13⟩
def Fld.ACU_PES_LIM_COUNT : Fld := ⟨29, 26⟩
def Fld.ACU_WI_CFG_NEIGHBOR : Fld := ⟨12, 0⟩
def Fld.ACU_WI_CFG_SHOCK_HOLD : Fld := ⟨16, 13⟩
def Fld.ACU_WI_CFG_MASAT_N : Fld := ⟨20, 17⟩
def Fld.ACU_WI_CFG_FORCE : Fld := ⟨21, 21⟩
def Fld.ACU_WI_STAT_LIVE : Fld := ⟨9, 0⟩
def Fld.ACU_WI_STAT_LATCHED : Fld := ⟨25, 16⟩
def Fld.ACU_SETTLE_CFG_RD_WIN : Fld := ⟨12, 0⟩
def Fld.ACU_SETTLE_CFG_RD_N : Fld := ⟨16, 13⟩
def Fld.ACU_SETTLE_CFG_WR_N : Fld := ⟨20, 17⟩
def Fld.ACU_SETTLE_CFG_SETTLE_TMO : Fld := ⟨28, 21⟩
def Fld.ACU_TRD_VMAX_LIMIT : Fld := ⟨23, 0⟩
def Fld.ACU_TRD_AMAX_LIMIT : Fld := ⟨23, 0⟩
def Fld.ACU_TRD_JMAX_LIMIT : Fld := ⟨23, 0⟩
def Fld.ACU_PARK_CTRL_PARK : Fld := ⟨0, 0⟩
def Fld.ACU_PARK_CTRL_CAUSE : Fld := ⟨11, 8⟩
def Fld.ACU_PARK_CTRL_TIMEOUT : Fld := ⟨12, 12⟩
def Fld.ACU_CNT_SERVO_MISS : Fld := ⟨15, 0⟩
def Fld.ACU_CNT_SERVO_LOST : Fld := ⟨31, 16⟩
def Fld.ACU_CNT_WI_WRITE_STOP : Fld := ⟨15, 0⟩
def Fld.ACU_CNT_WI_NEIGHBOR : Fld := ⟨31, 16⟩
def Fld.ACU_CNT_SEEK_SEEKS : Fld := ⟨15, 0⟩
def Fld.ACU_CNT_SEEK_SETTLE_FAIL : Fld := ⟨31, 16⟩
def Fld.ACU_CLE_SEL_LOOP : Fld := ⟨1, 0⟩
def Fld.ACU_CLE_SEL_STAGE : Fld := ⟨5, 2⟩
def Fld.ACU_CLE_SEL_ITEM : Fld := ⟨8, 6⟩
def Fld.ACU_CLE_SEL_AUTOINC : Fld := ⟨9, 9⟩
def Fld.ACU_CLE_DATA_VALUE : Fld := ⟨23, 0⟩
def Fld.ACU_CLE_CTRL_BYPASS : Fld := ⟨11, 0⟩
def Fld.ACU_CLE_CTRL_NSTAGE : Fld := ⟨15, 12⟩
def Fld.ACU_CLE_CTRL_PENDING : Fld := ⟨16, 16⟩
def Fld.ACU_CLE_SAT_STAGE_SAT : Fld := ⟨11, 0⟩
def Fld.ACU_CLE_SAT_OUT_SAT : Fld := ⟨12, 12⟩
def Fld.ACU_CH_CTRL_ITER_MAX : Fld := ⟨4, 0⟩
def Fld.ACU_CH_CTRL_ITER_MAX_RETRY : Fld := ⟨11, 5⟩
def Fld.ACU_CH_CTRL_RETRY_EN : Fld := ⟨12, 12⟩
def Fld.ACU_CH_CTRL_ADAPT_FREEZE : Fld := ⟨13, 13⟩
def Fld.ACU_CH_CTRL_ADAPT_RESET : Fld := ⟨14, 14⟩
def Fld.ACU_CH_STAT_LOCK : Fld := ⟨0, 0⟩
def Fld.ACU_CH_STAT_HOLDOVER : Fld := ⟨1, 1⟩
def Fld.ACU_CH_STAT_WRITING : Fld := ⟨2, 2⟩
def Fld.ACU_CH_STAT_PA_FAULT : Fld := ⟨3, 3⟩
def Fld.ACU_CH_STAT_HEAD : Fld := ⟨7, 4⟩
def Fld.ACU_CH_STAT_RZONE : Fld := ⟨13, 8⟩
def Fld.ACU_CH_STAT_AT_BOUND : Fld := ⟨18, 14⟩
def Fld.ACU_CH_STAT_LAST_ITER : Fld := ⟨22, 19⟩
def Fld.ACU_PRECOMP_SEL_HEAD : Fld := ⟨3, 0⟩
def Fld.ACU_PRECOMP_SEL_RZONE : Fld := ⟨9, 4⟩
def Fld.ACU_PRECOMP_DATA_PC1 : Fld := ⟨4, 0⟩
def Fld.ACU_PRECOMP_DATA_PC2 : Fld := ⟨12, 8⟩
def Fld.ACU_PRECOMP_DATA_PC3 : Fld := ⟨20, 16⟩
def Fld.ACU_PA_ACC_DATA : Fld := ⟨7, 0⟩
def Fld.ACU_PA_ACC_ADDR : Fld := ⟨14, 8⟩
def Fld.ACU_PA_ACC_READ : Fld := ⟨15, 15⟩
def Fld.ACU_PA_ACC_GO : Fld := ⟨16, 16⟩
def Fld.ACU_PA_ACC_BUSY : Fld := ⟨17, 17⟩
def Fld.ACU_CNT_SECT_COUNT : Fld := ⟨31, 0⟩
def Fld.ACU_CNT_RETRY_COUNT : Fld := ⟨31, 0⟩
def Fld.ACU_CNT_RETRY_OK_COUNT : Fld := ⟨31, 0⟩
def Fld.ACU_CNT_REV_NOGRANT : Fld := ⟨15, 0⟩
def Fld.ACU_CNT_REV_UNREC : Fld := ⟨31, 16⟩
def Fld.ACU_CNT_MISCORR_COUNT : Fld := ⟨31, 0⟩
def Fld.ACU_CNT_STARVE_WRITE : Fld := ⟨15, 0⟩
def Fld.ACU_CNT_STARVE_READ : Fld := ⟨31, 16⟩
def Fld.ACU_CNT_WARP_BADMARK : Fld := ⟨7, 0⟩
def Fld.ACU_CNT_WARP_SLIP : Fld := ⟨15, 8⟩
def Fld.ACU_CNT_WARP_OFFTRK : Fld := ⟨23, 16⟩
def Fld.ACU_CNT_WARP_LOCKLOSS : Fld := ⟨31, 24⟩
def Fld.ACU_CNT_ADAPT_COUNT : Fld := ⟨31, 0⟩
def Fld.ACU_FR_SEL_RZONE : Fld := ⟨5, 0⟩
def Fld.ACU_FR_CFG_MODE : Fld := ⟨0, 0⟩
def Fld.ACU_FR_CFG_WIN : Fld := ⟨12, 8⟩
def Fld.ACU_FR_CFG_THR : Fld := ⟨19, 16⟩
def Fld.ACU_FR_LAST_OUTCOME : Fld := ⟨2, 0⟩
def Fld.ACU_FR_LAST_NCAND : Fld := ⟨5, 3⟩
def Fld.ACU_FR_LAST_SEL_OFS : Fld := ⟨10, 6⟩
def Fld.ACU_FR_LAST_SEL_DIST : Fld := ⟨16, 11⟩
def Fld.ACU_FR_LAST_LIST_IDX : Fld := ⟨19, 17⟩
def Fld.ACU_FR_LAST_MODE : Fld := ⟨20, 20⟩
def Fld.ACU_FR_LAST_OVERFLOW : Fld := ⟨21, 21⟩
def Fld.ACU_FR_LAST_SLOT : Fld := ⟨31, 23⟩
def Fld.ACU_CNT_FR_NOMARK_COUNT : Fld := ⟨31, 0⟩
def Fld.ACU_CNT_FR_MULTI_MULTI : Fld := ⟨15, 0⟩
def Fld.ACU_CNT_FR_MULTI_OVERFLOW : Fld := ⟨31, 16⟩
def Fld.ACU_CNT_FR_ALT_CAND : Fld := ⟨15, 0⟩
def Fld.ACU_CNT_FR_ALT_CLOCK : Fld := ⟨31, 16⟩
def Fld.ACU_CNT_FR_SHIFT_EARLY : Fld := ⟨15, 0⟩
def Fld.ACU_CNT_FR_SHIFT_LATE : Fld := ⟨31, 16⟩
def Fld.ACU_CNT_FR_NEAR_SAME : Fld := ⟨15, 0⟩
def Fld.ACU_CNT_FR_NEAR_NEAR : Fld := ⟨31, 16⟩
def Fld.ACU_SKEW_SEL_HEAD : Fld := ⟨3, 0⟩
def Fld.ACU_SKEW_SEL_RZONE : Fld := ⟨9, 4⟩
def Fld.ACU_SKEW_DATA_ANGLE : Fld := ⟨15, 0⟩
def Fld.ACU_SKEW_DATA_RADIAL : Fld := ⟨23, 16⟩
def Fld.ACU_SKEW_DATA_VALID : Fld := ⟨24, 24⟩
def Fld.SCU_SPIN_STATE : Fld := ⟨3, 0⟩
def Fld.SCU_SPIN_DIR : Fld := ⟨4, 4⟩
def Fld.SCU_SPIN_OBS_LOCK : Fld := ⟨5, 5⟩
def Fld.SCU_SPIN_IN_TOL : Fld := ⟨6, 6⟩
def Fld.SCU_SPIN_SPD_SRC : Fld := ⟨7, 7⟩
def Fld.SCU_SPIN_TRIES : Fld := ⟨10, 8⟩
def Fld.SCU_SPEED_SPEED : Fld := ⟨19, 0⟩
def Fld.SCU_BUS_VBUS : Fld := ⟨15, 0⟩
def Fld.SCU_BUS_ICHOP : Fld := ⟨27, 16⟩
def Fld.SCU_BUS_CHOP_GATE : Fld := ⟨28, 28⟩
def Fld.SCU_CTRL_TARGET : Fld := ⟨12, 0⟩
def Fld.SCU_CTRL_CMD : Fld := ⟨18, 16⟩
def Fld.SCU_OBS_CFG_RES_THR : Fld := ⟨6, 0⟩
def Fld.SCU_OBS_CFG_RES_N : Fld := ⟨15, 8⟩
def Fld.SCU_CHOP_OPEN : Fld := ⟨0, 0⟩
def Fld.SCU_CHOP_NOFALL : Fld := ⟨1, 1⟩
def Fld.SCU_CHOP_STUCK : Fld := ⟨2, 2⟩
def Fld.SCU_CHOP_OVERV : Fld := ⟨3, 3⟩
def Fld.SCU_CHOP_REGEN_OFF : Fld := ⟨4, 4⟩
def Fld.SCU_PWM_STAT_SHIFTED : Fld := ⟨2, 0⟩
def Fld.SCU_PWM_STAT_MEASURED : Fld := ⟨5, 3⟩
def Fld.SCU_PWM_STAT_DEFERRED : Fld := ⟨6, 6⟩
def Fld.SCU_CNT_LOSS_LOSS : Fld := ⟨15, 0⟩
def Fld.SCU_CNT_LOSS_CATCH_FAIL : Fld := ⟨31, 16⟩
def Fld.SCU_CNT_PWM_DEFER : Fld := ⟨15, 0⟩
def Fld.SCU_CNT_PWM_DROP : Fld := ⟨31, 16⟩
def Fld.SCU_CNT_CHOP_ON : Fld := ⟨15, 0⟩
def Fld.SCU_CNT_CHOP_ZV : Fld := ⟨31, 16⟩
def Fld.SCU_CNT_START_STARTS : Fld := ⟨15, 0⟩
def Fld.SCU_CNT_START_FAIL : Fld := ⟨31, 16⟩
def Fld.SCU_CLE_SEL_LOOP : Fld := ⟨1, 0⟩
def Fld.SCU_CLE_SEL_STAGE : Fld := ⟨5, 2⟩
def Fld.SCU_CLE_SEL_ITEM : Fld := ⟨8, 6⟩
def Fld.SCU_CLE_SEL_AUTOINC : Fld := ⟨9, 9⟩
def Fld.SCU_CLE_DATA_VALUE : Fld := ⟨23, 0⟩
def Fld.SCU_CLE_CTRL_BYPASS : Fld := ⟨11, 0⟩
def Fld.SCU_CLE_CTRL_NSTAGE : Fld := ⟨15, 12⟩
def Fld.SCU_CLE_CTRL_PENDING : Fld := ⟨16, 16⟩
def Fld.SCU_CLE_SAT_STAGE_SAT : Fld := ⟨11, 0⟩
def Fld.SCU_CLE_SAT_OUT_SAT : Fld := ⟨12, 12⟩
def Fld.UST_LU_OP : Fld := ⟨3, 0⟩
def Fld.UST_LU_ADM : Fld := ⟨7, 4⟩
def Fld.UST_LU_CAUSE : Fld := ⟨15, 8⟩
def Fld.UST_LU_GEN : Fld := ⟨31, 16⟩
def Fld.UST_ACT_OP : Fld := ⟨3, 0⟩
def Fld.UST_ACT_ADM : Fld := ⟨7, 4⟩
def Fld.UST_ACT_CAUSE : Fld := ⟨15, 8⟩
def Fld.UST_ACT_GEN : Fld := ⟨31, 16⟩
def Fld.UST_HDA_OP : Fld := ⟨3, 0⟩
def Fld.UST_HDA_ADM : Fld := ⟨7, 4⟩
def Fld.UST_HDA_CAUSE : Fld := ⟨15, 8⟩
def Fld.UST_HDA_GEN : Fld := ⟨31, 16⟩
def Fld.UST_SEL_KIND : Fld := ⟨1, 0⟩
def Fld.UST_SEL_INDEX : Fld := ⟨9, 2⟩
def Fld.UST_DRAIN_LEFT : Fld := ⟨15, 0⟩
def Fld.UST_DRAIN_TIME_LEFT : Fld := ⟨31, 16⟩
def Fld.UST_CNT_MISMATCH : Fld := ⟨15, 0⟩
def Fld.UST_CNT_DRAIN_ABORT : Fld := ⟨31, 16⟩

/-! ### Access codes (R4), in pieces -/

def regTable0 : List RegDesc := [
  ⟨"GLB_ID", 0x0, 1, 0x0, 1, .glb, [⟨15, 0, .ro, false⟩, ⟨23, 16, .ro, false⟩, ⟨31, 24, .ro, false⟩]⟩,
  ⟨"GLB_GEOM", 0x4, 1, 0x0, 1, .glb, [⟨7, 0, .ro, true⟩, ⟨23, 8, .ro, true⟩]⟩,
  ⟨"GLB_ISLAND_STAT", 0x100, 1, 0x0, 1, .glb, [⟨0, 0, .ro, false⟩, ⟨1, 1, .ro, false⟩, ⟨2, 2, .ro, false⟩, ⟨3, 3, .ro, false⟩, ⟨4, 4, .ro, false⟩, ⟨15, 8, .ro, false⟩, ⟨31, 16, .ro, false⟩]⟩,
  ⟨"GLB_WARP_LOCK", 0x104, 1, 0x0, 1, .glb, [⟨15, 0, .ro, false⟩, ⟨31, 16, .ro, false⟩]⟩,
  ⟨"GLB_IMG_STAT", 0x200, 1, 0x0, 1, .glb, [⟨0, 0, .ro, false⟩, ⟨1, 1, .ro, false⟩, ⟨2, 2, .ro, false⟩, ⟨3, 3, .ro, false⟩, ⟨4, 4, .ro, false⟩, ⟨5, 5, .w1c, false⟩]⟩,
  ⟨"GLB_IMG_VER", 0x204, 1, 0x0, 1, .glb, [⟨31, 0, .ro, false⟩]⟩,
  ⟨"GLB_IMG_PREV", 0x208, 1, 0x0, 1, .glb, [⟨31, 0, .ro, false⟩]⟩,
  ⟨"GLB_IMG_ERR", 0x20c, 1, 0x0, 1, .glb, [⟨3, 0, .ro, false⟩, ⟨19, 4, .ro, false⟩, ⟨21, 20, .ro, false⟩]⟩,
  ⟨"GLB_IMG_ERR_OFS", 0x210, 1, 0x0, 1, .glb, [⟨31, 0, .ro, false⟩]⟩,
  ⟨"GLB_READY", 0x300, 1, 0x0, 1, .glb, [⟨0, 0, .ro, false⟩, ⟨1, 1, .ro, false⟩, ⟨2, 2, .ro, false⟩, ⟨3, 3, .ro, false⟩, ⟨4, 4, .ro, false⟩, ⟨5, 5, .ro, false⟩, ⟨6, 6, .ro, false⟩, ⟨7, 7, .ro, false⟩, ⟨23, 16, .ro, false⟩]⟩,
  ⟨"GLB_BU_CFG", 0x304, 1, 0x0, 1, .glb, [⟨0, 0, .rwk, false⟩, ⟨4, 1, .rwk, false⟩, ⟨8, 8, .wo, false⟩, ⟨23, 16, .rwk, false⟩]⟩,
  ⟨"GLB_BU", 0x320, 1, 0x4, 8, .glb, [⟨3, 0, .ro, false⟩, ⟨7, 4, .ro, false⟩, ⟨11, 8, .ro, false⟩, ⟨15, 12, .ro, false⟩, ⟨31, 16, .ro, false⟩]⟩,
  ⟨"GLB_RST", 0x380, 1, 0x0, 1, .glb, [⟨0, 0, .wo, false⟩, ⟨15, 8, .rwk, false⟩, ⟨16, 16, .wo, false⟩, ⟨17, 17, .ro, false⟩, ⟨19, 18, .ro, false⟩]⟩,
  ⟨"GLB_RST_CAUSE", 0x384, 1, 0x0, 1, .glb, [⟨1, 0, .ro, false⟩, ⟨15, 8, .w1c, false⟩, ⟨31, 16, .ro, false⟩]⟩,
  ⟨"GLB_PWR", 0x388, 1, 0x0, 1, .glb, [⟨0, 0, .ro, false⟩, ⟨1, 1, .w1c, false⟩, ⟨2, 2, .ro, false⟩, ⟨3, 3, .w1c, false⟩]⟩,
  ⟨"GLB_STBY_STAT", 0x390, 1, 0x0, 1, .glb, [⟨0, 0, .ro, false⟩, ⟨1, 1, .ro, false⟩]⟩,
  ⟨"GLB_STBY_OFF", 0x394, 1, 0x0, 1, .glb, [⟨31, 0, .ro, false⟩]⟩,
  ⟨"GLB_LG", 0x3a0, 1, 0x4, 8, .glb, [⟨31, 0, .ro, false⟩]⟩,
  ⟨"PROT_CFG", 0x10000, 1, 0x0, 1, .loom, [⟨7, 0, .rwk, false⟩, ⟨15, 8, .rwk, false⟩, ⟨16, 16, .ro, false⟩]⟩,
  ⟨"PROT_SESS", 0x10010, 1, 0x4, 4, .loom, [⟨0, 0, .ro, false⟩, ⟨2, 1, .ro, false⟩, ⟨4, 3, .ro, false⟩, ⟨31, 16, .ro, false⟩]⟩,
  ⟨"PROT_ANCHOR_SEL", 0x10020, 1, 0x0, 1, .loom, [⟨1, 0, .rw, false⟩, ⟨3, 2, .rw, false⟩]⟩,
  ⟨"PROT_ANCHOR_CMD", 0x10024, 1, 0x0, 1, .loom, [⟨1, 0, .wo, false⟩, ⟨2, 2, .ro, false⟩, ⟨5, 3, .ro, false⟩, ⟨6, 6, .ro, false⟩]⟩,
  ⟨"PROT_ANCHOR_DIG", 0x10030, 1, 0x4, 12, .loom, [⟨31, 0, .rwk, false⟩]⟩,
  ⟨"FLT_CFG", 0x20000, 1, 0x0, 1, .loom, [⟨2, 0, .rwk, false⟩]⟩,
  ⟨"FLT_ERRN", 0x20004, 1, 0x0, 1, .loom, [⟨0, 0, .w1c, false⟩, ⟨1, 1, .ro, false⟩, ⟨2, 2, .ro, false⟩]⟩,
  ⟨"FLT_SEL", 0x20010, 1, 0x0, 1, .loom, [⟨7, 0, .rw, false⟩]⟩,
  ⟨"FLT_SEV", 0x20014, 1, 0x0, 1, .loom, [⟨2, 0, .rwk, true⟩, ⟨6, 4, .ro, true⟩, ⟨11, 8, .rwk, true⟩, ⟨12, 12, .rwk, true⟩, ⟨18, 16, .ro, true⟩]⟩,
  ⟨"FLT_SRC_CNT", 0x20018, 1, 0x0, 1, .loom, [⟨15, 0, .rc, false⟩]⟩,
  ⟨"FLT_PEND", 0x20020, 1, 0x4, 6, .loom, [⟨31, 0, .w1c, false⟩]⟩,
  ⟨"FLT_LAST", 0x20040, 1, 0x0, 1, .loom, [⟨7, 0, .ro, false⟩, ⟨10, 8, .ro, false⟩, ⟨12, 11, .ro, false⟩, ⟨20, 13, .ro, false⟩, ⟨21, 21, .ro, false⟩]⟩,
  ⟨"FLT_LAST_T_LO", 0x20044, 1, 0x0, 1, .loom, [⟨31, 0, .ro, false⟩]⟩,
  ⟨"FLT_LAST_T_HI", 0x20048, 1, 0x0, 1, .loom, [⟨31, 0, .ro, false⟩]⟩]

def regTable1 : List RegDesc := [
  ⟨"FLT_STOP", 0x2004c, 1, 0x0, 1, .loom, [⟨7, 0, .ro, false⟩, ⟨8, 8, .ro, false⟩]⟩,
  ⟨"FLT_CNT", 0x20050, 1, 0x0, 1, .loom, [⟨15, 0, .rc, false⟩, ⟨31, 16, .rc, false⟩]⟩,
  ⟨"ER_STAT", 0x30000, 1, 0x0, 1, .loom, [⟨0, 0, .ro, false⟩, ⟨1, 1, .ro, false⟩, ⟨17, 2, .ro, false⟩]⟩,
  ⟨"ER_TIME_LO", 0x30004, 1, 0x0, 1, .glb, [⟨31, 0, .ro, false⟩]⟩,
  ⟨"ER_TIME_HI", 0x30008, 1, 0x0, 1, .glb, [⟨31, 0, .ro, false⟩]⟩,
  ⟨"ER_CFG", 0x3000c, 1, 0x0, 1, .loom, [⟨10, 0, .rwk, true⟩]⟩,
  ⟨"ER_CLEAR", 0x30010, 1, 0x0, 1, .loom, [⟨1, 0, .wo, false⟩]⟩,
  ⟨"ER_LOST", 0x30014, 1, 0x0, 1, .glb, [⟨15, 0, .rc, false⟩, ⟨31, 16, .ro, false⟩]⟩,
  ⟨"ER_SEQ", 0x30018, 1, 0x0, 1, .glb, [⟨31, 0, .ro, false⟩]⟩,
  ⟨"ER_RD_ADDR", 0x30020, 1, 0x0, 1, .loom, [⟨22, 0, .rw, false⟩]⟩,
  ⟨"ER_RD_CTRL", 0x30024, 1, 0x0, 1, .loom, [⟨0, 0, .wo, false⟩, ⟨1, 1, .ro, false⟩]⟩,
  ⟨"ER_RD_DATA", 0x30040, 1, 0x4, 16, .loom, [⟨31, 0, .ro, false⟩]⟩,
  ⟨"ER_HIST_SEL", 0x30100, 1, 0x0, 1, .loom, [⟨3, 0, .rw, false⟩]⟩,
  ⟨"ER_HIST_CFG", 0x30104, 1, 0x0, 1, .loom, [⟨3, 0, .rwk, true⟩, ⟨11, 4, .rwk, true⟩, ⟨16, 12, .rwk, true⟩]⟩,
  ⟨"ER_HIST_BASE", 0x30108, 1, 0x0, 1, .loom, [⟨31, 0, .rwk, true⟩]⟩,
  ⟨"ER_HIST_MIN", 0x3010c, 1, 0x0, 1, .loom, [⟨31, 0, .ro, false⟩]⟩,
  ⟨"ER_HIST_MAX", 0x30110, 1, 0x0, 1, .loom, [⟨31, 0, .ro, false⟩]⟩,
  ⟨"ER_HIST_MAXT_LO", 0x30114, 1, 0x0, 1, .loom, [⟨31, 0, .ro, false⟩]⟩,
  ⟨"ER_HIST_MAXT_HI", 0x30118, 1, 0x0, 1, .loom, [⟨31, 0, .ro, false⟩]⟩,
  ⟨"ER_HIST_BIN", 0x30180, 1, 0x4, 32, .loom, [⟨31, 0, .ro, false⟩]⟩,
  ⟨"ER_PROF_SEL", 0x30200, 1, 0x0, 1, .loom, [⟨3, 0, .rw, false⟩, ⟨8, 4, .rw, false⟩]⟩,
  ⟨"ER_PROF_ENTRY", 0x30204, 1, 0x0, 1, .loom, [⟨23, 0, .rwk, true⟩, ⟨24, 24, .rwk, true⟩]⟩,
  ⟨"CAL_CFG", 0x40000, 1, 0x0, 1, .loom, [⟨4, 0, .rw, true⟩, ⟨15, 5, .rw, true⟩, ⟨16, 16, .rw, false⟩]⟩,
  ⟨"CAL_SKEW_CFG", 0x40004, 1, 0x0, 1, .loom, [⟨11, 0, .rw, true⟩, ⟨19, 12, .rw, true⟩]⟩,
  ⟨"CAL_CMD", 0x40008, 1, 0x0, 1, .loom, [⟨7, 0, .rw, false⟩, ⟨8, 8, .wo, false⟩, ⟨9, 9, .wo, false⟩]⟩,
  ⟨"CAL_REF_STAT", 0x4000c, 1, 0x0, 1, .loom, [⟨7, 0, .ro, false⟩, ⟨15, 8, .ro, false⟩, ⟨16, 16, .w1c, false⟩]⟩,
  ⟨"CAL_HDA", 0x40020, 1, 0x4, 8, .loom, [⟨7, 0, .ro, false⟩, ⟨15, 8, .ro, false⟩, ⟨16, 16, .ro, false⟩, ⟨24, 17, .ro, false⟩, ⟨27, 25, .ro, false⟩]⟩,
  ⟨"CAL_CNT", 0x40040, 1, 0x0, 1, .loom, [⟨15, 0, .rc, false⟩, ⟨31, 16, .rc, false⟩]⟩,
  ⟨"CAL_CNT2", 0x40044, 1, 0x0, 1, .loom, [⟨15, 0, .rc, false⟩, ⟨31, 16, .rc, false⟩]⟩,
  ⟨"JQ_SEL", 0x50000, 1, 0x0, 1, .loom, [⟨5, 0, .rw, false⟩, ⟨6, 6, .rw, false⟩, ⟨19, 8, .rw, false⟩]⟩,
  ⟨"JQ_DATA0", 0x50004, 1, 0x0, 1, .loom, [⟨31, 0, .ro, false⟩]⟩,
  ⟨"JQ_DATA1", 0x50008, 1, 0x0, 1, .loom, [⟨31, 0, .ro, false⟩]⟩]

def regTable2 : List RegDesc := [
  ⟨"JQ_DATA2", 0x5000c, 1, 0x0, 1, .loom, [⟨31, 0, .ro, false⟩]⟩,
  ⟨"JQ_DATA3", 0x50010, 1, 0x0, 1, .loom, [⟨31, 0, .ro, false⟩]⟩,
  ⟨"JQ_VER_ACT", 0x50020, 1, 0x0, 1, .loom, [⟨15, 0, .ro, false⟩, ⟨23, 16, .ro, false⟩, ⟨31, 24, .ro, false⟩]⟩,
  ⟨"JQ_VER_STG", 0x50024, 1, 0x0, 1, .loom, [⟨15, 0, .ro, false⟩, ⟨23, 16, .ro, false⟩, ⟨31, 24, .ro, false⟩]⟩,
  ⟨"JQ_STAT", 0x50028, 1, 0x0, 1, .loom, [⟨7, 0, .ro, false⟩, ⟨15, 8, .ro, false⟩, ⟨16, 16, .ro, false⟩, ⟨17, 17, .ro, false⟩, ⟨18, 18, .ro, false⟩, ⟨19, 19, .ro, false⟩, ⟨20, 20, .ro, false⟩]⟩,
  ⟨"JQ_ACT", 0x50030, 1, 0x0, 1, .loom, [⟨0, 0, .wo, false⟩, ⟨1, 1, .wo, false⟩, ⟨15, 8, .rwk, false⟩, ⟨16, 16, .ro, false⟩, ⟨17, 17, .w1c, false⟩, ⟨18, 18, .w1c, false⟩]⟩,
  ⟨"JQ_ECC", 0x50040, 1, 0x0, 1, .loom, [⟨15, 0, .rc, false⟩, ⟨31, 16, .rc, false⟩]⟩,
  ⟨"JQ_ECC_LAST", 0x50044, 1, 0x0, 1, .loom, [⟨5, 0, .ro, false⟩, ⟨6, 6, .ro, false⟩, ⟨18, 7, .ro, false⟩, ⟨19, 19, .ro, false⟩]⟩,
  ⟨"JQ_FAIL_LO", 0x50050, 1, 0x0, 1, .loom, [⟨31, 0, .ro, false⟩]⟩,
  ⟨"JQ_FAIL_HI", 0x50054, 1, 0x0, 1, .loom, [⟨31, 0, .ro, false⟩]⟩,
  ⟨"JQ_SWAP_LO", 0x50058, 1, 0x0, 1, .loom, [⟨31, 0, .ro, false⟩]⟩,
  ⟨"JQ_SWAP_HI", 0x5005c, 1, 0x0, 1, .loom, [⟨31, 0, .ro, false⟩]⟩,
  ⟨"SAS_XR_CFG", 0x80000, 2, 0x0, 1, .loom, [⟨7, 0, .rw, false⟩, ⟨15, 8, .rw, false⟩]⟩,
  ⟨"SAS_ADDR_LO", 0x80004, 2, 0x0, 1, .loom, [⟨31, 0, .ro, true⟩]⟩,
  ⟨"SAS_ADDR_HI", 0x80008, 2, 0x0, 1, .loom, [⟨31, 0, .ro, true⟩]⟩,
  ⟨"SAS_PHY_STAT", 0x80010, 2, 0x4, 4, .loom, [⟨1, 0, .ro, false⟩, ⟨2, 2, .ro, false⟩, ⟨15, 8, .rc, false⟩, ⟨23, 16, .rc, false⟩, ⟨31, 24, .rc, false⟩]⟩,
  ⟨"SAS_CNT_OPEN", 0x80020, 2, 0x0, 1, .loom, [⟨15, 0, .rc, false⟩, ⟨31, 16, .rc, false⟩]⟩,
  ⟨"SAS_CNT_XFER", 0x80024, 2, 0x0, 1, .loom, [⟨15, 0, .rc, false⟩, ⟨31, 16, .rc, false⟩]⟩,
  ⟨"INT_CFG", 0xa0000, 1, 0x0, 1, .loom, [⟨9, 0, .rw, true⟩, ⟨13, 10, .rw, true⟩, ⟨17, 14, .rw, true⟩, ⟨27, 18, .rw, true⟩]⟩,
  ⟨"INT_ACT_CFG", 0xa0004, 1, 0x0, 1, .loom, [⟨7, 0, .rwk, false⟩]⟩,
  ⟨"INT_LU_SEL", 0xa0010, 1, 0x0, 1, .loom, [⟨7, 0, .rw, false⟩]⟩,
  ⟨"INT_LU_BOB", 0xa0014, 1, 0x0, 1, .loom, [⟨15, 0, .rwk, true⟩, ⟨31, 16, .rwk, true⟩]⟩,
  ⟨"INT_LU_CTX", 0xa0018, 1, 0x0, 1, .loom, [⟨15, 0, .rwk, true⟩, ⟨31, 16, .rwk, true⟩]⟩,
  ⟨"INT_LU_USE_BOB", 0xa001c, 1, 0x0, 1, .loom, [⟨17, 0, .ro, false⟩, ⟨23, 18, .ro, true⟩]⟩,
  ⟨"INT_LU_USE_CTX", 0xa0020, 1, 0x0, 1, .loom, [⟨15, 0, .ro, false⟩, ⟨28, 16, .ro, false⟩]⟩,
  ⟨"INT_STAT", 0xa0030, 1, 0x0, 1, .loom, [⟨15, 0, .ro, false⟩, ⟨28, 16, .ro, false⟩, ⟨29, 29, .w1c, false⟩]⟩,
  ⟨"INT_ACT_STAT", 0xa0034, 1, 0x0, 1, .loom, [⟨2, 0, .ro, false⟩, ⟨4, 3, .ro, false⟩, ⟨5, 5, .w1c, false⟩, ⟨31, 16, .ro, false⟩]⟩,
  ⟨"INT_CTX_FMT", 0xa0038, 1, 0x0, 1, .loom, [⟨7, 0, .ro, false⟩]⟩,
  ⟨"INT_CNT_ADMIT", 0xa0040, 1, 0x0, 1, .loom, [⟨31, 0, .rc, false⟩]⟩,
  ⟨"INT_CNT_REFUSE", 0xa0044, 1, 0x0, 1, .loom, [⟨15, 0, .rc, false⟩, ⟨31, 16, .rc, false⟩]⟩,
  ⟨"INT_CNT_WAIT", 0xa0048, 1, 0x0, 1, .loom, [⟨15, 0, .rc, false⟩, ⟨31, 16, .rc, false⟩]⟩,
  ⟨"INT_CNT_MEDIA", 0xa004c, 1, 0x0, 1, .loom, [⟨15, 0, .rc, false⟩, ⟨31, 16, .rc, false⟩]⟩]

def regTable3 : List RegDesc := [
  ⟨"INT_CNT_PIN", 0xa0050, 1, 0x0, 1, .loom, [⟨15, 0, .rc, false⟩, ⟨31, 16, .rc, false⟩]⟩,
  ⟨"INT_CTX_SEL", 0xa0100, 1, 0x0, 1, .loom, [⟨15, 0, .rw, false⟩]⟩,
  ⟨"INT_CTX_DATA", 0xa0104, 1, 0x4, 40, .loom, [⟨31, 0, .ro, false⟩]⟩,
  ⟨"SCH_ACT_STAT", 0xc0100, 1, 0x10, 16, .harness, [⟨15, 0, .ro, false⟩, ⟨24, 16, .ro, false⟩]⟩,
  ⟨"SCH_ACT_AGE", 0xc0104, 1, 0x10, 16, .harness, [⟨19, 0, .ro, false⟩, ⟨28, 20, .ro, false⟩]⟩,
  ⟨"SCH_ACT_WORK", 0xc0108, 1, 0x10, 16, .harness, [⟨2, 0, .ro, false⟩, ⟨3, 3, .ro, false⟩, ⟨4, 4, .ro, false⟩, ⟨5, 5, .ro, false⟩, ⟨6, 6, .ro, false⟩]⟩,
  ⟨"SCH_ACT_CNT", 0xc010c, 1, 0x10, 16, .harness, [⟨15, 0, .rc, false⟩, ⟨31, 16, .rc, false⟩]⟩,
  ⟨"SCH_CFG", 0xc0000, 1, 0x0, 1, .harness, [⟨11, 0, .rw, true⟩, ⟨23, 12, .rw, true⟩, ⟨27, 24, .rw, false⟩]⟩,
  ⟨"SCH_CFG2", 0xc0004, 1, 0x0, 1, .harness, [⟨11, 0, .rw, true⟩, ⟨23, 12, .rw, false⟩]⟩,
  ⟨"SCH_BG_CFG", 0xc0008, 1, 0x0, 1, .harness, [⟨7, 0, .rw, true⟩, ⟨15, 8, .rw, false⟩, ⟨23, 16, .rw, false⟩]⟩,
  ⟨"SCH_LU_SEL", 0xc0010, 1, 0x0, 1, .harness, [⟨7, 0, .rw, false⟩, ⟨11, 8, .rw, false⟩]⟩,
  ⟨"SCH_LU_WT", 0xc0014, 1, 0x0, 1, .harness, [⟨7, 0, .rwk, true⟩]⟩,
  ⟨"SCH_LU_DEF", 0xc0018, 1, 0x0, 1, .harness, [⟨23, 0, .ro, false⟩, ⟨24, 24, .ro, false⟩]⟩,
  ⟨"SCH_CNT_DISP", 0xc0020, 1, 0x0, 1, .harness, [⟨31, 0, .rc, false⟩]⟩,
  ⟨"SCH_CNT_DEF", 0xc0024, 1, 0x0, 1, .harness, [⟨15, 0, .rc, false⟩, ⟨31, 16, .rc, false⟩]⟩,
  ⟨"CREEL_STAT", 0xd0000, 1, 0x0, 1, .harness, [⟨17, 0, .ro, false⟩, ⟨18, 18, .ro, false⟩]⟩,
  ⟨"CREEL_RES", 0xd0004, 1, 0x0, 1, .harness, [⟨12, 0, .ro, true⟩, ⟨25, 13, .ro, false⟩]⟩,
  ⟨"CREEL_HBM", 0xd0008, 1, 0x0, 1, .harness, [⟨0, 0, .ro, false⟩, ⟨1, 1, .ro, false⟩, ⟨3, 2, .ro, false⟩, ⟨15, 8, .ro, false⟩]⟩,
  ⟨"CREEL_POOL_SEL", 0xd0010, 1, 0x0, 1, .harness, [⟨5, 0, .rw, false⟩]⟩,
  ⟨"CREEL_POOL_BASE", 0xd0014, 1, 0x0, 1, .harness, [⟨17, 0, .ro, true⟩]⟩,
  ⟨"CREEL_POOL_SIZE", 0xd0018, 1, 0x0, 1, .harness, [⟨17, 0, .ro, true⟩]⟩,
  ⟨"CREEL_POOL_FREE", 0xd001c, 1, 0x0, 1, .harness, [⟨17, 0, .ro, false⟩]⟩,
  ⟨"CREEL_POOL_CREDIT", 0xd0020, 1, 0x0, 1, .harness, [⟨17, 0, .ro, false⟩]⟩,
  ⟨"CREEL_POOL_PIN", 0xd0024, 1, 0x0, 1, .harness, [⟨17, 0, .ro, false⟩]⟩,
  ⟨"CREEL_POOL_PEAK", 0xd0028, 1, 0x0, 1, .harness, [⟨17, 0, .rc, false⟩]⟩,
  ⟨"CREEL_POOL_CNT", 0xd002c, 1, 0x0, 1, .harness, [⟨31, 0, .rc, false⟩]⟩,
  ⟨"CREEL_POOL_CNT2", 0xd0030, 1, 0x0, 1, .harness, [⟨15, 0, .rc, false⟩, ⟨31, 16, .rc, false⟩]⟩,
  ⟨"CREEL_CHK", 0xd0040, 1, 0x0, 1, .harness, [⟨0, 0, .w1c, false⟩, ⟨1, 1, .w1c, false⟩, ⟨2, 2, .ro, false⟩, ⟨8, 3, .ro, false⟩, ⟨9, 9, .ro, false⟩]⟩,
  ⟨"CREEL_CHK_ADDR", 0xd0044, 1, 0x0, 1, .harness, [⟨17, 0, .ro, false⟩]⟩,
  ⟨"CREEL_CNT_CHK", 0xd0048, 1, 0x0, 1, .harness, [⟨15, 0, .rc, false⟩, ⟨31, 16, .rc, false⟩]⟩,
  ⟨"CREEL_PRIO", 0xd004c, 1, 0x0, 1, .harness, [⟨0, 0, .ro, false⟩]⟩,
  ⟨"SHU_CFG", 0xe0000, 1, 0x0, 1, .harness, [⟨7, 0, .rw, false⟩]⟩]

def regTable4 : List RegDesc := [
  ⟨"SHU_PACE_HO", 0xe0004, 1, 0x0, 1, .harness, [⟨7, 0, .rw, false⟩, ⟨15, 8, .rw, false⟩]⟩,
  ⟨"SHU_PACE_CO", 0xe0008, 1, 0x0, 1, .harness, [⟨7, 0, .rw, false⟩, ⟨15, 8, .rw, false⟩]⟩,
  ⟨"SHU_JOBQ", 0xe000c, 1, 0x0, 1, .harness, [⟨12, 0, .ro, false⟩, ⟨18, 13, .ro, false⟩]⟩,
  ⟨"SHU_CH_SEL", 0xe0010, 1, 0x0, 1, .harness, [⟨5, 0, .rw, false⟩]⟩,
  ⟨"SHU_CH_STAT", 0xe0014, 1, 0x0, 1, .harness, [⟨2, 0, .ro, false⟩, ⟨10, 3, .ro, false⟩, ⟨15, 11, .ro, false⟩, ⟨31, 16, .ro, false⟩]⟩,
  ⟨"SHU_CH_ERR", 0xe0018, 1, 0x0, 1, .harness, [⟨2, 0, .ro, false⟩, ⟨30, 3, .ro, false⟩]⟩,
  ⟨"SHU_CH_CTRL", 0xe001c, 1, 0x0, 1, .harness, [⟨0, 0, .wo, false⟩]⟩,
  ⟨"SHU_HALT_LO", 0xe0020, 1, 0x0, 1, .harness, [⟨31, 0, .ro, false⟩]⟩,
  ⟨"SHU_HALT_HI", 0xe0024, 1, 0x0, 1, .harness, [⟨31, 0, .ro, false⟩]⟩,
  ⟨"SHU_CNT_ERR", 0xe0030, 1, 0x0, 1, .harness, [⟨15, 0, .rc, false⟩, ⟨31, 16, .rc, false⟩]⟩,
  ⟨"SHU_CNT_JOB", 0xe0034, 1, 0x0, 1, .harness, [⟨31, 0, .rc, false⟩]⟩,
  ⟨"SHU_CNT_PACE", 0xe0038, 1, 0x0, 1, .harness, [⟨15, 0, .rc, false⟩, ⟨31, 16, .rc, false⟩]⟩,
  ⟨"SHU_PROG_SEL", 0xe0040, 1, 0x0, 1, .harness, [⟨4, 0, .rw, false⟩]⟩,
  ⟨"SHU_PROG_INFO", 0xe0044, 1, 0x0, 1, .harness, [⟨11, 0, .ro, true⟩, ⟨20, 12, .ro, true⟩]⟩,
  ⟨"SHU_KIND", 0xe0048, 1, 0x0, 1, .harness, [⟨4, 0, .ro, true⟩, ⟨9, 5, .ro, true⟩, ⟨14, 10, .ro, true⟩, ⟨19, 15, .ro, true⟩, ⟨24, 20, .ro, true⟩]⟩,
  ⟨"ZT_SEL", 0xf0000, 1, 0x0, 1, .harness, [⟨24, 0, .rw, false⟩]⟩,
  ⟨"ZT_DESC", 0xf0004, 1, 0x4, 8, .harness, [⟨31, 0, .ro, false⟩]⟩,
  ⟨"TMP_MAINT", 0xf0040, 1, 0x0, 1, .harness, [⟨2, 0, .wo, false⟩, ⟨5, 3, .rw, false⟩, ⟨8, 8, .ro, false⟩, ⟨11, 9, .ro, false⟩]⟩,
  ⟨"TMP_MAINT_ADDR", 0xf0044, 1, 0x0, 1, .harness, [⟨24, 0, .rw, false⟩]⟩,
  ⟨"TMP_STAT", 0xf0048, 1, 0x0, 1, .harness, [⟨5, 0, .ro, false⟩, ⟨11, 6, .ro, false⟩, ⟨15, 12, .ro, false⟩]⟩,
  ⟨"ZT_SAVE", 0xf004c, 1, 0x0, 1, .harness, [⟨15, 0, .ro, false⟩, ⟨31, 16, .ro, false⟩]⟩,
  ⟨"TMP_CNT_HIT", 0xf0050, 1, 0x0, 1, .harness, [⟨31, 0, .rc, false⟩]⟩,
  ⟨"TMP_CNT_MISS", 0xf0054, 1, 0x0, 1, .harness, [⟨15, 0, .rc, false⟩, ⟨31, 16, .rc, false⟩]⟩,
  ⟨"TMP_CNT_MB", 0xf0058, 1, 0x0, 1, .harness, [⟨15, 0, .rc, false⟩, ⟨31, 16, .rc, false⟩]⟩,
  ⟨"TMP_CNT_ERR", 0xf005c, 1, 0x0, 1, .harness, [⟨15, 0, .rc, false⟩, ⟨31, 16, .rc, false⟩]⟩,
  ⟨"CIP_STAT", 0x100000, 1, 0x0, 1, .harness, [⟨3, 0, .ro, false⟩, ⟨4, 4, .ro, false⟩, ⟨11, 5, .ro, false⟩, ⟨22, 12, .ro, false⟩]⟩,
  ⟨"CIP_KEY_SEL", 0x100010, 1, 0x0, 1, .harness, [⟨7, 0, .rw, false⟩]⟩,
  ⟨"CIP_KEY_CMD", 0x100014, 1, 0x0, 1, .harness, [⟨1, 0, .wo, false⟩, ⟨31, 8, .wo, false⟩]⟩,
  ⟨"CIP_KEY_STAT", 0x100018, 1, 0x0, 1, .key, [⟨0, 0, .ro, false⟩, ⟨1, 1, .ro, false⟩, ⟨4, 2, .ro, false⟩, ⟨5, 5, .ro, false⟩, ⟨31, 8, .ro, false⟩]⟩,
  ⟨"CIP_KEY_DATA", 0x100020, 1, 0x4, 8, .harness, [⟨31, 0, .wo, false⟩]⟩,
  ⟨"CIP_REKEY_ADDR", 0x100040, 1, 0x0, 1, .harness, [⟨24, 0, .rwk, false⟩]⟩,
  ⟨"CIP_REKEY_CMD", 0x100044, 1, 0x0, 1, .harness, [⟨0, 0, .wo, false⟩, ⟨1, 1, .ro, false⟩, ⟨4, 2, .ro, false⟩]⟩]

def regTable5 : List RegDesc := [
  ⟨"CIP_CNT_ENC", 0x100060, 1, 0x0, 1, .harness, [⟨31, 0, .rc, false⟩]⟩,
  ⟨"CIP_CNT_DEC", 0x100064, 1, 0x0, 1, .harness, [⟨31, 0, .rc, false⟩]⟩,
  ⟨"CIP_CNT_FAIL", 0x100068, 1, 0x0, 1, .harness, [⟨15, 0, .rc, false⟩, ⟨31, 16, .rc, false⟩]⟩,
  ⟨"CIP_CNT_DK", 0x10006c, 1, 0x0, 1, .harness, [⟨15, 0, .rc, false⟩, ⟨31, 16, .rc, false⟩]⟩,
  ⟨"CIP_CNT_NONCE", 0x100070, 1, 0x0, 1, .harness, [⟨15, 0, .rc, false⟩, ⟨31, 16, .rc, false⟩]⟩,
  ⟨"CV_CFG", 0x110000, 1, 0x40, 8, .harness, [⟨6, 0, .rw, true⟩, ⟨7, 7, .rw, true⟩, ⟨8, 8, .rw, true⟩, ⟨9, 9, .ro, true⟩]⟩,
  ⟨"CV_POLY_LO", 0x110004, 1, 0x40, 8, .harness, [⟨31, 0, .rw, true⟩]⟩,
  ⟨"CV_POLY_HI", 0x110008, 1, 0x40, 8, .harness, [⟨31, 0, .rw, true⟩]⟩,
  ⟨"CV_INIT_LO", 0x11000c, 1, 0x40, 8, .harness, [⟨31, 0, .rw, true⟩]⟩,
  ⟨"CV_INIT_HI", 0x110010, 1, 0x40, 8, .harness, [⟨31, 0, .rw, true⟩]⟩,
  ⟨"CV_XOR_LO", 0x110014, 1, 0x40, 8, .harness, [⟨31, 0, .rw, true⟩]⟩,
  ⟨"CV_XOR_HI", 0x110018, 1, 0x40, 8, .harness, [⟨31, 0, .rw, true⟩]⟩,
  ⟨"CV_FEED", 0x11001c, 1, 0x40, 8, .harness, [⟨31, 0, .wo, false⟩]⟩,
  ⟨"CV_CTRL", 0x110020, 1, 0x40, 8, .harness, [⟨0, 0, .wo, false⟩, ⟨2, 1, .rw, false⟩]⟩,
  ⟨"CV_RUN_LO", 0x110024, 1, 0x40, 8, .harness, [⟨31, 0, .rw, false⟩]⟩,
  ⟨"CV_RUN_HI", 0x110028, 1, 0x40, 8, .harness, [⟨31, 0, .rw, false⟩]⟩,
  ⟨"CV_RESULT_LO", 0x11002c, 1, 0x40, 8, .harness, [⟨31, 0, .ro, false⟩]⟩,
  ⟨"CV_RESULT_HI", 0x110030, 1, 0x40, 8, .harness, [⟨31, 0, .ro, false⟩]⟩,
  ⟨"CV_COUNT", 0x110034, 1, 0x40, 8, .harness, [⟨31, 0, .ro, false⟩]⟩,
  ⟨"CV_CNT_ICRC", 0x110200, 1, 0x0, 1, .harness, [⟨15, 0, .rc, false⟩, ⟨31, 16, .rc, false⟩]⟩,
  ⟨"CV_CNT_STAMP", 0x110204, 1, 0x0, 1, .harness, [⟨15, 0, .rc, false⟩, ⟨31, 16, .rc, false⟩]⟩,
  ⟨"HED_SCRUB", 0x120000, 1, 0x0, 1, .harness, [⟨15, 0, .rw, false⟩, ⟨16, 16, .rw, false⟩]⟩,
  ⟨"HED_STAT", 0x120004, 1, 0x0, 1, .harness, [⟨15, 0, .ro, false⟩, ⟨16, 16, .w1c, false⟩]⟩,
  ⟨"HED_ERR_LAST", 0x120008, 1, 0x0, 1, .harness, [⟨7, 0, .ro, false⟩, ⟨19, 8, .ro, false⟩, ⟨26, 20, .ro, false⟩, ⟨27, 27, .ro, false⟩, ⟨29, 28, .ro, false⟩]⟩,
  ⟨"HED_CNT", 0x12000c, 1, 0x0, 1, .harness, [⟨15, 0, .rc, false⟩, ⟨31, 16, .rc, false⟩]⟩,
  ⟨"HED_MACRO_SEL", 0x120020, 1, 0x0, 1, .harness, [⟨7, 0, .rw, false⟩]⟩,
  ⟨"HED_REMAP", 0x120024, 1, 0x4, 8, .harness, [⟨11, 0, .ro, false⟩, ⟨12, 12, .ro, false⟩]⟩,
  ⟨"HED_TEST_ADDR", 0x120050, 1, 0x0, 1, .harness, [⟨7, 0, .rwk, false⟩, ⟨19, 8, .rwk, false⟩]⟩,
  ⟨"HED_TEST_CMD", 0x120054, 1, 0x0, 1, .harness, [⟨2, 0, .rwk, false⟩, ⟨3, 3, .ro, false⟩, ⟨5, 4, .ro, false⟩]⟩,
  ⟨"HED_TEST_DATA_LO", 0x120058, 1, 0x0, 1, .harness, [⟨31, 0, .rwk, false⟩]⟩,
  ⟨"HED_TEST_DATA_HI", 0x12005c, 1, 0x0, 1, .harness, [⟨31, 0, .rwk, false⟩]⟩,
  ⟨"HED_FLIP_LO", 0x120060, 1, 0x0, 1, .harness, [⟨31, 0, .rwk, false⟩]⟩]

def regTable6 : List RegDesc := [
  ⟨"HED_FLIP_HI", 0x120064, 1, 0x0, 1, .harness, [⟨31, 0, .rwk, false⟩]⟩,
  ⟨"HED_TEST_CHK", 0x120068, 1, 0x0, 1, .harness, [⟨15, 0, .rwk, false⟩, ⟨31, 16, .rwk, false⟩]⟩,
  ⟨"ACU_MOTION", 0x200000, 16, 0x0, 1, .motion, [⟨3, 0, .ro, false⟩, ⟨7, 4, .ro, false⟩, ⟨8, 8, .ro, false⟩, ⟨9, 9, .ro, false⟩, ⟨10, 10, .ro, false⟩]⟩,
  ⟨"ACU_POS", 0x200004, 16, 0x0, 1, .motion, [⟨21, 0, .ro, false⟩, ⟨27, 22, .ro, false⟩]⟩,
  ⟨"ACU_PES", 0x200008, 16, 0x0, 1, .motion, [⟨15, 0, .ro, false⟩, ⟨25, 16, .ro, false⟩, ⟨26, 26, .ro, false⟩]⟩,
  ⟨"ACU_PES_LIM", 0x200010, 16, 0x0, 1, .motion, [⟨12, 0, .rw, true⟩, ⟨25, 13, .rw, true⟩, ⟨29, 26, .rw, true⟩]⟩,
  ⟨"ACU_WI_CFG", 0x200014, 16, 0x0, 1, .motion, [⟨12, 0, .rw, true⟩, ⟨16, 13, .rw, false⟩, ⟨20, 17, .rw, false⟩, ⟨21, 21, .rw, false⟩]⟩,
  ⟨"ACU_WI_STAT", 0x200018, 16, 0x0, 1, .motion, [⟨9, 0, .ro, false⟩, ⟨25, 16, .w1c, false⟩]⟩,
  ⟨"ACU_SETTLE_CFG", 0x20001c, 16, 0x0, 1, .motion, [⟨12, 0, .rw, true⟩, ⟨16, 13, .rw, true⟩, ⟨20, 17, .rw, true⟩, ⟨28, 21, .rw, true⟩]⟩,
  ⟨"ACU_TRD_VMAX", 0x200020, 16, 0x0, 1, .motion, [⟨23, 0, .rw, true⟩]⟩,
  ⟨"ACU_TRD_AMAX", 0x200024, 16, 0x0, 1, .motion, [⟨23, 0, .rw, true⟩]⟩,
  ⟨"ACU_TRD_JMAX", 0x200028, 16, 0x0, 1, .motion, [⟨23, 0, .rw, true⟩]⟩,
  ⟨"ACU_PARK_CTRL", 0x200030, 16, 0x0, 1, .motion, [⟨0, 0, .wo, false⟩, ⟨11, 8, .ro, false⟩, ⟨12, 12, .w1c, false⟩]⟩,
  ⟨"ACU_CNT_SERVO", 0x200040, 16, 0x0, 1, .motion, [⟨15, 0, .rc, false⟩, ⟨31, 16, .rc, false⟩]⟩,
  ⟨"ACU_CNT_WI", 0x200044, 16, 0x0, 1, .motion, [⟨15, 0, .rc, false⟩, ⟨31, 16, .rc, false⟩]⟩,
  ⟨"ACU_CNT_SEEK", 0x200048, 16, 0x0, 1, .motion, [⟨15, 0, .rc, false⟩, ⟨31, 16, .rc, false⟩]⟩,
  ⟨"ACU_CLE_SEL", 0x200100, 16, 0x0, 1, .motion, [⟨1, 0, .rw, false⟩, ⟨5, 2, .rw, false⟩, ⟨8, 6, .rw, false⟩, ⟨9, 9, .rw, false⟩]⟩,
  ⟨"ACU_CLE_DATA", 0x200104, 16, 0x0, 1, .motion, [⟨23, 0, .rw, true⟩]⟩,
  ⟨"ACU_CLE_CTRL", 0x200108, 16, 0x0, 1, .motion, [⟨11, 0, .rw, false⟩, ⟨15, 12, .ro, true⟩, ⟨16, 16, .ro, false⟩]⟩,
  ⟨"ACU_CLE_SAT", 0x20010c, 16, 0x0, 1, .motion, [⟨11, 0, .w1c, false⟩, ⟨12, 12, .w1c, false⟩]⟩,
  ⟨"ACU_CH_CTRL", 0x200200, 16, 0x0, 1, .harness, [⟨4, 0, .rw, true⟩, ⟨11, 5, .rw, true⟩, ⟨12, 12, .rw, false⟩, ⟨13, 13, .rw, false⟩, ⟨14, 14, .wo, false⟩]⟩,
  ⟨"ACU_CH_STAT", 0x200204, 16, 0x0, 1, .harness, [⟨0, 0, .ro, false⟩, ⟨1, 1, .ro, false⟩, ⟨2, 2, .ro, false⟩, ⟨3, 3, .ro, false⟩, ⟨7, 4, .ro, false⟩, ⟨13, 8, .ro, false⟩, ⟨18, 14, .ro, false⟩, ⟨22, 19, .ro, false⟩]⟩,
  ⟨"ACU_PRECOMP_SEL", 0x200208, 16, 0x0, 1, .harness, [⟨3, 0, .rw, false⟩, ⟨9, 4, .rw, false⟩]⟩,
  ⟨"ACU_PRECOMP_DATA", 0x20020c, 16, 0x0, 1, .harness, [⟨4, 0, .rw, true⟩, ⟨12, 8, .rw, true⟩, ⟨20, 16, .rw, true⟩]⟩,
  ⟨"ACU_PA_ACC", 0x200210, 16, 0x0, 1, .harness, [⟨7, 0, .rw, false⟩, ⟨14, 8, .rw, false⟩, ⟨15, 15, .rw, false⟩, ⟨16, 16, .wo, false⟩, ⟨17, 17, .ro, false⟩]⟩,
  ⟨"ACU_CNT_SECT", 0x200220, 16, 0x0, 1, .harness, [⟨31, 0, .rc, false⟩]⟩,
  ⟨"ACU_CNT_RETRY", 0x200224, 16, 0x0, 1, .harness, [⟨31, 0, .rc, false⟩]⟩,
  ⟨"ACU_CNT_RETRY_OK", 0x200228, 16, 0x0, 1, .harness, [⟨31, 0, .rc, false⟩]⟩,
  ⟨"ACU_CNT_REV", 0x20022c, 16, 0x0, 1, .harness, [⟨15, 0, .rc, false⟩, ⟨31, 16, .rc, false⟩]⟩,
  ⟨"ACU_CNT_MISCORR", 0x200230, 16, 0x0, 1, .harness, [⟨31, 0, .rc, false⟩]⟩,
  ⟨"ACU_CNT_STARVE", 0x200234, 16, 0x0, 1, .harness, [⟨15, 0, .rc, false⟩, ⟨31, 16, .rc, false⟩]⟩,
  ⟨"ACU_CNT_WARP", 0x200238, 16, 0x0, 1, .harness, [⟨7, 0, .rc, false⟩, ⟨15, 8, .rc, false⟩, ⟨23, 16, .rc, false⟩, ⟨31, 24, .rc, false⟩]⟩]

def regTable7 : List RegDesc := [
  ⟨"ACU_CNT_ADAPT", 0x20023c, 16, 0x0, 1, .harness, [⟨31, 0, .rc, false⟩]⟩,
  ⟨"ACU_FR_SEL", 0x200280, 16, 0x0, 1, .harness, [⟨5, 0, .rw, false⟩]⟩,
  ⟨"ACU_FR_CFG", 0x200284, 16, 0x0, 1, .harness, [⟨0, 0, .rw, true⟩, ⟨12, 8, .rw, true⟩, ⟨19, 16, .rw, true⟩]⟩,
  ⟨"ACU_FR_LAST", 0x200288, 16, 0x0, 1, .harness, [⟨2, 0, .ro, false⟩, ⟨5, 3, .ro, false⟩, ⟨10, 6, .ro, false⟩, ⟨16, 11, .ro, false⟩, ⟨19, 17, .ro, false⟩, ⟨20, 20, .ro, false⟩, ⟨21, 21, .ro, false⟩, ⟨31, 23, .ro, false⟩]⟩,
  ⟨"ACU_CNT_FR_NOMARK", 0x200290, 16, 0x0, 1, .harness, [⟨31, 0, .rc, false⟩]⟩,
  ⟨"ACU_CNT_FR_MULTI", 0x200294, 16, 0x0, 1, .harness, [⟨15, 0, .rc, false⟩, ⟨31, 16, .rc, false⟩]⟩,
  ⟨"ACU_CNT_FR_ALT", 0x200298, 16, 0x0, 1, .harness, [⟨15, 0, .rc, false⟩, ⟨31, 16, .rc, false⟩]⟩,
  ⟨"ACU_CNT_FR_SHIFT", 0x20029c, 16, 0x0, 1, .harness, [⟨15, 0, .rc, false⟩, ⟨31, 16, .rc, false⟩]⟩,
  ⟨"ACU_CNT_FR_NEAR", 0x2002a0, 16, 0x0, 1, .harness, [⟨15, 0, .rc, false⟩, ⟨31, 16, .rc, false⟩]⟩,
  ⟨"ACU_SKEW_SEL", 0x200300, 16, 0x0, 1, .harness, [⟨3, 0, .rw, false⟩, ⟨9, 4, .rw, false⟩]⟩,
  ⟨"ACU_SKEW_DATA", 0x200304, 16, 0x0, 1, .harness, [⟨15, 0, .ro, false⟩, ⟨23, 16, .ro, false⟩, ⟨24, 24, .ro, false⟩]⟩,
  ⟨"SCU_SPIN", 0x300000, 8, 0x0, 1, .motion, [⟨3, 0, .ro, false⟩, ⟨4, 4, .ro, false⟩, ⟨5, 5, .ro, false⟩, ⟨6, 6, .ro, false⟩, ⟨7, 7, .ro, false⟩, ⟨10, 8, .ro, false⟩]⟩,
  ⟨"SCU_SPEED", 0x300004, 8, 0x0, 1, .motion, [⟨19, 0, .ro, false⟩]⟩,
  ⟨"SCU_BUS", 0x300008, 8, 0x0, 1, .motion, [⟨15, 0, .ro, false⟩, ⟨27, 16, .ro, false⟩, ⟨28, 28, .ro, false⟩]⟩,
  ⟨"SCU_CTRL", 0x300010, 8, 0x0, 1, .motion, [⟨12, 0, .rwk, true⟩, ⟨18, 16, .wo, false⟩]⟩,
  ⟨"SCU_OBS_CFG", 0x300014, 8, 0x0, 1, .motion, [⟨6, 0, .rw, true⟩, ⟨15, 8, .rw, true⟩]⟩,
  ⟨"SCU_CHOP", 0x300018, 8, 0x0, 1, .motion, [⟨0, 0, .w1c, false⟩, ⟨1, 1, .w1c, false⟩, ⟨2, 2, .w1c, false⟩, ⟨3, 3, .w1c, false⟩, ⟨4, 4, .ro, false⟩]⟩,
  ⟨"SCU_PWM_STAT", 0x30001c, 8, 0x0, 1, .motion, [⟨2, 0, .ro, false⟩, ⟨5, 3, .ro, false⟩, ⟨6, 6, .ro, false⟩]⟩,
  ⟨"SCU_CNT_LOSS", 0x300040, 8, 0x0, 1, .motion, [⟨15, 0, .rc, false⟩, ⟨31, 16, .rc, false⟩]⟩,
  ⟨"SCU_CNT_PWM", 0x300044, 8, 0x0, 1, .motion, [⟨15, 0, .rc, false⟩, ⟨31, 16, .rc, false⟩]⟩,
  ⟨"SCU_CNT_CHOP", 0x300048, 8, 0x0, 1, .motion, [⟨15, 0, .rc, false⟩, ⟨31, 16, .rc, false⟩]⟩,
  ⟨"SCU_CNT_START", 0x30004c, 8, 0x0, 1, .motion, [⟨15, 0, .rc, false⟩, ⟨31, 16, .rc, false⟩]⟩,
  ⟨"SCU_CLE_SEL", 0x300100, 8, 0x0, 1, .motion, [⟨1, 0, .rw, false⟩, ⟨5, 2, .rw, false⟩, ⟨8, 6, .rw, false⟩, ⟨9, 9, .rw, false⟩]⟩,
  ⟨"SCU_CLE_DATA", 0x300104, 8, 0x0, 1, .motion, [⟨23, 0, .rw, true⟩]⟩,
  ⟨"SCU_CLE_CTRL", 0x300108, 8, 0x0, 1, .motion, [⟨11, 0, .rw, false⟩, ⟨15, 12, .ro, true⟩, ⟨16, 16, .ro, false⟩]⟩,
  ⟨"SCU_CLE_SAT", 0x30010c, 8, 0x0, 1, .motion, [⟨11, 0, .w1c, false⟩, ⟨12, 12, .w1c, false⟩]⟩,
  ⟨"UST_LU", 0x400000, 1, 0x4, 256, .loom, [⟨3, 0, .ro, false⟩, ⟨7, 4, .ro, false⟩, ⟨15, 8, .ro, false⟩, ⟨31, 16, .ro, false⟩]⟩,
  ⟨"UST_ACT", 0x400400, 1, 0x4, 16, .loom, [⟨3, 0, .ro, false⟩, ⟨7, 4, .ro, false⟩, ⟨15, 8, .ro, false⟩, ⟨31, 16, .ro, false⟩]⟩,
  ⟨"UST_HDA", 0x400440, 1, 0x4, 8, .loom, [⟨3, 0, .ro, false⟩, ⟨7, 4, .ro, false⟩, ⟨15, 8, .ro, false⟩, ⟨31, 16, .ro, false⟩]⟩,
  ⟨"UST_SEL", 0x400480, 1, 0x0, 1, .loom, [⟨1, 0, .rw, false⟩, ⟨9, 2, .rw, false⟩]⟩,
  ⟨"UST_DRAIN", 0x400484, 1, 0x0, 1, .loom, [⟨15, 0, .ro, false⟩, ⟨31, 16, .ro, false⟩]⟩,
  ⟨"UST_CNT", 0x400490, 1, 0x0, 1, .loom, [⟨15, 0, .rc, false⟩, ⟨31, 16, .rc, false⟩]⟩]

/-- Every register of the space (R422): 256 registers, 1,569 instances. -/
def regTable : List RegDesc :=
  regTable0 ++ regTable1 ++ regTable2 ++ regTable3 ++ regTable4 ++ regTable5 ++ regTable6 ++ regTable7

end Sys2Proof.Machine
end

