-- ==== Sys2Proof/Machine/Resets.lean ====
section
/-! DEFINITION. Reset values: of the registers, as the register tables give them, and of every unit (R370). Values that the spec does not
give are the model's (log entry 1). -/

namespace Sys2Proof.Machine

/-! ### Fault sources (R330) -/

/-- Default severity of a source (R330). -/
def srcDefault (n : Nat) : Nat :=
  if n < 0x80 then
    match n % 8 with
    | 1 => 0 | 7 => 0 | 3 => 2 | 4 => 2 | _ => 1
  else if n < 0xA8 then
    match (n - 0x80) % 5 with
    | 0 => 2 | 1 => 0 | 2 => 2 | 3 => 1 | _ => 3
  else match n with
    | 0xA8 => 0 | 0xA9 => 1 | 0xAA => 2 | 0xAB => 0 | 0xAC => 1 | 0xAD => 1 | 0xAE => 1 | 0xAF => 1 | 0xB0 => 1
    | 0xB1 => 0 | 0xB2 => 1 | 0xB3 => 1 | 0xB4 => 1 | 0xB5 => 4 | 0xB6 => 4 | 0xB7 => 4 | _ => 0

/-- Minimum severity of a source (R330). -/
def srcMin (n : Nat) : Nat :=
  if n < 0x80 then
    match n % 8 with
    | 3 => 1 | 4 => 2 | 6 => 1 | _ => 0
  else if n < 0xA8 then
    match (n - 0x80) % 5 with
    | 0 => 1 | 2 => 2 | 4 => 3 | _ => 0
  else match n with
    | 0xAA => 2 | 0xAF => 1 | 0xB5 => 4 | 0xB6 => 4 | 0xB7 => 1 | _ => 0

/-- Whether a source number is used (R330). -/
def srcUsed (n : Nat) : Bool := decide (n ≤ 0xB8)

/-! ### Registers -/

/-- A register table's words at their reset values, for `n` instances `step` apart. -/
def resetRow (base n step : Nat) (w : Word) : List (Nat × Word) := (List.range n).map (fun i => (base + step * i, w))

/-- Reset words of registers that stand once per address, in ascending address. -/
def resetPlain : List (Nat × Word) :=
  [(Reg.GLB_ID, 0x01B00816#32), (Reg.GLB_BU_CFG, 0x00FF0005#32), (Reg.PROT_CFG, 0x00003C3C#32), (Reg.FLT_CFG, 1#32),
   (Reg.CAL_CFG, 0x00010000#32), (Reg.JQ_ACT, 0x00000A00#32)]
  ++ resetRow (Reg.SAS_XR_CFG 0) 2 0x10000 0x00000840#32
  ++ [(Reg.INT_ACT_CFG, 20#32), (Reg.INT_STAT, 0x0000A000#32), (Reg.INT_CTX_FMT, 1#32), (Reg.SCH_CFG, 0x04000000#32),
      (Reg.SCH_CFG2, 0x003E8000#32), (Reg.SCH_BG_CFG, 0x003C1400#32), (Reg.SHU_CFG, 10#32), (Reg.SHU_PACE_HO, 0x00004060#32),
      (Reg.SHU_PACE_CO, 0x00000C18#32), (Reg.SHU_JOBQ, 0x00060000#32), (Reg.TMP_STAT, 0x3F#32)]
  ++ resetRow (Reg.CV_CTRL 0) 8 64 6#32
  ++ [(Reg.HED_SCRUB, 0x0001000A#32)]
  ++ (List.range 16).flatMap (fun a =>
      [(Reg.ACU_MOTION a, 0xF0#32), (Reg.ACU_WI_CFG a, 0x00050000#32), (Reg.ACU_CH_CTRL a, 0x1000#32), (Reg.ACU_CH_STAT a, 0xF0#32),
       (Reg.ACU_FR_LAST a, 0x000E0000#32)])
  ++ resetRow (Reg.UST_LU 0) 256 4 0x0000FF01#32 ++ resetRow (Reg.UST_ACT 0) 16 4 0x0000FF01#32 ++ resetRow (Reg.UST_HDA 0) 8 4 0x0000FF01#32

/-- Reset words of registers behind a selection register: severities by source, histogram extremes by histogram. -/
def resetBanks : List (Nat × Word) :=
  (List.range 0xB9).flatMap (fun n =>
    (if srcDefault n = 0 then [] else [(bank n Reg.FLT_SEV, BitVec.ofNat 32 (srcDefault n))])
    ++ (if n < 16 then [(bank n Reg.ER_HIST_MIN, 0x7FFFFFFF#32), (bank n Reg.ER_HIST_MAX, 0x80000000#32)] else []))

/-- The register table at reset. -/
def resetRegs : List (Nat × Word) := resetPlain ++ resetBanks

/-! ### Units -/

def stageNone : Stage := ⟨0, 0, 0, 0, 0, 0, 0, 0, 0, 0⟩
def loopNone : Loop := ⟨0, Vector.replicate 12 stageNone, 0#12, 0#12, false, []⟩

/-- An actuator control unit as its domain leaves reset: in RAMP, gates off, DACs at mid-scale. -/
def acuReset : Acu :=
  { clocked := false, state := .ramp, head := none, servoLock := false, rdOk := false, wrOk := false, lastCmd := none, report := none
    pesLim := 0#32, wiCfg := 0x00050000#32, settleCfg := 0#32, refPos := 0, refVel := 0, refAcc := 0, lastPes := 0, pesValid := false
    folWedge := false, pos := 0, posCyl := 0, wedge := 0, lockRun := 0, missRun := 0, rdRun := 0, wrRun := 0
    tolRun := 0, settleWedges := 0, seek := none, park := none, latchRun := 0, bemf := 0, lastSense := 0, shockIn := false, shockLeft := none
    shockCheck := false, masatRun := 0, warpCause := false, rotorIn := false, speedIn := true, speed16 := 0, vbus := 0, um := 0, ym := 0
    curCmd := 0, duty := 0, gatesOn := false, dacPos := 0x8000#16, dacNeg := 0x8000#16, coilR := 0, calWin := none, loops := Vector.replicate 4 loopNone }

def pulseNone : Pulse := ⟨0, 0, 0, 20000, false, false⟩
def widthsNone : Widths := ⟨0, 0, 0⟩

/-- A spindle control unit as its domain leaves reset: STOPPED, gates off. -/
def scuReset : Scu :=
  { clocked := false, state := .stopped, gates := .off, dirRev := false, obsLock := false, inTol := false, tolRun := 0, tries := 0
    speed16 := 0, fromWarp := false, obsSpeed := 0, lastSpeed := 0, shortSpeed := 0, shortLow := false, lockLow := false, lockHigh := false
    warpLow := none, warpHigh := none, idxLow := none, idxHigh := none, refSpeed := 0, refAcc := 0, vbus := 0, vbusLast := 0, ichop := 0, theta := 0
    eEst := (0, 0), iLast := (0, 0), iUsed := (0, 0), iPhase := (0, 0, 0)
    vLast := widthsNone, curW := widthsNone, next := widthsNone, issued := (pulseNone, pulseNone, pulseNone)
    unmeas := false, ended := (pulseNone, pulseNone, pulseNone), endedUnmeas := false, carry := none
    dtPeriods := 0, goodRun := 0, badRes := 0, badSpeed := 0, lossPending := false, rotor := false, catching := false
    catchFails := 0, startFails := 0, measuring := false, fromBushold := false, afterZv := .align, coastToZv := false, tryWait := false, qCmd := 0
    chopOn := false, chopAt := 0, chopHold := false, olPeriods := 0, olAngle := 0, alignAt := 0, zcPeriods := 0, waitPlace := false
    loops := Vector.replicate 4 loopNone }

def frontNone : FrontEnd := ⟨0, 0, 0, [], 0⟩

/-- A channel island as it leaves reset: no head selected, its link free, every buffer empty, and the outcome that ACU_FR_LAST's reset value
shows. -/
def chanReset : Chan :=
  { clocked := false, locked := false, holdover := false, pll := ⟨0, 0, 0, false, 0, 0⟩, zone := 0, frame := 0, goodMarks := 0, badFrames := 0, slipFrame := none
    framingHeld := false, paHeld := false, head := none, writing := false, gate := false, lastGate := 0, pass := none, cur := none
    lastWrite := false, stage := [], decoding := [], reed := [], retryReq := [], out := [], failed := [], paFault := false
    due := [], link := .free, settling := false, paWaiting := false, adaptCal := false, adaptReset := false, adapt := frontNone, atBound := 0#5
    retryEn := true, nextSeq := 0, lastIter := 0, finalOutcome := 0x000E0000#32, skew := [], skewShown := [], written := none }

/-- A Jacquard store with nothing in it. -/
def storeReset : Store :=
  { active := none, staging := none, stgValid := false, slot := false, running := false, held := false, pc := 0
    lcnt := 0, flags := 0#4, sat := false, acc := 0, file := [], ports := [], out := 0#45, irqs := 0, armed := false, waitIdle := false }

def hedReset : Heddle := ⟨[], [], [], 0, [], none⟩
def creelReset : Creel := ⟨Vector.replicate 65 ⟨[], none, false⟩, [], [], []⟩

/-- A Shuttle channel in IDLE. -/
def chIdle : ShuCh := ⟨.idle, none, false, 0, 0, 0, none, none, 0, false, 0#64, 0#64, none, false⟩

def shuReset : Shuttle :=
  { ch := Vector.replicate 64 chIdle, hostQ := [], overflow := [], bank := false, store := Vector.replicate 2 [], info := Vector.replicate 2 []
    kinds := Vector.replicate 2 [], hostOut := Vector.replicate 2 [], cipherOut := Vector.replicate 16 [], cipherIn := Vector.replicate 16 []
    rx := [] }

/-- The cipher with the key slots it keeps. -/
def cipReset (keys : List (Nat × List Byte)) : Cipher := ⟨keys, Vector.replicate 8 0#32, [], [], Vector.replicate 4 none, 0, none, false⟩

def templeReset : Temple := ⟨Vector.replicate 48 ⟨0, [], .invalid, false, 0, false⟩, [], 0, none, none⟩

def zonesReset : Zones := ⟨templeReset, [], [], [], [], [], [], [], [], [], 0, [], [], []⟩

def intakeReset : Intake :=
  { ctxs := [], admq := [], uas := [], exceptions := [], nextSeq := 0, actBy := none, armAgain := false, verifyFrom := 0, initTab := []
    tmfs := [], sent := Vector.replicate 2 [], logs := [], modes := [], selftests := [], attached := Vector.replicate 8 0#64, diagWritten := [] }

def schReset : Sch := ⟨none, none, none, [], false, 0, 0, false⟩
def calReset : CalRun := ⟨false, false, Vector.replicate 2 [], false, 0, [], false, 0, 0⟩
def sessReset : Sess := ⟨.closed, .observer, 0, false, 0⟩

/-- The endpoint with what its one-time-programmable bits hold (R350). -/
def endpointReset (svnMin : Nat) (revoked : List Nat) : Endpoint := ⟨none, 0#8, none, [], [], [], svnMin, revoked, none, none, false⟩

/-- The recorder with no ring: nothing has been written to its region. -/
def recorderReset : Recorder := ⟨0, 0, 0, false, 0, [], 0, [], none, [], [], none, -128, -128, 0⟩

/-- Power off: no rail is up and nothing has been released. -/
def powerReset : Power :=
  { released := false, mainHi := false, motHi := false, mbusHi := false, firstFell := none, phase := .held, sysLow := false, soft := false
    cause := 0, hbmRefresh := 0, stbyValid := false, lg := none, offSecs := 0, mot := Vector.replicate 8 none, buRun := Vector.replicate 8 false
    buStart := Vector.replicate 8 0, placed := Vector.replicate 8 false, tables := Vector.replicate 16 false
    stopWait := Vector.replicate 16 false, hdaStop := Vector.replicate 8 false, buDue := none, mbusDelay := false, portsOn := false, errnLow := false }

end Sys2Proof.Machine
end

