-- ==== Sys2Proof/Machine/State.lean ====
section
/-! DEFINITION. The state of the part, whole, as plain data, and the state right after reset: power off, before
power-on release. -/

namespace Sys2Proof.Machine

/-- The state. Every register of the space stands in `regs`; the rest is what the spec gives the units beside them. -/
structure State where
  pending : List Instr
  now : Nat
  free : Nat
  regs : List (Nat × Word)
  power : Power
  cfg : ImgCfg
  chan : Vector Chan 16
  retry : Vector (Option RetryJob) 4
  retryTurn : Nat
  acu : Vector Acu 16
  scu : Vector Scu 8
  cross : List (Crossing × XFifo)
  raised : List Raise
  applied : List (Nat × Nat)
  own : List (Nat × Nat)
  rcd : Recorder
  sess : Vector Sess 4
  drains : List Drain
  journal : List (List Byte)
  jpend : List JEntry
  jwait : List (Nat × JWait)
  jseq : Nat
  flash : List Host.Cell
  dirA : List Byte
  dirB : List Byte
  dirDue : Option BootDir
  staging : Staging
  loader : LoaderPhase
  jq : Vector Store 64
  jqLeft : Bool
  hed : Heddle
  hbm : List Host.Cell
  creel : Creel
  shu : Shuttle
  cip : Cipher
  zones : Zones
  intake : Intake
  sch : Vector Sch 16
  cal : Vector CalRun 8
  calRef : List (Nat × List (Int × Int))
  mgmt : Endpoint
  img : Option ImageFile
  cand : Option ImageFile
  deriving DecidableEq, Repr

/-- No event of the model stops the machine with a fault: the spec gives the block no state in which it stops for good. -/
inductive Fault
  deriving DecidableEq, Repr

/-- Why a command is refused. -/
inductive Refusal
  | notModelled (mnemonic : String)
  deriving DecidableEq, Repr

/-- The state right after reset: power off, before power-on release (R364), with every register at its reset value, nothing in the flash
and no command waiting. -/
def State.reset : State :=
  { pending := [], now := 0, free := 0, regs := resetRegs, power := powerReset, cfg := ImgCfg.none
    chan := Vector.replicate 16 chanReset, retry := Vector.replicate 4 none, retryTurn := 0
    acu := Vector.replicate 16 acuReset, scu := Vector.replicate 8 scuReset, cross := [], raised := [], applied := [], own := []
    rcd := recorderReset, sess := Vector.replicate 4 sessReset, drains := [], journal := [], jpend := [], jwait := [], jseq := 0
    flash := [], dirA := [], dirB := [], dirDue := none, staging := ⟨none, false, 0, none⟩, loader := .idle
    jq := Vector.replicate 64 storeReset, jqLeft := false, hed := hedReset, hbm := [], creel := creelReset, shu := shuReset
    cip := cipReset [], zones := zonesReset, intake := intakeReset, sch := Vector.replicate 16 schReset
    cal := Vector.replicate 8 calReset, calRef := [], mgmt := endpointReset 0 [], img := none, cand := none }

end Sys2Proof.Machine
end

