-- ==== Sys2Proof/Machine/Ops.lean ====
section
/-! DEFINITION. The named operations every meaning is built from: registers and their fields, units, counters,
crossings, and the write permit of an actuator. -/

namespace Sys2Proof.Machine

/-! ### Registers (R4, R5) -/

/-- The word at key `k` of the register table; a register nothing has written reads its reset value, which is zero
for an unlisted key. -/
def State.reg (s : State) (k : Nat) : Word := sget 0#32 s.regs k

/-- Set the word at key `k`. -/
def State.setReg (s : State) (k : Nat) (w : Word) : State := { s with regs := sset 0#32 s.regs k w }

/-- A field of the register at key `k`. -/
def State.getF (s : State) (k : Nat) (f : Fld) : Nat := f.get (s.reg k)

/-- Whether a one-bit field is 1. -/
def State.bitF (s : State) (k : Nat) (f : Fld) : Bool := s.getF k f != 0

/-- Set a field; the other bits stay. -/
def State.setF (s : State) (k : Nat) (f : Fld) (v : Nat) : State := s.setReg k (f.set (s.reg k) v)

def b2n (b : Bool) : Nat := if b then 1 else 0

def State.setB (s : State) (k : Nat) (f : Fld) (b : Bool) : State := s.setF k f (b2n b)

/-- Add to a counter field, which stays at its maximum until it is read (the RC counters of every chapter). -/
def State.addF (s : State) (k : Nat) (f : Fld) (n : Nat) : State := s.setF k f (min f.max (s.getF k f + n))

def State.incF (s : State) (k : Nat) (f : Fld) : State := s.addF k f 1

/-- Set or clear bit `i` of the register at key `k`. -/
def State.setBit (s : State) (k i : Nat) (b : Bool) : State := s.setF k ⟨i, i⟩ (b2n b)

def State.bit (s : State) (k i : Nat) : Bool := s.getF k ⟨i, i⟩ != 0

/-- The n-bit two's-complement pattern of an integer, as a number. -/
def twos (n : Nat) (x : Int) : Nat := (x % (2 ^ n : Int)).toNat

/-- The integer an n-bit two's-complement pattern stands for. -/
def signed (n x : Nat) : Int := if x % 2 ^ n < 2 ^ (n - 1) then ((x % 2 ^ n : Nat) : Int) else ((x % 2 ^ n : Nat) : Int) - 2 ^ n

/-- A field whose zero is taken as one (PES_LIM.COUNT and its like). -/
def atLeast1 (n : Nat) : Nat := if n = 0 then 1 else n

/-! ### Units -/

def State.modChan (s : State) (a : Act) (f : Chan → Chan) : State := { s with chan := s.chan.set a (f s.chan[a]) }
def State.modAcu (s : State) (a : Act) (f : Acu → Acu) : State := { s with acu := s.acu.set a (f s.acu[a]) }
def State.modScu (s : State) (h : Hda) (f : Scu → Scu) : State := { s with scu := s.scu.set h (f s.scu[h]) }
def State.modPower (s : State) (f : Power → Power) : State := { s with power := f s.power }
def State.modRcd (s : State) (f : Recorder → Recorder) : State := { s with rcd := f s.rcd }

/-- The lower actuator 2h and the upper actuator 2h + 1 of HDA h. -/
def lowAct (h : Hda) : Act := ⟨2 * h.val, by omega⟩
def highAct (h : Hda) : Act := ⟨2 * h.val + 1, by omega⟩
/-- The HDA of an actuator. -/
def hdaOf (a : Act) : Hda := ⟨a.val / 2, by omega⟩

def allActs : List Act := List.finRange 16
def allHdas : List Hda := List.finRange 8

/-- Whether the image declares HDA h, actuator a (R7, GLB_GEOM). -/
def State.hasHda (s : State) (h : Hda) : Bool := s.bit Reg.GLB_GEOM h.val
def State.hasAct (s : State) (a : Act) : Bool := s.bit Reg.GLB_GEOM (8 + a.val)

/-- The next free value's index, and the state with the index used. -/
def State.fresh (s : State) : Nat × State := (s.free, { s with free := s.free + 1 })

/-! ### Motion-state and spindle-state codes (R99, R131) -/

def AcuState.code : AcuState → Nat
  | .ramp => 0 | .loading => 1 | .seek => 2 | .settle => 3 | .follow => 4 | .lost => 5 | .parking => 6 | .halted => 7

def ScuState.code : ScuState → Nat
  | .stopped => 0 | .detect => 1 | .align => 2 | .openloop => 3 | .accel => 4 | .run => 5 | .decel => 6
  | .coast => 7 | .zvbrake => 8 | .bushold => 9 | .halted => 10

/-! ### Crossings (R11, R12, R14) -/

/-- The depth in words of a crossing's FIFO (R12). -/
def crossDepth : Crossing → Nat
  | .phyLoom _ _ => 16
  | .loomHarness _ => 32
  | .loomShed _ _ => 4
  | .harnessHbm _ => 16
  | .harnessChan _ _ => 64
  | .harnessShed _ _ => 16
  | .acuChan _ _ => 32
  | .scuAcu _ _ => 4
  | .chanScu _ => 4

/-- The width of a crossing's words in bits (R12). -/
def crossWidth : Crossing → Nat
  | .loomHarness _ => 256
  | .harnessHbm _ => 2048
  | _ => 64

/-- The bits of a message's content; a wedge record fills four 64-bit words (R94). -/
def XMsg.size : XMsg → Nat
  | .report _ _ _ _ => 34
  | .motion _ => 3
  | .lock _ => 1
  | .index _ => 32
  | .seek _ | .seekDone _ => 27
  | .wedge _ => 256
  | .doubt => 1
  | .irq _ => 6
  | .word _ => 64

/-- The words that a message takes on a crossing. -/
def XMsg.total (m : XMsg) (x : Crossing) : Nat := (m.size + crossWidth x - 1) / crossWidth x

def XFifo.empty : XFifo := ⟨[], [], [], none⟩

def xget (x : Crossing) : List (Crossing × XFifo) → XFifo
  | [] => XFifo.empty
  | (y, f) :: t => if y = x then f else xget x t

def xset (x : Crossing) (f : XFifo) : List (Crossing × XFifo) → List (Crossing × XFifo)
  | [] => [(x, f)]
  | (y, g) :: t => if y = x then (x, f) :: t else (y, g) :: xset x f t

/-- Move words that the source holds into the FIFO while it has room (R11). -/
def XFifo.fill (depth : Nat) (f : XFifo) : XFifo :=
  let room := depth - f.fifo.length
  { f with fifo := f.fifo ++ f.held.take room, held := f.held.drop room }

/-- The words of a message of `total` words. -/
def wordsOf (m : XMsg) (total : Nat) : List XWord := (List.range total).map (fun i => ⟨m, i, total⟩)

/-- A source sends a message over a crossing: its words queue behind those it already holds (R11). -/
def State.send (s : State) (x : Crossing) (m : XMsg) : State :=
  let f := xget x s.cross
  { s with cross := xset x (XFifo.fill (crossDepth x) { f with held := f.held ++ wordsOf m (m.total x) }) s.cross }

/-- The island at a crossing's destination is clocked; a destination that is not takes nothing. -/
def State.takesWords (s : State) : Crossing → Bool
  | .scuAcu a true => s.acu[a].clocked
  | .scuAcu a false => s.scu[hdaOf a].clocked
  | .chanScu a => s.scu[hdaOf a].clocked
  | .acuChan a true => s.chan[a].clocked
  | .acuChan a false => s.acu[a].clocked
  | .harnessChan a true => s.chan[a].clocked
  | .loomShed u true | .harnessShed u true => (match u with | .acu a => s.acu[a].clocked | .scu h => s.scu[h].clocked)
  | _ => true

/-- Nothing waits in a crossing, and its destination takes words. -/
def State.crossFree (s : State) (x : Crossing) : Bool :=
  let f := xget x s.cross
  s.takesWords x && f.fifo.isEmpty && f.held.isEmpty && f.partial_.isEmpty

/-- A message crosses (R11): with nothing ahead of it its words pass within the step, and `act` is what its destination does with it; otherwise they
queue behind those that wait, and it acts when CROSSING_WORD has delivered its last word (log entry 41). -/
def State.carry (s : State) (x : Crossing) (m : XMsg) (act : State → State) : State :=
  if s.crossFree x then act { s with cross := xset x { xget x s.cross with last := some m } s.cross } else s.send x m

/-- A crossing is cleared when either island it joins is reset; partial messages are discarded (R14). -/
def State.clearCross (s : State) (p : Crossing → Bool) : State :=
  { s with cross := s.cross.filter (fun e => !p e.1) }

/-! ### Jacquard stores as their units see them (R149, R162, R163) -/

/-- Store q is FAILED. -/
def State.storeFailed (s : State) (q : Nat) : Bool :=
  if q < 32 then s.bit Reg.JQ_FAIL_LO q else s.bit Reg.JQ_FAIL_HI (q - 32)

/-- The sequencer of store q is not held by a fall-back or a failure. -/
def State.seqOk (s : State) (q : Fin 64) : Bool := !s.jq[q].held && !s.storeFailed q.val

def framerStore (a : Act) : Fin 64 := ⟨a.val, by omega⟩
def wedgeStore (a : Act) : Fin 64 := ⟨16 + a.val, by omega⟩
def acuStore (a : Act) : Fin 64 := ⟨32 + a.val, by omega⟩
def sampleStore (h : Hda) : Fin 64 := ⟨48 + h.val, by omega⟩
def scuStore (h : Hda) : Fin 64 := ⟨56 + h.val, by omega⟩

/-! ### Raises that wait for their reaction -/

/-- The severity a source has now. -/
def State.sevOf (s : State) (src : Nat) : Nat := s.getF (bank src Reg.FLT_SEV) Fld.FLT_SEV_SEV

/-- A raise made in the middle of another step: it is kept for the collector, which carries out its reaction when it takes it
(R331, R338; log entry 9). -/
def noteRaise (src : Nat) (u : FUnit) (s : State) : State :=
  { s with raised := s.raised ++ [⟨src, u, s.sevOf src, s.power.phase == .held, false, false⟩] }

/-! ### The write gate and the write permit (R57, R109 to R112) -/

/-- Note what ends the pass of actuator a early, and where (R202, R203); a sector cut short leaves its command with a part-written
slot. -/
def noteEnd (a : Act) (tag : Nat) (cut : Bool) (s : State) : State :=
  let live := s.getF (Reg.ACU_WI_STAT a) Fld.ACU_WI_STAT_LIVE
  let cause := if live % 4 ≠ 0 then 1 else if s.chan[a].paFault then 2 else 3
  match s.sch[a].pass with
  | some p =>
    let hit (c : Nat) : Bool := cut && p.blks.any (fun b => b.ctx == c && b.tag == tag && !b.erase)
    { s with
      sch := s.sch.set a { s.sch[a] with pass := some { p with endCause := cause, endTag := tag } }
      intake := { s.intake with ctxs := s.intake.ctxs.map (fun e => (e.1, if hit e.1 then { e.2 with part := true } else e.2)) } }
  | none => s

/-- Release the write gate of channel a. A release during a sector ends the write's media pass at that slot and
counts in CNT_WI.WRITE_STOP (R111). -/
def releaseGate (a : Act) (s : State) : State :=
  let c := s.chan[a]
  if c.gate then
    let s0 := match c.cur with | some r => noteEnd a r.slot true s | none => s
    let s1 := s0.modChan a (fun c => { c with gate := false, lastGate := s.now, cur := none, pass := none })
    s1.incF (Reg.ACU_CNT_WI a) Fld.ACU_CNT_WI_WRITE_STOP
  else s

/-- |PES| of the last wedge above a limit. -/
def Acu.pesAbove (u : Acu) (lim : Nat) : Bool := decide (lim < u.lastPes.natAbs)

/-- The microactuator has been saturated for MASAT_N wedges (R109 bit 5). -/
def State.masatPresent (s : State) (a : Act) : Bool := decide (atLeast1 (Fld.ACU_WI_CFG_MASAT_N.get s.acu[a].wiCfg) ≤ s.acu[a].masatRun)

/-- The write criterion of R107 is met: WR_N consecutive wedges. -/
def State.wrMet (s : State) (a : Act) : Bool := decide (atLeast1 (Fld.ACU_SETTLE_CFG_WR_N.get s.acu[a].settleCfg) ≤ s.acu[a].wrRun)

/-- The read criterion of R107 is met: RD_N consecutive wedges. -/
def State.rdMet (s : State) (a : Act) : Bool := decide (atLeast1 (Fld.ACU_SETTLE_CFG_RD_N.get s.acu[a].settleCfg) ≤ s.acu[a].rdRun)

/-- The causes of R109 present now, as bits 0 to 9 of WI_STAT.LIVE, under the limits in force since the last wedge. PES and MISS are judged on wedges
in FOLLOW only. -/
def State.wiLive (s : State) (a : Act) : Nat :=
  let u := s.acu[a]
  let fol := u.state == AcuState.follow
  b2n (fol && u.folWedge && u.pesValid && u.pesAbove (Fld.ACU_PES_LIM_WINDOW.get u.pesLim))
  + 2 * b2n (fol && u.folWedge && !u.pesValid)
  + 4 * b2n (u.shockIn || u.shockLeft.isSome)
  + 8 * b2n u.rotorIn
  + 16 * b2n u.speedIn
  + 32 * b2n (s.masatPresent a)
  + 64 * b2n (!s.wrMet a)
  + 128 * b2n u.warpCause
  + 256 * b2n (!fol)
  + 512 * Fld.ACU_WI_CFG_FORCE.get u.wiCfg

/-- Recompute the causes: LIVE shows them, LATCHED keeps them, and while any is present the permit is withdrawn and
the write gate released over its path (R109, R17). -/
def refreshWi (a : Act) (s : State) : State :=
  let live := s.wiLive a
  let s1 := s.setF (Reg.ACU_WI_STAT a) Fld.ACU_WI_STAT_LIVE live
  let s2 := s1.setF (Reg.ACU_WI_STAT a) Fld.ACU_WI_STAT_LATCHED
    (s1.getF (Reg.ACU_WI_STAT a) Fld.ACU_WI_STAT_LATCHED ||| live)
  if live = 0 then s2
  else releaseGate a (s2.modAcu a (fun u => { u with wrOk := false }))

/-- Refresh both actuators of an HDA. -/
def refreshWiHda (h : Hda) (s : State) : State := refreshWi (highAct h) (refreshWi (lowAct h) s)

/-- Do the same for every actuator, every HDA. -/
def forActs (f : Act → State → State) (s : State) : State := allActs.foldl (fun s a => f a s) s
def forHdas (f : Hda → State → State) (s : State) : State := allHdas.foldl (fun s h => f h s) s

end Sys2Proof.Machine
end

