-- ==== Sys2Proof/Machine/RecOps.lean ====
section
/-! DEFINITION. Shared operations of the Loom that every family uses: sessions' permissions, byte layouts, the
recorder's queue and its histograms (R385, R410, R412, R417, R419). -/

namespace Sys2Proof.Machine

/-! ### Bytes (R2) -/

/-- `n` bytes of a number, least significant first. -/
def leBytes : Nat → Nat → List Byte
  | 0, _ => []
  | n + 1, x => BitVec.ofNat 8 x :: leBytes n (x / 256)

/-- The number that bytes spell, least significant first. -/
def leNat : List Byte → Nat
  | [] => 0
  | b :: t => b.toNat + 256 * leNat t

/-- `n` bytes of a number, most significant first (the order of the published standards). -/
def beBytes (n x : Nat) : List Byte := (leBytes n x).reverse
def beNat (l : List Byte) : Nat := leNat l.reverse

def zeros (n : Nat) : List Byte := List.replicate n 0#8

/-- Pad with zero bytes to `n`. -/
def padTo (n : Nat) (l : List Byte) : List Byte := l ++ zeros (n - l.length)

/-! ### Sessions (R384, R385) -/

def Role.rank : Role → Nat | .observer => 1 | .operator => 2 | .keeper => 3

/-- Session n is open. -/
def State.isOpen (s : State) (n : Fin 4) : Bool := s.sess[n].phase == .opened

/-- Session n is open and has the permissions of a role (each role has those of the roles below it). -/
def State.may (s : State) (n : Fin 4) (r : Role) : Bool := s.isOpen n && decide (r.rank ≤ s.sess[n].role.rank)

/-! ### Timestamps and records (R410, R412, R417) -/

/-- The 64-bit event timestamp of R410. -/
def State.stamp (s : State) : Nat := s.rcd.cycles % 2 ^ 24 * 2 ^ 40 + s.rcd.hours % 2 ^ 28 * 2 ^ 12 + s.rcd.secs

/-- LEN of a record with so many payload bytes: the payload padded so that LEN is a multiple of 16. -/
def recLen (payload : Nat) : Nat := (payload + 24 + 15) / 16 * 16

def bufUsed (l : List Rec) : Nat := (l.map (fun r => recLen r.payload.length)).foldl (· + ·) 0

/-- Put a record with its SEQ into the 64 KiB buffer, or drop and count it (R417). -/
def pushRec (typ : Nat) (time : Nat) (payload : List Byte) (s : State) : State :=
  if bufUsed s.rcd.buf + recLen payload.length ≤ 65536 then
    s.modRcd (fun r => { r with buf := r.buf ++ [⟨typ, r.nextSeq, time, payload⟩], nextSeq := r.nextSeq + 1 })
  else (s.incF Reg.ER_LOST Fld.ER_LOST_DROPPED).modRcd (fun r => { r with lostNow := r.lostNow + 1 })

/-- BUF_USED shows the bytes in use, saturating. -/
def showBuf (s : State) : State :=
  s.setF Reg.ER_STAT Fld.ER_STAT_BUF_USED (min 65535 (bufUsed s.rcd.buf))

/-- Write a record: a LOST record goes before the next record after any drop (R414); a buffer that has stopped
accepting at a reset takes nothing (R417). -/
def record (typ : Nat) (time : Nat) (payload : List Byte) (s : State) : State :=
  if s.rcd.accepting then
    let s1 := if s.rcd.lostNow = 0 then s
      else
        let n := s.rcd.lostNow
        let s' := pushRec 0x000A s.stamp (leBytes 4 n) s
        if s'.rcd.lostNow = n then s'.modRcd (fun r => { r with lostNow := 0 }) else s'
    showBuf (pushRec typ time payload s1)
  else s

/-- A record at the present time. -/
def recordNow (typ : Nat) (payload : List Byte) (s : State) : State := record typ s.stamp payload s

/-! ### Histograms (R419) -/

/-- The bin of a sample: (v − BASE) >> SHIFT, below 0 in bin 0, above 31 in bin 31. -/
def histBin (v base : Int) (shift : Nat) : Nat :=
  let i := (v - base) / (2 ^ shift : Int)
  if i < 0 then 0 else if 31 < i then 31 else i.toNat

/-- A sample for histogram n. -/
def histAdd (n : Nat) (v : Int) (s : State) : State :=
  let base := signed 32 (s.reg (bank n Reg.ER_HIST_BASE)).toNat
  let shift := s.getF (bank n Reg.ER_HIST_CFG) Fld.ER_HIST_CFG_SHIFT
  let s1 := s.incF (bank n (Reg.ER_HIST_BIN (histBin v base shift))) Fld.ER_HIST_BIN_COUNT
  let mn := signed 32 (s1.reg (bank n Reg.ER_HIST_MIN)).toNat
  let mx := signed 32 (s1.reg (bank n Reg.ER_HIST_MAX)).toNat
  let s2 := if v < mn then s1.setF (bank n Reg.ER_HIST_MIN) Fld.ER_HIST_MIN_MIN (twos 32 v) else s1
  if mx < v then
    ((s2.setF (bank n Reg.ER_HIST_MAX) Fld.ER_HIST_MAX_MAX (twos 32 v)).setF (bank n Reg.ER_HIST_MAXT_LO)
      Fld.ER_HIST_MAXT_LO_TIME (s.stamp % 2 ^ 32)).setF (bank n Reg.ER_HIST_MAXT_HI) Fld.ER_HIST_MAXT_HI_TIME (s.stamp / 2 ^ 32)
  else s2

/-- A sample of a quantity in a scope: every histogram that watches it counts it. Scope 0xFF of a histogram of
quantities 1 and 2 takes every LU; the die temperature has no scope. -/
def sample (qty scope : Nat) (v : Int) (s : State) : State :=
  (List.range 16).foldl (fun s n =>
    let q := s.getF (bank n Reg.ER_HIST_CFG) Fld.ER_HIST_CFG_QTY
    let sc := s.getF (bank n Reg.ER_HIST_CFG) Fld.ER_HIST_CFG_SCOPE
    if q = qty ∧ q ≠ 0 ∧ (sc = scope ∨ q = 10 ∨ ((q = 1 ∨ q = 2) ∧ sc = 0xFF)) then histAdd n v s else s) s

/-- A histogram's bins, MIN and MAX are cleared, and with MAX its time. -/
def clearHist (n : Nat) (s : State) : State :=
  let s1 := (List.range 32).foldl (fun s i => s.setReg (bank n (Reg.ER_HIST_BIN i)) 0#32) s
  let s2 := (s1.setReg (bank n Reg.ER_HIST_MIN) 0x7FFFFFFF#32).setReg (bank n Reg.ER_HIST_MAX) 0x80000000#32
  (s2.setReg (bank n Reg.ER_HIST_MAXT_LO) 0#32).setReg (bank n Reg.ER_HIST_MAXT_HI) 0#32

/-- A histogram takes a configuration; its counts go with the old one (R419). -/
def setHist (n : Nat) (cfg base : Word) (s : State) : State :=
  clearHist n ((s.setReg (bank n Reg.ER_HIST_CFG) cfg).setReg (bank n Reg.ER_HIST_BASE) base)

/-! ### Self-test results and checkpoints (R186, R230, R420) -/

/-- A parameter of log page 0x10, 20 bytes, in the positions of the published standard (log entry 14): parameter code, control, length,
code and result, number, hours, then what this part does not fill. A result above 15 is a test in progress that has seen a failure. -/
def selftestParam (i : Nat) (t : Nat × Nat × Nat) : List Byte :=
  beBytes 2 (i + 1) ++ [0x03#8, 0x10#8, BitVec.ofNat 8 (32 * (t.1 % 8) + t.2.1 % 16), 0#8] ++ beBytes 2 (min 65535 t.2.2)
    ++ List.replicate 8 0xFF#8 ++ zeros 4

/-- The twenty parameters, newest first; one that has no result yet is zero past its length byte. -/
def State.selftestParams (s : State) : List Byte :=
  (List.range 20).flatMap (fun i => match s.intake.selftests[i]? with
    | some t => selftestParam i t
    | none => beBytes 2 (i + 1) ++ [0x03#8, 0x10#8] ++ zeros 16)

/-- Histogram n in a checkpoint: 152 bytes. -/
def State.histBytes (s : State) (n : Nat) : List Byte :=
  let k := bank n Reg.ER_HIST_CFG
  let w (r : Nat) : List Byte := leBytes 4 (s.reg (bank n r)).toNat
  leBytes 1 (s.getF k Fld.ER_HIST_CFG_QTY) ++ leBytes 1 (s.getF k Fld.ER_HIST_CFG_SCOPE) ++ leBytes 1 (s.getF k Fld.ER_HIST_CFG_SHIFT)
    ++ [0#8] ++ w Reg.ER_HIST_BASE ++ w Reg.ER_HIST_MIN ++ w Reg.ER_HIST_MAX ++ w Reg.ER_HIST_MAXT_LO ++ w Reg.ER_HIST_MAXT_HI
    ++ (List.range 32).flatMap (fun i => w (Reg.ER_HIST_BIN i))

/-- A CHECKPOINT record (R420). -/
def checkpoint (s : State) : State :=
  recordNow 0x0008 ((List.range 16).flatMap s.histBytes ++ s.selftestParams ++ leBytes 1 (twos 8 s.rcd.maxHda) ++ leBytes 1 (twos 8 s.rcd.maxDie)
    ++ zeros 2 ++ leBytes 4 s.rcd.clearGen ++ zeros 8) s

end Sys2Proof.Machine
end

