-- ==== Sys2Proof/Machine/Codec.lean ====
section
/-! DEFINITION. Codes of the medium and of HBM3: CRC-32C (R33), the LDPC encoder (R62 to R65), the bytes of a
physical sector (R30), the Selvedge (R33, R34). -/

namespace Sys2Proof.Machine

/-! ### CRC-32C (R33) -/

/-- One bit of the reflected CRC: polynomial 0x1EDC_6F41 reflected. -/
def crcBit (c : BitVec 32) : BitVec 32 := if c.getLsbD 0 then (c >>> 1) ^^^ 0x82F63B78#32 else c >>> 1

def crcByte (c : BitVec 32) (b : Byte) : BitVec 32 :=
  let x := c ^^^ b.setWidth 32
  crcBit (crcBit (crcBit (crcBit (crcBit (crcBit (crcBit (crcBit x)))))))

/-- CRC-32C with the parameters of R33. -/
def crc32c (l : List Byte) : BitVec 32 := l.foldl crcByte 0xFFFFFFFF#32 ^^^ 0xFFFFFFFF#32

/-! ### LDPC (R62 to R65) -/

/-- The n-th bit in recording order of a byte string: bit 7 of each byte first (R31). -/
def streamBit (l : List Byte) (n : Nat) : Bool := (l.getD (n / 8) 0#8).getLsbD (7 - n % 8)

/-- Sixteen bytes as block column bits: bit y of the column is the y-th bit of the column in recording order. -/
def colBits (l : List Byte) : BitVec 128 :=
  (List.range 128).foldl (fun (v : BitVec 128) y => if streamBit l y then v ||| (1#128 <<< y) else v) 0#128

/-- The information columns of a protected field, in order. -/
def infoCols : Nat → List Byte → List (BitVec 128)
  | 0, _ => []
  | n + 1, l => colBits (l.take 16) :: infoCols n (l.drop 16)

/-- Block row and exponent of information column j's m-th block (R63). -/
def ldpcRow (j m : Nat) : Nat := (j + 7 * m) % 29
def ldpcExp (j m : Nat) : Nat := (j * (2 * m + 1) + 19 * m) % 128

/-- Add column j into the row sums of R65. -/
def addCol (s : Vector (BitVec 128) 29) (j : Nat) (u : BitVec 128) : Vector (BitVec 128) 29 :=
  (List.range 4).foldl (fun s m =>
    let r := ldpcRow j m
    if h : r < 29 then s.set r (s[r] ^^^ u.rotateRight (ldpcExp j m)) h else s) s

def rowSums : Nat → Vector (BitVec 128) 29 → List (BitVec 128) → Vector (BitVec 128) 29
  | _, s, [] => s
  | j, s, u :: t => rowSums (j + 1) (addCol s j u) t

/-- The parity columns by accumulation: p[0] = s[0], p[t] = s[t] xor p[t − 1]. -/
def accumulate : BitVec 128 → List (BitVec 128) → List (BitVec 128)
  | _, [] => []
  | p, s :: t => (s ^^^ p) :: accumulate (s ^^^ p) t

/-- The 29 parity columns of a protected field. -/
def parityCols (field : List Byte) : List (BitVec 128) :=
  accumulate 0#128 (rowSums 0 (Vector.replicate 29 0#128) (infoCols 259 field)).toList

/-- A column's sixteen bytes, bit 7 first. -/
def colBytes (v : BitVec 128) : List Byte :=
  (List.range 16).map (fun i =>
    (List.range 8).foldl (fun (b : Byte) k => if v.getLsbD (8 * i + k) then b ||| (1#8 <<< (7 - k)) else b) 0#8)

/-- The 4,608-byte codeword: the field, then the parity (R31, R65). -/
def ldpcEncode (field : List Byte) : List Byte := field ++ (parityCols field).flatMap colBytes

/-! ### LDPC decoding (R62 to R66) -/

/-- The non-zero blocks of block row r, as column and exponent (R63, R64). -/
def rowBlocks (r : Nat) : List (Nat × Nat) :=
  (List.range 259).flatMap (fun j => (List.range 4).filterMap (fun m => if ldpcRow j m = r then some (j, ldpcExp j m) else none))
  ++ (if r = 0 then [] else [(258 + r, 0)]) ++ [(259 + r, 0)]

/-- The codeword bits of the check in row x of block row r (R62). -/
def parityBits (r x : Nat) : List Nat := (rowBlocks r).map (fun b => 128 * b.1 + (x + b.2) % 128)

/-- The 3,712 checks, layer by layer. -/
def allChecks : List (List Nat) := (List.range 29).flatMap (fun r => (List.range 128).map (parityBits r))

def ratSign (q : Rat) : Rat := if q < 0 then -1 else 1
def ratAbs (q : Rat) : Rat := if q < 0 then -q else q

/-- The least magnitude of a list (zero for an empty one). -/
def minAbs : List Rat → Rat
  | [] => 0
  | [x] => ratAbs x
  | x :: t => if ratAbs x ≤ minAbs t then ratAbs x else minAbs t

/-- The message of a check to one of its bits from the values of its other bits: the product of their signs times their least magnitude,
normalised by 0.75 (R66; exact arithmetic, log entry 45). -/
def checkMsg (others : List Rat) : Rat := 3 / 4 * ((others.map ratSign).prod * minAbs others)

/-- Every bit's message, each from the other bits. -/
def checkMsgs (q : List Rat) : List Rat := (List.range q.length).map (fun i => checkMsg (q.eraseIdx i))

/-- One check of a layer: the messages it sent last leave the values of its bits, and the new ones enter. -/
def checkStep (bits : List Nat) (old : List Rat) (l : Array Rat) : List Rat × Array Rat :=
  let q := List.zipWith (fun v m => l.getD v 0 - m) bits old
  let new := checkMsgs q
  (new, (bits.zip (List.zipWith (· + ·) q new)).foldl (fun l e => l.setIfInBounds e.1 e.2) l)

/-- One iteration over the checks with the messages they sent last. -/
def ldpcIter : List (List Nat × List Rat) → Array Rat → List (List Nat × List Rat) × Array Rat
  | [], l => ([], l)
  | (b, m) :: t, l =>
    let r := checkStep b m l
    let rest := ldpcIter t r.2
    ((b, r.1) :: rest.1, rest.2)

/-- A bit is 1 when its log-likelihood ratio is negative (R73). -/
def hardBit (q : Rat) : Bool := decide (q < 0)

/-- All checks are satisfied by the bits. -/
def checksSatisfied (l : Array Rat) : Bool := allChecks.all (fun b => (b.countP (fun v => hardBit (l.getD v 0))) % 2 == 0)

/-- The bits of a byte string in recording order (R31). -/
def bitsOfBytes (l : List Byte) : List Bool := l.flatMap (fun b => (List.range 8).map (fun i => b.getLsbD (7 - i)))

/-- Bytes of bits in recording order (R31). -/
def bytesOfBits : Nat → List Bool → List Byte
  | 0, _ => []
  | n + 1, l =>
    (List.range 8).foldl (fun (b : Byte) k => if l.getD k false then b ||| (1#8 <<< (7 - k)) else b) 0#8 :: bytesOfBits n (l.drop 8)

/-- What a decoder delivers from its values: the first 33,152 bits as bytes. -/
def decodeResult (ok : Bool) (n : Nat) (l : Array Rat) : DecodeResult :=
  ⟨ok, n, bytesOfBits 4144 ((List.range 33152).map (fun i => hardBit (l.getD i 0)))⟩

/-- Iterations until every check is satisfied or the limit is reached (R66); `n` have been made and `left` may follow. -/
def ldpcLoop : Nat → Nat → List (List Nat × List Rat) → Array Rat → DecodeResult
  | 0, n, _, l => decodeResult false n l
  | left + 1, n, c, l =>
    let r := ldpcIter c l
    if checksSatisfied r.2 then decodeResult true (n + 1) r.2 else ldpcLoop left (n + 1) r.1 r.2

/-- The layered normalised min-sum decoder of R66 over a codeword's log-likelihood ratios in recording order. -/
def ldpcDecode (limit : Nat) (llr : List Rat) : DecodeResult :=
  ldpcLoop limit 0 (allChecks.map (fun b => (b, List.replicate b.length 0))) llr.toArray

/-- A 5-bit log-likelihood ratio saturates at ±15. -/
def llrSat (x : Int) : Int := max (-15) (min 15 x)

/-- The codeword that a cut at offset p takes from a sector's log-likelihood ratios (R80, R83), scaled. -/
def cutAt (p : Int) (scale : Rat) (llrs : List Int) : List Rat :=
  ((llrs.drop (112 + p).toNat).take 36864).map (fun x => scale * (llrSat x : Rat))

/-- The 4,626 bytes of a physical sector (R30). -/
def sectorBytes (field : List Byte) : List Byte :=
  List.replicate 8 0xCC#8 ++ [0x4E#8, 0x2F#8, 0xB1#8, 0x96#8, 0x3A#8, 0xD5#8] ++ ldpcEncode field ++ List.replicate 4 0xCC#8

/-! ### The protected field (R32 to R34) -/

/-- The Selvedge fields of a protected field. -/
structure Selvedge where
  tag : List Byte
  stamp : Nat
  lba : Nat
  attempt : Nat
  lu : Nat
  ztype : Bool
  pifmt : Nat
  reassigned : Bool
  fill : Bool
  cls : Nat
  deriving DecidableEq, Repr

def Selvedge.flags (t : Selvedge) : Nat :=
  b2n t.ztype + 2 * t.pifmt + 8 * b2n t.reassigned + 16 * b2n t.fill + 32 * t.cls

/-- The bytes of a Selvedge before its CRC. -/
def Selvedge.head (t : Selvedge) : List Byte :=
  padTo 16 t.tag ++ leBytes 4 t.stamp ++ leBytes 6 (t.lba % 2 ^ 44 + t.attempt % 16 * 2 ^ 44) ++ leBytes 1 t.lu ++ leBytes 1 t.flags

def selvedgeOf (field : List Byte) : Selvedge :=
  let t := field.drop 4112
  let n := leNat ((t.drop 20).take 6)
  let f := leNat ((t.drop 27).take 1)
  { tag := t.take 16, stamp := leNat ((t.drop 16).take 4), lba := n % 2 ^ 44, attempt := n / 2 ^ 44
    lu := leNat ((t.drop 26).take 1), ztype := f % 2 == 1, pifmt := f / 2 % 4, reassigned := f / 8 % 2 == 1
    fill := f / 16 % 2 == 1, cls := f / 32 }

/-- A protected field from its data, PI field and Selvedge, with the CRC over bytes 0 to 4,139 (R33). -/
def mkField (data pi : List Byte) (t : Selvedge) : List Byte :=
  let h := data ++ padTo 16 pi ++ t.head
  h ++ leBytes 4 (crc32c h).toNat

/-- The CRC of the Selvedge matches bytes 0 to 4,139 (R67). -/
def fieldCrcOk (field : List Byte) : Bool := (crc32c (field.take 4140)).toNat == leNat (field.drop 4140)

/-- A sector that decodes but has CLASS reserved, PIFMT 0b11 or a non-zero byte where zero is required (R33, R34). -/
def malformed (field : List Byte) : Bool :=
  let t := selvedgeOf field
  let pi := (field.drop 4096).take 16
  let zero (l : List Byte) : Bool := l.all (· == 0#8)
  !(t.cls == 1 || t.cls == 7) || t.pifmt == 3 || (t.pifmt == 0 && !zero pi) || (t.pifmt == 1 && !zero (pi.drop 8)) ||
  (t.cls == 7 && !zero t.tag) || (t.cls == 1 && (!t.ztype || t.fill) && t.attempt != 0)

end Sys2Proof.Machine
end

