-- ==== Sys2Proof/Machine/Operands.lean ====
section
/-! DEFINITION. Control-law arithmetic (R101 to R103), coefficient access (R104), and the shared arithmetic of
position, seek profiles and pulses. -/

namespace Sys2Proof.Machine

/-! ### R101, R102 -/

/-- Saturate to −(2^23 − 1) … 2^23 − 1 (R102); the Bool says that it saturated. -/
def sat24 (x : Int) : Int × Bool :=
  if 8388607 < x then (8388607, true) else if x < -8388607 then (-8388607, true) else (x, false)

/-- Round `n / 2^k` to the nearest integer, halves to the even integer (R102). -/
def roundHalfEven (n : Int) (k : Nat) : Int :=
  let d : Int := 2 ^ k
  let q := n / d
  let r := n % d
  if 2 * r < d then q else if d < 2 * r then q + 1 else if q % 2 = 0 then q else q + 1

/-- `round (acc * 2^(e - 23))` for an exponent from −32 to +7. -/
def scaleAcc (acc : Int) (e : Int) : Int :=
  if 23 ≤ e then acc * 2 ^ (e - 23).toNat else roundHalfEven acc (23 - e).toNat

/-- One sample of a stage (R101, R103): the output, the stage with its delay lines moved, and whether it saturated.
A bypassed stage outputs its input and loads both delay lines with it. -/
def Stage.step (st : Stage) (bypassed : Bool) (x : Int) : Int × Stage × Bool :=
  if bypassed then (x, { st with x1 := x, x2 := x, y1 := x, y2 := x }, false)
  else
    let acc := st.b0 * x + st.b1 * st.x1 + st.b2 * st.x2 - st.a1 * st.y1 - st.a2 * st.y2
    let y := sat24 (scaleAcc acc st.ex)
    (y.1, { st with x1 := x, x2 := st.x1, y1 := y.1, y2 := st.y1 }, y.2)

/-- The cascade of stages from number k on: output, stages in order, and the saturation bits set. -/
def runStages (bypass : BitVec 12) : Nat → List Stage → Int → Int × List Stage × Nat
  | _, [], x => (x, [], 0)
  | k, st :: t, x =>
    let r := st.step (bypass.getLsbD k) x
    let rest := runStages bypass (k + 1) t r.1
    (rest.1, r.2.1 :: rest.2.1, b2n r.2.2 * 2 ^ k + rest.2.2)

/-- Take the states of the first stages back into a loop's twelve. -/
def putStages (v : Vector Stage 12) : Nat → List Stage → Vector Stage 12
  | _, [] => v
  | k, st :: t => putStages (if h : k < 12 then v.set k st h else v) (k + 1) t

/-- Clear the delay lines of a loop (R107: PM and MM start from cleared states). -/
def Loop.cleared (l : Loop) : Loop :=
  { l with stages := l.stages.map (fun st => { st with x1 := 0, x2 := 0, y1 := 0, y2 := 0 }) }

/-- A pending write takes effect (R104). -/
def Loop.applyWrite (l : Loop) : CleWrite → Loop
  | .bypass m => { l with bypass := m }
  | .item k i v =>
    if h : k < 12 then
      let st := l.stages[k]
      let st' := match i with
        | 0 => { st with b0 := v } | 1 => { st with b1 := v } | 2 => { st with b2 := v }
        | 3 => { st with a1 := v } | 4 => { st with a2 := v } | _ => { st with ex := v }
      { l with stages := l.stages.set k st' h }
    else l

/-- Every write that waits takes effect, in the order it landed. -/
def Loop.flush (l : Loop) : Loop := { l.waiting.foldl Loop.applyWrite l with waiting := [] }

/-- One computation of a loop: the writes that waited are in force (they were applied at the end of the computation
before), then the stages in use run in cascade. A saturating output sum is added by the caller. -/
def Loop.run (l : Loop) (x : Int) : Int × Loop :=
  let l := l.flush
  let r := runStages l.bypass 0 (l.stages.toList.take l.nstage) x
  (r.1, { l with stages := putStages l.stages 0 r.2.1, stageSat := l.stageSat ||| BitVec.ofNat 12 r.2.2 })

/-- Note an input or output sum that saturated (R102). -/
def Loop.noteSum (l : Loop) (b : Bool) : Loop := { l with outSat := l.outSat || b }

/-- The value CLE_DATA shows for a stage and item: the value applied (R104); other selections read zero. -/
def Loop.itemValue (l : Loop) (stage item : Nat) : Nat :=
  if h : stage < 12 then
    let st := l.stages[stage]
    match item with
    | 0 => twos 24 st.b0 | 1 => twos 24 st.b1 | 2 => twos 24 st.b2
    | 3 => twos 24 st.a1 | 4 => twos 24 st.a2 | 5 => twos 8 st.ex | _ => 0
  else 0

/-- A write lands: at once when its loop is not computing, otherwise it waits (R104). -/
def Loop.land (l : Loop) (w : CleWrite) (busy : Bool) : Loop :=
  if busy then { l with waiting := l.waiting ++ [w] } else l.flush.applyWrite w

/-! ### Position (R91, R95) -/

/-- Binary from Gray code, 22 bits at most. -/
def grayDecode (g : Nat) : Nat := (List.range 22).foldl (fun acc i => acc ^^^ (g >>> i)) 0

/-- Whether the low `n` bits of a number hold an even number of ones. -/
def evenOnes (n x : Nat) : Bool := ((List.range n).foldl (fun c i => c + x / 2 ^ i % 2) 0) % 2 == 0

/-- The position of R95 as cylinder number and displacement d: `position = c + d`. sign(0) is +1. -/
def wedgePosition (tid : Nat) (a b c d : Nat) : Int × Rat :=
  let cyl : Int := grayDecode (tid % 2 ^ 22)
  let sgn (x : Rat) : Rat := if x < 0 then -1 else 1
  let flip : Rat := if cyl % 2 = 1 then -1 else 1
  let n : Rat := flip * (((a : Rat) - b) / ((a : Rat) + b))
  let q : Rat := flip * (((c : Rat) - d) / ((c : Rat) + d))
  let far := decide (q < 0)
  let cyl' : Int := if far then cyl + (if n < 0 then -1 else 1) else cyl
  let n' := if far then -n else n
  let q' := if far then -q else q
  (cyl', if (if n' < 0 then -n' else n') ≤ q' then n' / 2 else sgn n' * (1 - q') / 2)

/-- A position in 1/16,384 cylinder, exact. -/
def posUnits (cyl : Int) (d : Rat) : Rat := ((cyl : Rat) + d) * 16384

/-- A number to the nearest integer, halves to the even integer (R102). -/
def ratRound (x : Rat) : Int :=
  let n := x.floor
  let r := x - (n : Rat)
  if r < 1 / 2 then n else if 1 / 2 < r then n + 1 else if n % 2 = 0 then n else n + 1

/-- PES in 1/16,384 cylinder: position minus target, saturated at ±32,767 (R95). Where the difference is not whole the rounding is a free value. -/
def pesOf (pos target : Rat) : Int :=
  let d := pos - target
  let n := d.floor
  let x := if (n : Rat) = d then n else if Config.pesRoundUp d.num d.den then n + 1 else n
  if 32767 < x then 32767 else if x < -32767 then -32767 else x

/-! ### Seek profiles (R106, R108), in cylinders and milliseconds; a Shed clock is 1/400,000 ms -/

/-- Whether a profile of `d` (1/16,384 cylinder) under the limits (cylinders per ms, ms², ms³) has lasted its time T after `n` Shed clocks. Exact: each
case of R106 with its square or cube root cleared. -/
def profileDone (d : Rat) (vmax amax jmax n : Nat) : Bool :=
  let v : Rat := vmax
  let a : Rat := amax
  let j : Rat := jmax
  let n : Rat := n
  if 16384 * v * (v * j + a * a) ≤ d * a * j then
    -- t ≥ D/V + V/A + A/J
    decide (400000 * (d * a * j + 16384 * (v * v * j + a * a * v)) ≤ n * 16384 * v * a * j)
  else if 2 * 16384 * a ^ 3 ≤ d * j ^ 2 then
    -- t ≥ A/J and (t − A/J)² ≥ (A/J)² + 4 D / A
    decide (400000 * a ≤ n * j) && decide (400000 ^ 2 * (16384 * a ^ 3 + 4 * d * j ^ 2) ≤ (n * j - 400000 * a) ^ 2 * 16384 * a)
  else
    -- (t/4)³ ≥ D / (2 J)
    decide (d * (4 * 400000) ^ 3 ≤ n ^ 3 * 2 * j * 16384)

/-- The jerks of a profile of `d` cylinders and how long each lasts, in the three cases of R106; roots are the Treadle's own. -/
def profileSegs (d : Rat) (vmax amax jmax : Nat) : List (Rat × Rat) :=
  let v : Rat := vmax
  let a : Rat := amax
  let j : Rat := jmax
  let seg (tj ta tv : Rat) : List (Rat × Rat) := [(j, tj), (0, ta - tj), (-j, tj), (0, tv), (-j, tj), (0, ta - tj), (j, tj)]
  if v * (v / a + a / j) ≤ d then seg (a / j) (v / a) (d / v - v / a - a / j)
  else if 2 * a ^ 3 / j ^ 2 ≤ d then seg (a / j) ((Config.treadleRoot 2 ((a / j) ^ 2 + 4 * d / a) - a / j) / 2) 0
  else let t := Config.treadleRoot 3 (d / (2 * j)); seg t t 0

/-- Position, velocity and acceleration after a time `t` of jerks. -/
def runSegs : List (Rat × Rat) → Rat → Rat × Rat × Rat → Rat × Rat × Rat
  | [], _, st => st
  | (jk, d) :: rest, t, (x, v, a) =>
    let u := if t < d then t else d
    let st := (x + v * u + a * u ^ 2 / 2 + jk * u ^ 3 / 6, v + a * u + jk * u ^ 2 / 2, a + jk * u)
    if t ≤ d then st else runSegs rest (t - d) st

/-- Keep a number within ±m. -/
def ratClamp (m x : Rat) : Rat := if m < x then m else if x < -m then -m else x

/-- The reference of a profile after one more interval of Shed clocks: position in 1/16,384 cylinder, velocity, acceleration, and whether this is the
last wedge of the profile (R106). Planned from a moving reference it keeps the three limits from its first wedge and ends at rest at its target
(R108); `x`, `v` and `a` are the present reference. -/
def Plan.advance (p : Plan) (x v a : Rat) (clocks : Nat) : Plan × Rat × Rat × Rat × Bool :=
  let p1 := { p with clocks := p.clocks + clocks }
  if p.moving then
    if Config.replanDone x v a p.target p1.clocks then (p1, p.target, 0, 0, true)
    else
      let dt : Rat := (clocks : Rat) / 400000
      let a' := ratClamp p.amax (a + ratClamp p.jmax (Config.replanJerk x v a p.target p1.clocks) * dt)
      let v' := ratClamp p.vmax (v + a' * dt)
      (p1, x + 16384 * v' * dt, v', a', false)
  else
    let dist := p.target - p.start
    let dir : Rat := if dist < 0 then -1 else 1
    if profileDone (dir * dist) p.vmax p.amax p.jmax p1.clocks then (p1, p.target, 0, 0, true)
    else
      let r := runSegs (profileSegs (dir * dist / 16384) p.vmax p.amax p.jmax) ((p1.clocks : Rat) / 400000) (0, 0, 0)
      (p1, p.start + dir * 16384 * r.1, dir * r.2.1, dir * r.2.2, false)

/-! ### Pulses (R120 to R123), in Shed clocks of 2.5 ns; T = 10,000 clocks -/

def pwmT : Nat := 10000

/-- D_CAP × T and D_LIM × T. -/
def dCap (deadT : Nat) : Nat := pwmT - 2 * deadT
def dLim (deadT tw : Nat) : Nat := pwmT - (tw + 2 * deadT)

/-- A leg's pulse (R120): the low-side gate turns off DEADT before the high-side one turns on, and on DEADT after it has turned off. -/
def legPulse (deadT start width : Nat) (measured shifted : Bool) : Pulse :=
  ⟨start, width, start - 2 * deadT, start + width + 2 * deadT, measured, shifted⟩

/-- A period without pulses: the low sides on throughout (and so in the sampling window), or every gate off. -/
def flatPulse (lowOn : Bool) : Pulse := ⟨pwmT, 0, if lowOn then 2 * pwmT else 0, 2 * pwmT, lowOn, false⟩

/-- Issue one phase's pulse of width d (R121, R122): centred on T/2, moved earlier where a centred pulse would cut into
the sampling window and d is at most D_LIM. Start and width in half clocks. -/
def issuePulse (deadT tw d : Nat) : Pulse :=
  let centred := pwmT - d            -- half clocks: (T − d)/2
  if pwmT - d < 2 * deadT + 2 * tw then
    if d ≤ dLim deadT tw then
      -- σ = TW + DEADT − (T − d)/2
      legPulse deadT (centred - (2 * (tw + deadT) - (pwmT - d))) (2 * d) true true
    else legPulse deadT centred (2 * d) false false
  else legPulse deadT centred (2 * d) true false

/-- The gates of one leg are never on together: the high side is on from `start` for `width`, the low side outside `lowOff` to `lowOn`. -/
def Pulse.exclusive (p : Pulse) : Bool := p.width == 0 || (decide (p.lowOff ≤ p.start) && decide (p.start + p.width ≤ p.lowOn))

/-- The phase with the middle width. -/
def middlePhase (x : Widths) : Phase :=
  if (x.u ≤ x.v ∧ x.v ≤ x.w) ∨ (x.w ≤ x.v ∧ x.v ≤ x.u) then .v
  else if (x.v ≤ x.u ∧ x.u ≤ x.w) ∨ (x.w ≤ x.u ∧ x.u ≤ x.v) then .u
  else .w

def Widths.get (x : Widths) : Phase → Nat
  | .u => x.u | .v => x.v | .w => x.w

def Widths.set (x : Widths) (p : Phase) (d : Nat) : Widths :=
  match p with
  | .u => { x with u := d } | .v => { x with v := d } | .w => { x with w := d }

/-- The widths of the pulses issued, in Shed clocks. -/
def issuedWidths (p : Pulse × Pulse × Pulse) : Widths := ⟨p.1.width / 2, p.2.1.width / 2, p.2.2.width / 2⟩

def Widths.cap (x : Widths) (m : Nat) : Widths := ⟨min x.u m, min x.v m, min x.w m⟩

end Sys2Proof.Machine
end

