-- ==== Sys2Proof/Machine/Motion.lean ====
section
/-! DEFINITION. Shared operations of the motion domain: motion states, parks, forced-safe gates, spindle states,
and the reactions that combine them (R113 to R118, R131, R134 to R148, R334, R335). -/

namespace Sys2Proof.Machine

/-- A measured resistance lies within 50 % of the image's value (R407). -/
def nearImage (image new : Nat) : Bool := decide (image ≤ 2 * new) && decide (2 * new ≤ 3 * image)

/-- The coil resistance of ACU[a] is measured (R405): it is taken, or rejected and counted (R407). -/
def measureCoil (a : Act) (r : Nat) (s : State) : State :=
  if nearImage s.cfg.acts[a].rCoil r then s.modAcu a (fun u => { u with coilR := r })
  else s.incF Reg.CAL_CNT2 Fld.CAL_CNT2_REJECT

/-- A calibration window whose actuator leaves FOLLOW is discarded and counted (R408). -/
def discardCal (a : Act) (s : State) : State :=
  if s.acu[a].calWin.isSome then
    (s.modAcu a (fun u => { u with calWin := none })).incF Reg.CAL_CNT Fld.CAL_CNT_DISCARD
  else s

/-- Queue a preamplifier script on channel a (R47, R48). -/
def queueScript (a : Act) (k : ScriptKind) (s : State) : State :=
  s.modChan a (fun c => { c with due := c.due ++ [k] })

/-- Enter a motion state: the SCU is told of the change (R12), loops that R99 marks off stand still with u_m at zero,
a calibration window that needs FOLLOW is discarded, and the causes of R109 are recomputed. -/
def setAcuState (a : Act) (st : AcuState) (s : State) : State :=
  let old := s.acu[a].state
  let s1 := s.modAcu a (fun u => { u with state := st, folWedge := false })
  let s2 := if old = st then s1 else s1.send (.scuAcu a false) (.motion st)
  let s3 := if old = .follow ∧ st ≠ .follow then discardCal a s2 else s2
  let s4 := match st with
    | .settle | .follow => s3
    | _ => s3.modAcu a (fun u => { u with um := 0, dacPos := 0x8000#16, dacNeg := 0x8000#16, masatRun := 0, rdOk := false, wrRun := 0, rdRun := 0 })
  refreshWi a s4

/-- The profile of a park's first step (R117): from the present reference to the outer guard, with PARK_VMAX and the present limits. -/
def State.parkPlan (s : State) (a : Act) : Plan :=
  let u := s.acu[a]
  { start := u.refPos, target := ((Config.parkCylinder % 128 * 16384 : Nat) : Rat), vmax := s.cfg.acts[a].parkVmax
    amax := s.getF (Reg.ACU_TRD_AMAX a) Fld.ACU_TRD_AMAX_LIMIT, jmax := s.getF (Reg.ACU_TRD_JMAX a) Fld.ACU_TRD_JMAX_LIMIT
    clocks := 0, moving := u.refVel != 0 || u.refAcc != 0 }

/-- Trigger a park with a cause code of PARK_CTRL.CAUSE (R116, R117). A park triggered during a park does not
restart it; an actuator in RAMP has nothing to park, and one in HALTED leaves it only as R118 states. -/
def triggerPark (a : Act) (cause : Nat) (s : State) : State :=
  match s.acu[a].state with
  | .parking => s
  | .ramp => s
  | .halted => s
  | _ =>
    let s1 := s.setF (Reg.ACU_PARK_CTRL a) Fld.ACU_PARK_CTRL_CAUSE cause
    let s2 := s1.modAcu a (fun u => { u with
      park := some (if u.servoLock then .plan (s.parkPlan a) else .drive), seek := none, latchRun := 0, gatesOn := true })
    queueScript a .idle (setAcuState a .parking s2)

/-- Begin a park at step 2 of R117, whatever the servo lock (R334 with a failed store, R113 step 4). -/
def triggerParkDrive (a : Act) (cause : Nat) (s : State) : State :=
  (triggerPark a cause s).modAcu a (fun u => { u with park := u.park.map (fun _ => .drive) })

/-- A reaction forces the VCM gates safe (R118): gates low, DACs at mid-scale, HALTED; the reaction's own park begins
at once at step 2 of R117 with cause 3, or with the cause of the park it takes over (R339). An ACU that a park time-out
left in HALTED stays there. -/
def forceAcuSafe (a : Act) (s : State) : State :=
  let s1 := releaseGate a (s.modAcu a (fun u => { u with gatesOn := false, dacPos := 0x8000#16, dacNeg := 0x8000#16, um := 0 }))
  match s1.acu[a].state with
  | .halted => s1
  | st =>
    let s2 := if st = .parking then s1
      else s1.setF (Reg.ACU_PARK_CTRL a) Fld.ACU_PARK_CTRL_CAUSE 3
    let s3 := setAcuState a .halted s2
    setAcuState a .parking (s3.modAcu a (fun u => { u with park := some .drive, seek := none, latchRun := 0, gatesOn := true }))

/-! ### The channel's clock (R15, R54, R55) -/

/-- The live lock bits of GLB_WARP_LOCK (R18). -/
def showWarpLock (a : Act) (s : State) : State :=
  let c := s.chan[a]
  (s.setBit Reg.GLB_WARP_LOCK a.val (c.clocked && c.locked)).setBit Reg.GLB_WARP_LOCK (16 + a.val) (c.clocked && c.holdover)

/-- The channel counts as unlocked and runs on holdover: a read in progress is finished with the mark HOLDOVER (R54, R55). -/
def unlocked (a : Act) (s : State) : State :=
  s.modChan a (fun c => { c with
    locked := false, holdover := true, goodMarks := 0, badFrames := 0, pll := { c.pll with tolRun := 0, tolMet := false, lockMarks := 0, badRun := 0 }
    cur := c.cur.map (fun r => { r with marks := { r.marks with holdover := true } }) })

/-- The PLL loses lock (R55): the island runs on holdover; a write in progress is cut and its pass ends; a read in progress
is finished with the mark HOLDOVER and nothing more is framed until lock returns. -/
def loseLock (a : Act) (s : State) : State :=
  if s.chan[a].clocked && s.chan[a].locked then
    let s1 := showWarpLock a ((unlocked a (releaseGate a s)).incF (Reg.ACU_CNT_WARP a) Fld.ACU_CNT_WARP_LOCKLOSS)
    s1.send (.chanScu a) (.lock false)
  else s

/-! ### The spindle -/

/-- W × 16 rpm of the reported speed. -/
def State.spin16 (s : State) (a : Act) : Nat := s.cfg.spin[hdaOf a].wedges * s.scu[hdaOf a].speed16

/-- A frame in ns. -/
def State.frameNs (s : State) (a : Act) : Rat := if s.spin16 a = 0 then 0 else (960000000000 : Rat) / (s.spin16 a : Rat)

/-- Enter a spindle state with its gates. Leaving RUN clears IN_TOL (R133); the SPEED cause follows IN_TOL. -/
def setScuState (h : Hda) (st : ScuState) (g : Gates) (s : State) : State :=
  s.modScu h (fun u =>
    let u1 := { u with state := st, gates := g }
    let u2 := if st = .run then u1 else { u1 with inTol := false, tolRun := 0 }
    match st with
    | .openloop | .accel | .run | .decel | .bushold => u2
    | _ => { u2 with obsLock := false, goodRun := 0, badRes := 0, badSpeed := 0 })

/-- The rotor-loss wire and the SPEED cause reach both actuators (R17, R109). -/
def driveSpeedWires (h : Hda) (s : State) : State :=
  let u := s.scu[h]
  let f : Acu → Acu := fun x => { x with rotorIn := u.rotor, speedIn := !u.inTol }
  refreshWiHda h ((s.modAcu (lowAct h) f).modAcu (highAct h) f)

/-- Turn the gates off and enter COAST (R139, R141, R146, R148). The speed before the gates went off is kept (R132). -/
def scuCoast (h : Hda) (s : State) : State :=
  let s1 := s.modScu h (fun u => { u with lastSpeed := u.speed16, measuring := false })
  driveSpeedWires h (setScuState h .coast .off s1)

/-- Whether the short-circuit current of R144 is within IZV_MAX, on squares: (KE ω)² against I² (R² + (ωL)²), with
π² to eight decimals (log entry 6). -/
def scuShortOk (c : SpindleCfg) (speed16 : Nat) : Bool :=
  -- ω_e = speed16/16 × 2π/60 × pole pairs; π² lies between 98696044/10^7 and 98696045/10^7
  -- KE ω ≤ I √(R² + ω²L²)  ⇔  KE² ω² ≤ I² (R² + ω² L²), all in SI × powers of ten
  -- ω² = w2 × π², w2 = (speed16 × pp / 480)²
  let n := speed16 * c.polePairs
  -- ke in 1e-5 V s/rad, I in 1e-3 A, R in 1e-3 Ω, L in 1e-6 H, ω² = (n/480)² π²
  -- ke² ω² 1e-10 ≤ I² 1e-6 (R² 1e-6 + ω² L² 1e-12)
  let p := 98696044
  -- multiply by 480² × 10^7 × 10^18
  decide (c.ke ^ 2 * n ^ 2 * p * 10 ^ 8
    ≤ c.izvMax ^ 2 * (c.rPh ^ 2 * 480 ^ 2 * 10 ^ 7 * 10 ^ 6 + n ^ 2 * p * c.lPh ^ 2))

/-- Enter ZVBRAKE, counted in CNT_CHOP.ZV (R144). -/
def enterZv (h : Hda) (after : AfterZv) (s : State) : State :=
  let s1 := s.modScu h (fun u => { u with afterZv := after, lastSpeed := u.speed16, shortSpeed := Config.zvSpeed u.speed16, shortLow := false, zcPeriods := 0 })
  (driveSpeedWires h (setScuState h .zvbrake .zero s1)).incF (Reg.SCU_CNT_CHOP h) Fld.SCU_CNT_CHOP_ZV

/-- With regeneration disabled, a stop brakes by ZVBRAKE where the short-circuit current allows it, otherwise coasts
until it does (R144). -/
def brakeWithoutRegen (h : Hda) (s : State) : State :=
  if scuShortOk s.cfg.spin[h] s.scu[h].speed16 then enterZv h .stop s
  else scuCoast h (s.modScu h (fun u => { u with coastToZv := true }))

/-- A stop (R141): from ACCEL, RUN or OPENLOOP into DECEL, or without regeneration as R144 states. -/
def scuStop (h : Hda) (s : State) : State :=
  match s.scu[h].state with
  | .accel | .run | .openloop =>
    if s.bitF (Reg.SCU_CHOP h) Fld.SCU_CHOP_REGEN_OFF then brakeWithoutRegen h s
    else
      -- from OPENLOOP the reference is the open-loop speed
      let c := s.cfg.spin[h]
      let s1 := if s.scu[h].state = .openloop then
          s.modScu h (fun u => { u with refSpeed := ((c.olAcc * u.olPeriods : Nat) : Rat) / 2500, refAcc := 0 }) else s
      driveSpeedWires h (setScuState h .decel .on s1)
  | _ => s

/-- Enter DETECT to look for a turning rotor (R134, R139). -/
def enterDetect (h : Hda) (s : State) : State :=
  driveSpeedWires h (setScuState h .detect .off (s.modScu h (fun u => { u with measuring := false })))

/-- A run command (R134, R141): in STOPPED or COAST with no rotor loss pending it enters DETECT, in DECEL it returns to
ACCEL, in ZVBRAKE after a stop it enters DETECT at the end of STILL_T; elsewhere it changes nothing. -/
def scuRun (h : Hda) (s : State) : State :=
  let u := s.scu[h]
  match u.state with
  | .stopped => enterDetect h (s.modScu h (fun u => { u with tries := 0, startFails := 0, coastToZv := false }))
  | .coast =>
    if u.lossPending then s
    else enterDetect h (s.modScu h (fun u => { u with tries := 0, startFails := 0, coastToZv := false, tryWait := false }))
  | .decel => driveSpeedWires h (setScuState h .accel .on s)
  | .zvbrake => if u.afterZv = .stop then s.modScu h (fun u => { u with afterZv := .stopThenRun }) else s
  | _ => s

/-- The spindle gates are forced low (R145, R335): HALTED, left only by a motion reset or power-on. -/
def haltScu (h : Hda) (s : State) : State :=
  driveSpeedWires h (setScuState h .halted .forced
    (s.modScu h (fun u => { u with lastSpeed := u.speed16, lossPending := false, catching := false, tryWait := false, coastToZv := false })))

/-- Whether an actuator is in RAMP or HALTED. -/
def Acu.down (u : Acu) : Bool := u.state == .ramp || u.state == .halted

/-- Both actuators of h in RAMP or HALTED. -/
def State.bothDown (s : State) (h : Hda) : Bool := s.acu[lowAct h].down && s.acu[highAct h].down

/-- The last part of a Unit Stop of HDA h (R334): when both actuators are down, the SCU acts by its state. -/
def hdaStopCheck (h : Hda) (s : State) : State :=
  if s.power.hdaStop[h] && s.bothDown h then
    let s1 := s.modPower (fun p => { p with hdaStop := p.hdaStop.set h false })
    match s1.scu[h].state with
    | .accel | .run | .openloop | .decel =>
      -- with store 48 + h or 56 + h failed, the hard-wired sequencers enter COAST in place of DECEL
      if s1.bit Reg.JQ_FAIL_HI (16 + h.val) || s1.bit Reg.JQ_FAIL_HI (24 + h.val) then scuCoast h s1
      else scuStop h s1
    | .detect | .align => scuCoast h s1
    | _ => s1
  else s

/-- A pass ends as Unit Stop ends it (R334): a read pass at once; a write sector in progress is finished, and its pass then ends. -/
def stopPass (a : Act) (s : State) : State :=
  s.modChan a (fun c =>
    match c.pass with
    | none => c
    | some p =>
      if p.write then
        match c.cur with
        | some r => if r.write then { c with pass := some { p with slots := [] } } else { c with pass := none }
        | none => { c with pass := none }
      else { c with pass := none, cur := none })

/-- Unit Stop of an actuator (R334): its pass ends, and the park follows (UNIT_STOP_PARK). -/
def stopActuator (a : Act) (s : State) : State :=
  stopPass a (s.modPower (fun p => { p with stopWait := p.stopWait.set a true }))

/-- Domain Stop of HDA h (R335): all gates forced safe, the SCU HALTED, both ACUs parking from step 2. -/
def domainStop (h : Hda) (s : State) : State :=
  let s1 := haltScu h s
  let s2 := forceAcuSafe (highAct h) (forceAcuSafe (lowAct h) s1)
  s2.setBit Reg.FLT_STOP h.val true

end Sys2Proof.Machine
end

