-- ==== Sys2Proof/Machine/ZoneOps.lean ====
section
/-! DEFINITION. Shared operations on HBM3 bytes, zone descriptors (R264, R265), the Temple and its merging buffer (R280 to
R283), and the mapping of blocks to slots (R37 to R40, R278). -/

namespace Sys2Proof.Machine

/-! ### HBM3 (R234) -/

/-- HBM3 has 16 GiB; a byte nothing has written reads zero (log entry 8). -/
def hbmSize : Nat := 2 ^ 34

def State.hbmByte (s : State) (addr : Nat) : Byte := if addr < hbmSize then sget 0#8 s.hbm addr else 0#8

def writeBytes (m : List Host.Cell) : Nat → List Byte → List Host.Cell
  | _, [] => m
  | a, b :: t => writeBytes (sset 0#8 m a b) (a + 1) t

def State.hbmRead (s : State) (addr len : Nat) : List Byte := (List.range len).map (fun i => s.hbmByte (addr + i))

/-- Write bytes; those beyond the memory's end go nowhere (no path of the part makes such an address). -/
def State.hbmWrite (s : State) (addr : Nat) (l : List Byte) : State :=
  { s with hbm := writeBytes s.hbm addr (l.take (hbmSize - addr)) }

/-! ### Association lists -/

def aget {α : Type} : List (Nat × α) → Nat → Option α
  | [], _ => none
  | (k', v) :: t, k => if k' = k then some v else aget t k

/-- Set the value at `k`, in place or in rising order of keys. -/
def aset {α : Type} : List (Nat × α) → Nat → α → List (Nat × α)
  | [], k, v => [(k, v)]
  | (k', v') :: t, k, v => if k < k' then (k, v) :: (k', v') :: t else if k = k' then (k, v) :: t else (k', v') :: aset t k v

def adel {α : Type} (l : List (Nat × α)) (k : Nat) : List (Nat × α) := l.filter (fun e => e.1 != k)

/-! ### Descriptors (R265) -/

def ZDesc.flags (d : ZDesc) : Nat :=
  b2n d.ztype + 2 * b2n d.valid + 4 * b2n d.warn + 8 * b2n d.limit + 16 * (d.attempt % 16)

/-- Bytes 0 to 29. -/
def ZDesc.head30 (d : ZDesc) : List Byte :=
  leBytes 1 d.cond ++ leBytes 1 d.flags ++ leBytes 1 d.lu ++ leBytes 1 (d.head % 16 + 16 * (d.act % 16))
  ++ leBytes 4 (d.wp % 2 ^ 17 + 2 ^ 17 * (d.rz % 64)) ++ leBytes 4 (d.mzone % 2 ^ 20) ++ leBytes 4 d.stamp ++ leBytes 4 d.klabel
  ++ leBytes 4 d.defIdx ++ leBytes 2 d.defPrim ++ leBytes 2 d.defGrown ++ leBytes 2 d.gen

/-- The 32 bytes, DCHK being bits [15:0] of the CRC-32C over bytes 0 to 29. -/
def ZDesc.encode (d : ZDesc) : List Byte := d.head30 ++ leBytes 2 (crc32c d.head30).toNat

/-- A little-endian field of a byte string. -/
def fieldAt (l : List Byte) (off len : Nat) : Nat := leNat ((l.drop off).take len)

def ZDesc.decode (l : List Byte) : ZDesc :=
  let f := fieldAt l 1 1
  { cond := fieldAt l 0 1, ztype := f % 2 == 1, valid := f / 2 % 2 == 1, warn := f / 4 % 2 == 1, limit := f / 8 % 2 == 1
    attempt := f / 16, lu := fieldAt l 2 1, head := fieldAt l 3 1 % 16, act := fieldAt l 3 1 / 16
    wp := fieldAt l 4 4 % 2 ^ 17, rz := fieldAt l 4 4 / 2 ^ 17 % 64, mzone := fieldAt l 8 4 % 2 ^ 20
    stamp := fieldAt l 12 4, klabel := fieldAt l 16 4, defIdx := fieldAt l 20 4
    defPrim := fieldAt l 24 2, defGrown := fieldAt l 26 2, gen := fieldAt l 28 2 }

/-- DCHK matches (R266). -/
def dchkOk (l : List Byte) : Bool := (crc32c (l.take 30)).toNat % 2 ^ 16 == fieldAt l 30 2

/-- Where descriptor g lies (R264). -/
def descAddr (g : Nat) : Nat := 0x09000000 + g * 32

/-- The newest bytes of a descriptor: HBM3 overlaid with the merging buffer (R283). -/
def overlay : List Byte → List (Option Byte) → List Byte
  | [], _ => []
  | b :: t, [] => b :: t
  | b :: t, m :: u => (m.getD b) :: overlay t u

def State.mbOf (s : State) (g : Nat) : List (Option Byte) :=
  match s.zones.temple.mb.find? (fun e => e.g == g) with
  | some e => e.bytes
  | none => []

def State.zoneBytes (s : State) (g : Nat) : List Byte := overlay (s.hbmRead (descAddr g) 32) (s.mbOf g)

/-- The descriptor of global zone g. -/
def State.desc (s : State) (g : Nat) : ZDesc := ZDesc.decode (s.zoneBytes g)

/-! ### The Temple (R280 to R283, R288) -/

def State.modTemple (s : State) (f : Temple → Temple) : State := { s with zones := { s.zones with temple := f s.zones.temple } }

def State.groupOn (s : State) (m : Nat) : Bool := s.bit Reg.TMP_STAT m && s.zones.temple.cleaning != some m

/-- Whether an entry may be a victim: its group is powered and not being cleaned; INVALID, or VALID and unlocked. -/
def State.victimOk (s : State) (i : Nat) (e : TEntry) : Bool :=
  s.groupOn (i / 8) && (match e.state with | .invalid => true | .valid => !e.lock | _ => false)

/-- The victim (R281): an INVALID entry first, else the least recently used VALID unlocked one. -/
def State.victim (s : State) : Option (Fin 48) :=
  let c := (List.finRange 48).filter (fun i => s.victimOk i.val s.zones.temple.entries[i])
  match c.find? (fun i => s.zones.temple.entries[i].state == TState.invalid) with
  | some i => some i
  | none => c.foldl (fun b i => match b with
      | none => some i
      | some j => if s.zones.temple.entries[i].used < s.zones.temple.entries[j].used then some i else some j) none

def State.findEntry (s : State) (g : Nat) : Option (Fin 48) :=
  (List.finRange 48).find? (fun i =>
    let e := s.zones.temple.entries[i]
    e.g == g && e.state != TState.invalid)

/-- The entry that is filling, or about to be filled after an eviction, with g. -/
def State.findFill (s : State) (g : Nat) : Option (Fin 48) :=
  (List.finRange 48).find? (fun i =>
    let e := s.zones.temple.entries[i]
    (e.g == g && e.state == TState.filling) || e.state == TState.evicting g)

def setEntry (i : Fin 48) (e : TEntry) (s : State) : State := s.modTemple (fun t => { t with entries := t.entries.set i e })

/-- Mark an entry used now. -/
def touch (i : Fin 48) (s : State) : State :=
  s.modTemple (fun t => { t with
    entries := t.entries.set i { t.entries[i] with used := t.clock + 1 }, clock := t.clock + 1 })

/-- Begin a fill of g: a victim is taken; a VALID one is EVICTING for a clock first (R281). With no victim the fill waits. -/
def beginFill (g : Nat) (s : State) : State :=
  match s.victim with
  | none => s
  | some i =>
    let e := s.zones.temple.entries[i]
    let s1 := s.incF Reg.TMP_CNT_MISS Fld.TMP_CNT_MISS_MISS
    if e.state = .invalid then setEntry i ⟨g, zeros 32, .filling, false, e.used, false⟩ s1
    else setEntry i { e with state := .evicting g } s1

/-- An eviction's clock has passed: the victim is invalidated and its fill runs. -/
def settleEvictions (s : State) : State :=
  (List.finRange 48).foldl (fun s i =>
    match s.zones.temple.entries[i].state with
    | .evicting g => setEntry i ⟨g, zeros 32, .filling, false, s.zones.temple.entries[i].used, false⟩ s
    | _ => s) s

/-- TMP_STAT.LOCKED and MB_FILL follow the entries and the buffer. -/
def showTemple (s : State) : State :=
  (s.setF Reg.TMP_STAT Fld.TMP_STAT_LOCKED (s.zones.temple.entries.toList.countP (·.lock))).setF
    Reg.TMP_STAT Fld.TMP_STAT_MB_FILL s.zones.temple.mb.length

/-- The oldest merging-buffer entry is written to HBM3 and leaves (R282). -/
def drainOldest (s : State) : State :=
  match s.zones.temple.mb with
  | [] => s
  | e :: rest =>
    let l := overlay (s.hbmRead (descAddr e.g) 32) e.bytes
    showTemple ((s.hbmWrite (descAddr e.g) l).modTemple (fun t => { t with mb := rest }))

/-- Lay new bytes over old ones, byte by byte. -/
def mergeBytes : List (Option Byte) → List (Option Byte) → List (Option Byte)
  | [], u => u
  | t, [] => t
  | a :: t, b :: u => (if b.isSome then b else a) :: mergeBytes t u

/-- Put changed bytes of g into the merging buffer (R282): merged into its entry, or a new entry, which while all eight are
occupied waits for the oldest to leave. -/
def bufferBytes (g : Nat) (l : List (Option Byte)) (s : State) : State :=
  if s.zones.temple.mb.any (fun e => e.g == g) then
    showTemple ((s.modTemple (fun t => { t with
      mb := t.mb.map (fun e => if e.g = g then { e with bytes := mergeBytes e.bytes l } else e) })).incF
      Reg.TMP_CNT_MB Fld.TMP_CNT_MB_MERGE)
  else
    let s1 := if 8 ≤ s.zones.temple.mb.length then
        drainOldest (s.incF Reg.TMP_CNT_MB Fld.TMP_CNT_MB_FULL_WAIT) else s
    showTemple (s1.modTemple (fun t => { t with mb := t.mb ++ [⟨g, l⟩] }))

/-- The bytes of `new` that differ from `old`. -/
def changedBytes : List Byte → List Byte → List (Option Byte)
  | [], u => u.map some
  | _, [] => []
  | a :: t, b :: u => (if a = b then none else some b) :: changedBytes t u

/-- Write a descriptor (R282): the entry, where it is held, and the changed bytes into the buffer in the same clock. -/
def templeWrite (g : Nat) (new : List Byte) (s : State) : State :=
  let l := changedBytes (s.zoneBytes g) new
  let s1 := settleEvictions s
  let s2 := match s1.findEntry g with
    | some i =>
      let e := s1.zones.temple.entries[i]
      if e.state = .valid then touch i (setEntry i { e with bytes := new } (s1.incF Reg.TMP_CNT_HIT Fld.TMP_CNT_HIT_HIT)) else s1
    | none => beginFill g s1
  bufferBytes g l s2

/-- A change of a descriptor: GEN rises by one modulo 2^16 and DCHK follows (R265). -/
def updateDesc (g : Nat) (f : ZDesc → ZDesc) (s : State) : State :=
  let d := f (s.desc g)
  templeWrite g { d with gen := (d.gen + 1) % 2 ^ 16 }.encode s

/-! ### Zones of LUs (R264, R353) -/

def State.luCfg (s : State) (u : Nat) : Option LuCfg := s.cfg.lus.find? (fun l => l.lu == u)

def LuCfg.zcount (l : LuCfg) : Nat := l.runs.foldl (fun n r => n + r.count) 0

/-- Where LU zone n lies: (run, number inside the run). -/
def findRun : List ZoneRun → Nat → Option (ZoneRun × Nat)
  | [], _ => none
  | r :: t, n => if n < r.count then some (r, n) else findRun t (n - r.count)

/-- The LU that declares global zone g, with its LU zone number. -/
def State.luOfZone (s : State) (g : Nat) : Option (LuCfg × Nat) :=
  match s.cfg.lus.find? (fun l => decide (l.zbase ≤ g) && decide (g < l.zbase + l.zcount)) with
  | some l => some (l, g - l.zbase)
  | none => none

/-- The actuator of global zone g, from the image. -/
def State.actOfZone (s : State) (g : Nat) : Option Nat :=
  match s.luOfZone g with
  | some (l, n) => match findRun l.runs n with | some (r, _) => some r.act | none => none
  | none => none

/-- Every global zone of an LU. -/
def LuCfg.zones (l : LuCfg) : List Nat := (List.range l.zcount).map (fun n => l.zbase + n)

/-! ### Blocks and slots (R37 to R40, R278) -/

/-- Slots in a media zone. -/
def mediaSlots (z : ZoneCfg) : Nat := 65536 + z.sz

/-- Media zones of a surface in a recording zone (R39). -/
def mediaZones (z : ZoneCfg) : Nat := z.cyls * z.nz / mediaSlots z

/-- Absolute number of the first data cylinder of recording zone z (R38). -/
def firstDataCyl : List ZoneCfg → Nat → Nat
  | _, 0 => 1152
  | [], _ => 1152
  | z :: t, n + 1 => firstDataCyl t n + z.cyls + 256

def State.surface (s : State) (act head : Nat) : Option Surface :=
  s.zones.surfaces.find? (fun f => f.act == act && f.head == head)

/-- The (b + 1)-th slot at or after ordinal `o` that is not among the primary defects (rising ordinals) (R40). -/
def goodOrd (o : Nat) : List Nat → Nat → Nat
  | [], b => o + b
  | p :: t, b => if p ≤ o + b then goodOrd o t (b + 1) else o + b

/-- The ordinal of block b of a descriptor's media zone, and whether it is a grown defect's spare. -/
def State.blockOrd (s : State) (d : ZDesc) (b : Nat) : Nat × Bool :=
  match s.cfg.acts.toList[d.act]? with
  | none => (0, false)
  | some c =>
    match c.zones[d.rz]? with
    | none => (0, false)
    | some z =>
      let base := d.mzone * mediaSlots z
      let sf := s.surface d.act d.head
      let prim := match sf with
        | some f => ((f.prim.filter (fun e => e.rz == d.rz && decide (base ≤ e.ord) && decide (e.ord < base + mediaSlots z))).map (·.ord))
        | none => []
      let o := goodOrd base prim b
      match sf with
      | none => (o, false)
      | some f =>
        match f.grown.find? (fun e => e.rz == d.rz && e.ord == o) with
        | some e => (match e.spare with | some p => (p, true) | none => (o, false))
        | none => (o, false)

/-- Cylinder and angular slot of an ordinal of a recording zone (R37, R39). -/
def State.ordPlace (s : State) (act rz ord : Nat) : Nat × Nat :=
  match s.cfg.acts.toList[act]? with
  | none => (0, 0)
  | some c =>
    match c.zones[rz]? with
    | none => (0, 0)
    | some z =>
      let cyl := firstDataCyl c.zones rz + ord / z.nz
      (cyl, (ord % z.nz + cyl * z.kz) % z.nz)

/-- Cylinder, slot and spare mark of block b of global zone g. -/
def State.blockPlace (s : State) (g b : Nat) : Nat × Nat × Bool :=
  let d := s.desc g
  let o := s.blockOrd d b
  let p := s.ordPlace d.act d.rz o.1
  (p.1, p.2, o.2)

/-! ### Save records (R274, R276) -/

/-- Position of a media zone in its actuator's descriptor order (s, z, j). -/
def savePos (zs : List ZoneCfg) (head rz j : Nat) : Nat :=
  let per := zs.foldl (fun n z => n + mediaZones z) 0
  head * per + (zs.take rz).foldl (fun n z => n + mediaZones z) 0 + j

/-- The record that holds a zone's descriptor: actuator and record number. -/
def State.saveRec (s : State) (g : Nat) : Nat × Nat :=
  let d := s.desc g
  match s.cfg.acts.toList[d.act]? with
  | some c => (d.act, savePos c.zones d.head d.rz d.mzone / 128)
  | none => (d.act, 0)

/-- ZT_SAVE follows the marked records and the commands that wait. -/
def showSave (s : State) : State :=
  (s.setF Reg.ZT_SAVE Fld.ZT_SAVE_PENDING (min 65535 s.zones.marked.length)).setF
    Reg.ZT_SAVE Fld.ZT_SAVE_WAITING (min 65535 s.zones.waits.length)

/-- A save of the record is under way, and no other is pending behind it. -/
def State.savingNow (s : State) (r : Nat × Nat) : Bool :=
  if h : r.1 < 16 then
    (match s.sch[r.1].pass with | some p => p.kind == .internal (.save r.2) | none => false) && decide (s.sch[r.1].work.countP (fun w => w.1 == .save r.2) ≤ 1)
  else false

/-- Mark a zone's record for saving and raise the save on its actuator (R276, R227); a change while the record is being written has it saved again. -/
def markSave (g : Nat) (s : State) : State :=
  let r := s.saveRec g
  if s.zones.marked.contains r && !s.savingNow r then s else
  let s1 := { s with zones := { s.zones with marked := s.zones.marked.filter (· != r) ++ [r] } }
  showSave (if h : r.1 < 16 then
    { s1 with sch := s1.sch.set r.1 { s1.sch[r.1] with work := s1.sch[r.1].work ++ [(.save r.2, s.now)] } h } else s1)

/-- Wait for the save of a zone's record. -/
def waitSave (w : SaveWait) (g : Nat) (s : State) : State :=
  let r := s.saveRec g
  showSave { s with zones := { s.zones with waits := s.zones.waits ++ [(w, r.1, r.2)] } }

end Sys2Proof.Machine
end

