-- ==== Sys2Proof/Machine/CreelOps.lean ====
section
/-! DEFINITION. Shared operations of the Creel (R190, R191, R236 to R248): counts and credits, the free lists, pops,
returns and pins. -/

namespace Sys2Proof.Machine

/-! ### Quotas and counts (R191, R238) -/

/-- MIN_BOB and MAX_BOB of an LU in bobbins; a MAX of 0 is the pool size (R215). -/
def State.minBob (s : State) (u : Nat) : Nat := 4 * s.getF (bank u Reg.INT_LU_BOB) Fld.INT_LU_BOB_MIN
def State.poolSize (s : State) (p : Nat) : Nat := s.getF (bank p Reg.CREEL_POOL_SIZE) Fld.CREEL_POOL_SIZE_SIZE
def State.maxBob (s : State) (u : Nat) : Nat :=
  let m := s.getF (bank u Reg.INT_LU_BOB) Fld.INT_LU_BOB_MAX
  if m = 0 then s.poolSize (s.getF (bank u Reg.INT_LU_USE_BOB) Fld.INT_LU_USE_BOB_POOL) else 4 * m
def State.usedBob (s : State) (u : Nat) : Nat := s.getF (bank u Reg.INT_LU_USE_BOB) Fld.INT_LU_USE_BOB_USED
def State.poolOf (s : State) (u : Nat) : Nat := s.getF (bank u Reg.INT_LU_USE_BOB) Fld.INT_LU_USE_BOB_POOL
def State.poolFree (s : State) (p : Nat) : Nat := s.getF (bank p Reg.CREEL_POOL_FREE) Fld.CREEL_POOL_FREE_FREE

/-- The part of an LU's minimum still unused (m_u of R191). -/
def State.unusedMin (s : State) (u : Nat) : Nat := s.minBob u - s.usedBob u

/-- R_p: the unused minima of every LU of a pool. -/
def State.poolReserved (s : State) (p : Nat) : Nat :=
  s.cfg.lus.foldl (fun n l => if l.pool = p then n + s.unusedMin l.lu else n) 0

/-- Set FREE_p; PEAK follows SIZE − FREE, FREE_ALL follows the sum. -/
def setFree (p n : Nat) (s : State) : State :=
  let old := s.poolFree p
  let s1 := s.setF (bank p Reg.CREEL_POOL_FREE) Fld.CREEL_POOL_FREE_FREE n
  let all := s.getF Reg.CREEL_STAT Fld.CREEL_STAT_FREE_ALL + n - old
  let s2 := s1.setF Reg.CREEL_STAT Fld.CREEL_STAT_FREE_ALL all
  let k := bank p Reg.CREEL_POOL_PEAK
  s2.setF k Fld.CREEL_POOL_PEAK_PEAK (max (s2.getF k Fld.CREEL_POOL_PEAK_PEAK) (s.poolSize p - n))

def subF (k : Nat) (f : Fld) (n : Nat) (s : State) : State := s.setF k f (s.getF k f - n)

/-- Answers of the Creel (R239). -/
inductive CreelAnswer | grant | overMax | empty
  deriving DecidableEq, Repr

/-- The answer to a request of LU u for b bobbins. -/
def State.creelAnswer (s : State) (u b : Nat) : CreelAnswer :=
  let p := s.poolOf u
  if s.maxBob u < s.usedBob u + b then .overMax
  else if s.poolReserved p - s.unusedMin u + b ≤ s.poolFree p then .grant
  else .empty

/-- A GRANT moves b bobbins from FREE to CREDIT and charges them. -/
def grantCredits (u b : Nat) (s : State) : State :=
  let p := s.poolOf u
  let s1 := setFree p (s.poolFree p - b) s
  let s2 := s1.addF (bank p Reg.CREEL_POOL_CREDIT) Fld.CREEL_POOL_CREDIT_CREDIT b
  (s2.addF (bank u Reg.INT_LU_USE_BOB) Fld.INT_LU_USE_BOB_USED b).incF (bank p Reg.CREEL_POOL_CNT) Fld.CREEL_POOL_CNT_GRANTS

/-- A request counts by its answer (R239, R193). -/
def creelRequest (u b : Nat) (s : State) : CreelAnswer × State :=
  match s.creelAnswer u b with
  | .grant => (.grant, grantCredits u b s)
  | .overMax => (.overMax, s.incF (bank (s.poolOf u) Reg.CREEL_POOL_CNT2) Fld.CREEL_POOL_CNT2_OVER)
  | .empty => (.empty, (s.incF (bank (s.poolOf u) Reg.CREEL_POOL_CNT2) Fld.CREEL_POOL_CNT2_EMPTY).incF
      Reg.INT_CNT_WAIT Fld.INT_CNT_WAIT_EMPTY)

/-- Credits go back unused (R241). -/
def returnCredits (u n : Nat) (s : State) : State :=
  let p := s.poolOf u
  let s1 := subF (bank p Reg.CREEL_POOL_CREDIT) Fld.CREEL_POOL_CREDIT_CREDIT n s
  subF (bank u Reg.INT_LU_USE_BOB) Fld.INT_LU_USE_BOB_USED n (setFree p (s1.poolFree p + n) s1)

/-! ### Bobbins (R233, R234, R236, R237, R248) -/

def bobAddr (b : Nat) : Nat := 0x40000000 + b * 0x10000
def sideAddr (b : Nat) : Nat := b * 512
def bobbinCount : Nat := 245760

/-- The ownership bitmap (R244). -/
def State.bobOwned (s : State) (b : Nat) : Bool := (sget 0#64 s.creel.owned (b / 64)).getLsbD (b % 64)

def setOwned (b : Nat) (v : Bool) (s : State) : State :=
  let w := sget 0#64 s.creel.owned (b / 64)
  let m : BitVec 64 := 1#64 <<< (b % 64)
  { s with creel := { s.creel with owned := sset 0#64 s.creel.owned (b / 64) (if v then w ||| m else w &&& ~~~m) } }

/-- Range of a list: pool p, or the internal reserve as number 64. -/
def State.listBase (s : State) (p : Nat) : Nat :=
  if p < 64 then s.getF (bank p Reg.CREEL_POOL_BASE) Fld.CREEL_POOL_BASE_BASE
  else bobbinCount - s.getF Reg.CREEL_RES Fld.CREEL_RES_SIZE
def State.listSize (s : State) (p : Nat) : Nat :=
  if p < 64 then s.poolSize p else s.getF Reg.CREEL_RES Fld.CREEL_RES_SIZE

def State.inList (s : State) (p b : Nat) : Bool := decide (s.listBase p ≤ b) && decide (b < s.listBase p + s.listSize p)

def State.modPool (s : State) (p : Fin 65) (f : Pool → Pool) : State :=
  { s with creel := { s.creel with pools := s.creel.pools.set p (f s.creel.pools[p]) } }

/-- The link word of a free bobbin (R243). -/
def linkWord (p : Nat) (next : Option Nat) : Nat :=
  (match next with | some b => bobAddr b | none => 0)
  + (if p < 64 then p * 2 ^ 34 else 2 ^ 40) + 0x43B0 * 2 ^ 48

def writeLink (p b : Nat) (next : Option Nat) (s : State) : State := s.hbmWrite (bobAddr b) (leBytes 8 (linkWord p next))

/-- What a link word says: the next bobbin, or that it fails R244. -/
def State.readLink (s : State) (p b : Nat) : Option (Option Nat) :=
  let w := leNat (s.hbmRead (bobAddr b) 8)
  let next := w % 2 ^ 34
  let mark := w / 2 ^ 48
  let rsv := w / 2 ^ 41 % 2 ^ 7
  let pool := w / 2 ^ 34 % 64
  let res := w / 2 ^ 40 % 2
  let names := if p < 64 then pool = p ∧ res = 0 else pool = 0 ∧ res = 1
  if mark ≠ 0x43B0 ∨ rsv ≠ 0 ∨ ¬names then none
  else if next = 0 then some none
  else
    let n := (next - 0x40000000) / 0x10000
    if 0x40000000 ≤ next ∧ next % 0x10000 = 0 ∧ s.inList p n = true ∧ s.bobOwned n = false then some (some n) else none

/-- Put a bobbin on its list (R243): into the head cache when there is room, else its link word is written and it heads
the list in HBM3. -/
def listPush (p : Fin 65) (b : Nat) (s : State) : State :=
  let l := s.creel.pools[p]
  if l.cache.length < 32 then s.modPool p (fun l => { l with cache := b :: l.cache })
  else (writeLink p.val b l.head s).modPool p (fun l => { l with head := some b })

/-- Take the first bobbin of a head cache, unless the bitmap word that shows it is being rebuilt (R327). -/
def listPop (p : Fin 65) (s : State) : Option (Nat × State) :=
  match s.creel.pools[p].cache with
  | [] => none
  | b :: t => if s.creel.bitmapWait.contains (b / 64) then none else some (b, s.modPool p (fun l => { l with cache := t }))

/-- Side-record header of a bobbin taken (R237, R241). -/
def sideHeader (b ctx lu : Nat) (res : Bool) (s : State) : State :=
  s.hbmWrite (sideAddr b) (leBytes 4 0x3FFFF ++ leBytes 2 ctx ++ leBytes 1 lu ++ leBytes 1 (2 * b2n res) ++ leBytes 2 0)

/-- Append a bobbin behind the last of a chain. -/
def chainLink (last b : Nat) (s : State) : State := s.hbmWrite (sideAddr last) (leBytes 4 b)

/-- Take the next bobbin of list p for a context; none when the head cache is empty. -/
def takeBobbin (p : Fin 65) (ctx lu : Nat) (chain : List Nat) (s : State) : Option (Nat × State) :=
  match listPop p s with
  | none => none
  | some (b, s1) =>
    let s2 := sideHeader b ctx lu (p.val == 64) (setOwned b true s1)
    let s3 := match chain.getLast? with | some x => chainLink x b s2 | none => s2
    some (b, s3)

/-- A pop turns a credit into a held bobbin (R241). -/
def popCredit (u ctx : Nat) (chain : List Nat) (s : State) : Option (Nat × State) :=
  let p := s.poolOf u
  match takeBobbin (Fin.ofNat 65 p) ctx u chain s with
  | some (b, s1) => some (b, subF (bank p Reg.CREEL_POOL_CREDIT) Fld.CREEL_POOL_CREDIT_CREDIT 1 s1)
  | none => none

/-- FLAGS.PINNED of a bobbin. -/
def State.isPinned (s : State) (b : Nat) : Bool := (s.hbmByte (sideAddr b + 7)).getLsbD 0

def setPinned (b u : Nat) (v : Bool) (s : State) : State :=
  let f := s.hbmByte (sideAddr b + 7)
  let s1 := s.hbmWrite (sideAddr b + 7) [if v then f ||| 1#8 else f &&& 0xFE#8]
  let k := bank (s.poolOf u) Reg.CREEL_POOL_PIN
  if v then s1.incF k Fld.CREEL_POOL_PIN_PINNED else subF k Fld.CREEL_POOL_PIN_PINNED 1 s1

/-- A return that fails its checks is not applied (R245). -/
def returnBad (p b : Nat) (s : State) : State :=
  let s1 := (s.setB Reg.CREEL_CHK Fld.CREEL_CHK_RET_BAD true).incF Reg.CREEL_CNT_CHK Fld.CREEL_CNT_CHK_RET_BAD
  let s2 := (s1.setF Reg.CREEL_CHK Fld.CREEL_CHK_POOL (if p < 64 then p else 0)).setB Reg.CREEL_CHK Fld.CREEL_CHK_RES (p == 64)
  noteRaise 0xAB .none (s2.setF Reg.CREEL_CHK_ADDR Fld.CREEL_CHK_ADDR_BOBBIN b)

/-- A holder releases a bobbin charged to LU u, or a bobbin of the internal reserve: it waits for the Creel to accept it (R242). -/
def returnBobbin (b u : Nat) (s : State) : State := { s with creel := { s.creel with returns := s.creel.returns ++ [(b, u, false)] } }
def returnReserve (b : Nat) (s : State) : State := { s with creel := { s.creel with returns := s.creel.returns ++ [(b, 0, true)] } }

/-- The return of one bobbin charged to LU u is checked and accepted (R242, R245): the number lies in the pool's range and the
bitmap shows it taken. -/
def acceptBobbin (b u : Nat) (s : State) : State :=
  let p := s.poolOf u
  if s.inList p b && s.bobOwned b then
    let s1 := if s.isPinned b then setPinned b u false s else s
    let s2 := setFree p (s1.poolFree p + 1) (setOwned b false s1)
    listPush (Fin.ofNat 65 p) b (subF (bank u Reg.INT_LU_USE_BOB) Fld.INT_LU_USE_BOB_USED 1 s2)
  else returnBad p b s

/-- The return of a bobbin of the internal reserve is checked and accepted. -/
def acceptReserve (b : Nat) (s : State) : State :=
  if s.inList 64 b && s.bobOwned b then
    listPush 64 b (subF Reg.CREEL_RES Fld.CREEL_RES_HELD 1 (setOwned b false s))
  else returnBad 64 b s

/-- The bitmap word of a bobbin is being rebuilt (R327): pops and returns of it wait. -/
def State.bobWaits (s : State) (b : Nat) : Bool := s.creel.bitmapWait.contains (b / 64)

/-- A reserve bobbin for internal work or an undeclared LU (R190, R236). -/
def takeReserve (ctx : Nat) (s : State) : Option (Nat × State) :=
  match takeBobbin 64 ctx 0xFF [] s with
  | some (b, s1) => some (b, s1.incF Reg.CREEL_RES Fld.CREEL_RES_HELD)
  | none => none

/-! ### Blocks of a bobbin (R237, R313) -/

/-- The bobbin and place of block k of a chain. -/
def blockHome (chain : List Nat) (k : Nat) : Option (Nat × Nat) :=
  match chain[k / 16]? with | some b => some (b, k % 16) | none => none

def State.isPlaced (s : State) (b j : Nat) : Bool := leNat (s.hbmRead (sideAddr b + 8) 2) / 2 ^ j % 2 == 1

def setPlaced (b j : Nat) (s : State) : State :=
  s.hbmWrite (sideAddr b + 8) (leBytes 2 (leNat (s.hbmRead (sideAddr b + 8) 2) ||| 2 ^ j))

def State.blockData (s : State) (b j : Nat) : List Byte := s.hbmRead (bobAddr b + j * 4096) 4096
def State.blockPi (s : State) (b j : Nat) : List Byte := s.hbmRead (sideAddr b + 32 + 24 * j) 16
def State.blockIcrc (s : State) (b j : Nat) : Nat := leNat (s.hbmRead (sideAddr b + 48 + 24 * j) 4)

def writeBlock (b j : Nat) (data pi : List Byte) (s : State) : State :=
  (s.hbmWrite (bobAddr b + j * 4096) data).hbmWrite (sideAddr b + 32 + 24 * j) (padTo 16 pi)

end Sys2Proof.Machine
end

