-- ==== Sys2Proof/Machine/CtxOps.lean ====
section
/-! DEFINITION. Shared operations of intake: contexts (R194, R195), sense data and responses (R188), unit attentions, order
and dependencies (R196 to R200), pins (R207), and the resources of an ending command. -/

namespace Sys2Proof

open Machine (leNat)

/-- The number that n bytes of an image's header at an offset spell (R349), and the Context Store format there. -/
def ImageFile.field (f : ImageFile) (at_ n : Nat) : Nat := leNat ((f.header.drop at_).take n)
def ImageFile.ctxFmt (f : ImageFile) : Nat := f.field 12 1

end Sys2Proof

namespace Sys2Proof.Machine

/-! ### Logical units of frames -/

def fc (f : CmdFrame) (i : Nat) : Nat := (f.cdb.getD i 0#8).toNat
def fbe (f : CmdFrame) (off n : Nat) : Nat := beNat ((f.cdb.drop off).take n)

/-- Single-level peripheral device addressing (chapter 8): byte 0 zero, byte 1 u, the rest zero. -/
def lunWf (l : List Byte) : Bool := l.length == 8 && l.getD 0 0#8 == 0#8 && (l.drop 2).all (· == 0#8)

/-- The number that stands for a LUN: u, or for a LUN of any other form a number above every u that spells it out, so that what it addresses is
no LU and shares nothing with one (R192, R443). -/
def luNum (l : List Byte) : Nat := (l.getD 1 0#8).toNat + (if lunWf l then 0 else 256 * (1 + beNat l))

def frameLu (f : CmdFrame) : Nat := luNum f.lun

/-! ### Contexts -/

def State.ctx? (s : State) (c : Nat) : Option Ctx := aget s.intake.ctxs c

def State.modIntake (s : State) (f : Intake → Intake) : State := { s with intake := f s.intake }

def putCtx (c : Nat) (x : Ctx) (s : State) : State := s.modIntake (fun i => { i with ctxs := aset i.ctxs c x })

def modCtx (c : Nat) (f : Ctx → Ctx) (s : State) : State :=
  match s.ctx? c with
  | some x => putCtx c (f x) s
  | none => s

def ctxCount : Nat := 40960

/-- A free context number at or after `start`, wrapping once. -/
def State.freeCtx (s : State) (start : Nat) : Option Nat :=
  ((List.range ctxCount).map (fun i => (start + i) % ctxCount)).find?
    (fun c => (s.ctx? c).isNone && !s.hed.retired.contains c)

def State.minCtx (s : State) (u : Nat) : Nat := s.getF (bank u Reg.INT_LU_CTX) Fld.INT_LU_CTX_MIN
def State.maxCtx (s : State) (u : Nat) : Nat :=
  let m := s.getF (bank u Reg.INT_LU_CTX) Fld.INT_LU_CTX_MAX
  if m = 0 then ctxCount else m
def State.usedCtx (s : State) (u : Nat) : Nat := s.getF (bank u Reg.INT_LU_USE_CTX) Fld.INT_LU_USE_CTX_USED
def State.ctxReserved (s : State) : Nat := s.cfg.lus.foldl (fun n l => n + (s.minCtx l.lu - s.usedCtx l.lu)) 0
def State.ctxFree (s : State) : Nat := s.getF Reg.INT_STAT Fld.INT_STAT_CTX_FREE

/-- Whether one more context of LU u fits (R191); for an LU the image does not declare, the rule of R190. -/
def State.ctxFits (s : State) (u : Option Nat) : Bool :=
  match u with
  | some u => decide (s.usedCtx u + 1 ≤ s.maxCtx u) && decide (s.ctxReserved - (s.minCtx u - s.usedCtx u) + 1 ≤ s.ctxFree)
  | none => decide (s.ctxReserved + 1 ≤ s.ctxFree)

/-! ### Sense data (R188) -/

def sense (key asc ascq : Nat) : Sense := ⟨key, asc, ascq, none, none⟩
/-- INFORMATION set to an LBA, unless the condition has brought its own. -/
def Sense.at (x : Sense) (lba : Nat) : Sense := if x.info.isSome then x else { x with info := some lba }

/-- Sense keys. -/
def keyNoSense : Nat := 0x0
def keyNotReady : Nat := 0x2
def keyMedium : Nat := 0x3
def keyHardware : Nat := 0x4
def keyIllegal : Nat := 0x5
def keyAttention : Nat := 0x6
def keyProtect : Nat := 0x7
def keyAborted : Nat := 0xB
def keyMiscompare : Nat := 0xE

/-- Fixed format: INFORMATION is valid where it fits in 32 bits; a sector descriptor sets COMMAND-SPECIFIC INFORMATION (R188). -/
def Sense.fixed (x : Sense) : List Byte :=
  let ok := match x.info with | some n => decide (n < 2 ^ 32) | none => false
  let info := match x.info with | some n => beBytes 4 n | none => zeros 4
  let cs := match x.sdesc with
    | some d => [d.getD 0 0#8, d.getD 1 0#8, d.getD 8 0#8, d.getD 9 0#8]
    | none => zeros 4
  [if ok then 0xF0#8 else 0x70#8, 0#8, BitVec.ofNat 8 x.key] ++ info ++ [10#8] ++ cs
    ++ [BitVec.ofNat 8 x.asc, BitVec.ofNat 8 x.ascq, 0#8, 0#8, 0#8, 0#8]

/-- Descriptor format: the information descriptor, then the sector descriptor of R188. -/
def Sense.descriptor (x : Sense) : List Byte :=
  let info := match x.info with | some n => [0x00#8, 0x0A#8, 0x80#8, 0x00#8] ++ beBytes 8 n | none => []
  let sd := match x.sdesc with | some d => [0x80#8, 0x0A#8] ++ d | none => []
  [0x72#8, BitVec.ofNat 8 x.key, BitVec.ofNat 8 x.asc, BitVec.ofNat 8 x.ascq, 0#8, 0#8, 0#8, BitVec.ofNat 8 (info ++ sd).length]
    ++ info ++ sd

/-- Bits of a page that the spec holds at one value, as byte, bits the image may give, bits set: AWRE and ARRE one and DTE zero (R185), no first
burst and TLR zero (R174), QERR at most 01b (R185), ATO zero (R182). -/
def fixedBits (page sub : Nat) : List (Nat × Byte × Byte) :=
  match page, sub with
  | 0x01, 0 => [(2, 0x3D#8, 0xC0#8)]
  | 0x02, 0 => [(14, 0#8, 0#8), (15, 0#8, 0#8)]
  | 0x0A, 0 => [(3, 0xFB#8, 0#8), (5, 0x7F#8, 0#8)]
  | 0x18, 0 => [(2, 0xEF#8, 0#8)]
  | _, _ => []

def fixPage (page sub : Nat) (l : List Byte) : List Byte :=
  (fixedBits page sub).foldl (fun (l : List Byte) (b : Nat × Byte × Byte) => l.set b.1 ((l.getD b.1 0#8 &&& b.2.1) ||| b.2.2)) l

/-- A page of the published standards with its changeable fields at their defaults, for an image that gives none (log entry 14). -/
def plainPage (page sub : Nat) : List Byte :=
  match page, sub with
  | 0x01, 0 => [0x01#8, 10#8] ++ zeros 10
  | 0x02, 0 => [0x02#8, 14#8] ++ zeros 14
  | 0x0A, 0 => [0x0A#8, 10#8] ++ zeros 10
  | 0x18, 0 => [0x18#8, 6#8, 0x06#8] ++ zeros 5
  | 0x19, 0 => [0x19#8, 14#8, 0x06#8, 0#8] ++ beBytes 2 2000 ++ beBytes 2 1000 ++ zeros 8
  | 0x19, 1 => [0x59#8, 0x01#8] ++ beBytes 2 (4 + 48 * 8) ++ [0#8, 0x06#8, 0#8, 8#8]
      ++ (List.range 8).flatMap (fun i => [0#8, BitVec.ofNat 8 i] ++ zeros 31 ++ [0xC0#8] ++ zeros 14)
  | 0x1C, 0 => [0x1C#8, 10#8] ++ zeros 10
  | _, _ => []

/-- The image's value of a page. -/
def LuCfg.modeDefault (l : LuCfg) (page sub : Nat) : List Byte :=
  fixPage page sub ((aget l.modes (page * 256 + sub)).getD (plainPage page sub))

/-- A mode page's current bytes: the last MODE SELECT's, or the image's (R185). -/
def modeKey (u page sub : Nat) : Nat := u * 65536 + page * 256 + sub
def State.modePage (s : State) (u page sub : Nat) : List Byte :=
  match aget s.intake.modes (modeKey u page sub) with
  | some l => fixPage page sub l
  | none =>
    match s.luCfg u with
    | some c => c.modeDefault page sub
    | none => []

/-! ### Log counters (R186) -/

/-- Counters of the log pages, by page and parameter; they count from power-on on and outlive a data-path reset. -/
def logKey (page param : Nat) : Nat := page * 65536 + param
def State.logCount (s : State) (page param : Nat) : Nat := (aget s.intake.logs (logKey page param)).getD 0
def logAdd (page param n : Nat) (s : State) : State :=
  s.modIntake (fun i => { i with logs := aset i.logs (logKey page param) ((aget i.logs (logKey page param)).getD 0 + n) })

/-- A counter of channel a rises, and with it its sum in page 0x30 (0 CNT_SECT, 1 CNT_RETRY_OK, 2 CNT_REV, 3 CNT_FR_NOMARK). -/
def countChan (a : Act) (i k : Nat) (f : Fld) (s : State) : State := logAdd 0x30 (4 * a.val + i) 1 (s.incF k f)

/-- D_SENSE and QERR of the Control mode page; bytes counted from the page's own first byte. -/
def State.dSense (s : State) (u : Nat) : Bool := ((s.modePage u 0x0A 0).getD 2 0#8).getLsbD 2
def State.qerr (s : State) (u : Nat) : Nat := ((s.modePage u 0x0A 0).getD 3 0#8).toNat / 2 % 4

/-- Bytes 2 to 11 of the sector descriptor (R188): actuator, head, framing outcome, marks, cylinder, slot. -/
def descBytes (act head outcome marks cyl slot : Nat) : List Byte :=
  leBytes 1 act ++ leBytes 1 head ++ leBytes 1 outcome ++ leBytes 1 marks ++ beBytes 4 (cyl % 2 ^ 22) ++ beBytes 2 slot

/-- A hardware error that concerns a sector which was not read. -/
def Sense.onSector (x : Sense) (act head marks : Nat) (place : Nat × Nat) : Sense :=
  { x with sdesc := some (descBytes act head (Config.unframedOutcome act place.1 place.2 % 8) marks place.1 place.2) }

def State.senseBytes (s : State) (u : Nat) (x : Sense) : List Byte := if s.dSense u then x.descriptor else x.fixed

/-! ### Frames sent and unit attentions -/

def sendMsg (port : Nat) (m : PortMsg) (s : State) : State :=
  s.modIntake (fun i => { i with sent := if h : port < 2 then i.sent.set port (i.sent[port] ++ [m]) h else i.sent })

/-- Statuses of a RESPONSE frame. -/
def stGood : Nat := 0x00
def stCheck : Nat := 0x02
def stBusy : Nat := 0x08
def stTaskSetFull : Nat := 0x28

/-- How a command ends: GOOD, CHECK CONDITION, another status, or aborted with no response (R210). -/
inductive How
  | good
  | check (x : Sense)
  | status (n : Nat)
  | aborted
  deriving DecidableEq, Repr

def respond (port init tag u : Nat) (how : How) (s : State) : State :=
  match how with
  | .good => sendMsg port (.response init tag stGood []) s
  | .check x => sendMsg port (.response init tag stCheck (s.senseBytes u x)) s
  | .status n => sendMsg port (.response init tag n []) s
  | .aborted => s

/-- Hold a unit attention for a nexus and an LU; a condition that is pending already is not doubled. -/
def addUa (init u asc ascq : Nat) (s : State) : State :=
  let a : UnitAtt := ⟨init, u, asc, ascq⟩
  if s.intake.uas.contains a then s else s.modIntake (fun i => { i with uas := i.uas ++ [a] })

/-- For every nexus that the initiator table holds and `p` accepts. -/
def addUaAll (p : Nat → Bool) (u asc ascq : Nat) (s : State) : State :=
  s.intake.initTab.foldl (fun s e => if p e.1 then addUa e.1 u asc ascq s else s) s

/-! ### Blocks of commands (R198) -/

/-- LBAs of a segment's first `n` blocks. -/
def Seg.lbas (g : Seg) (n : Nat) : List Nat := (List.range n).map (fun i => g.zone * 65536 + g.start + i)

/-- Whether a command is a zone or format operation, and on which LU zones (none: every zone). -/
def Ctx.hasMedia (x : Ctx) : Bool := x.cls == 0 || x.cls == 1 || x.cls == 2 || x.cls == 5

/-- Operation code, and whether the command works on every zone of its LU (FORMAT UNIT, SANITIZE, a zone operation with ALL). -/
def Ctx.op (x : Ctx) : Nat := (x.cdb.getD 0 0#8).toNat
def Ctx.sa (x : Ctx) : Nat := (x.cdb.getD 1 0#8).toNat % 32
def Ctx.allZones (x : Ctx) : Bool := x.op == 0x04 || x.op == 0x48 || (x.op == 0x94 && (x.cdb.getD 14 0#8).getLsbD 0)

def Ctx.covers (x : Ctx) (lba : Nat) : Bool :=
  if x.op = 0x07 then false else decide (x.lba ≤ lba) && decide (lba < x.lba + x.nblk)

/-- The LBAs that REASSIGN BLOCKS lists (LONGLBA, after the four-byte header). -/
def reassignList : Nat → List Byte → List Nat
  | 0, _ => []
  | n + 1, l => if l.length < 8 then [] else beNat (l.take 8) :: reassignList n (l.drop 8)
def Ctx.listed (x : Ctx) : List Nat := if x.op = 0x07 then reassignList 32 (x.param.drop 4) else []

/-- Two commands have a block in common. -/
def overlap (x y : Ctx) : Bool :=
  x.listed.any (fun l => y.covers l || y.listed.contains l) || y.listed.any (fun l => x.covers l) ||
  (x.op != 0x07 && y.op != 0x07 && x.hasMedia && y.hasMedia && decide (0 < x.nblk) && decide (0 < y.nblk)
    && decide (x.lba < y.lba + y.nblk) && decide (y.lba < x.lba + x.nblk))

/-- LU zones a command touches. -/
def Ctx.zonesOf (x : Ctx) : List Nat :=
  if x.op = 0x94 then [x.lba / 65536] else x.segs.map (·.zone) ++ x.listed.map (· / 65536)

def shareZone (x y : Ctx) : Bool := x.allZones || y.allZones || x.zonesOf.any (fun z => y.zonesOf.contains z)

/-- Whether a command writes. -/
def Ctx.isWrite (x : Ctx) : Bool := x.cls == 1 || x.cls == 5
def Ctx.isRead (x : Ctx) : Bool := x.cls == 0 || x.cls == 2

/-- A task has begun: MEDIA, DATA_OUT or later (R197). -/
def CState.begun : CState → Bool
  | .media | .dataOut | .responding | .stopping | .linger => true
  | _ => false

def CState.code : CState → Nat
  | .free => 0 | .held => 1 | .dataIn => 2 | .waiting => 3 | .queued => 4 | .media => 5 | .dataOut => 6
  | .responding => 7 | .stopping => 8 | .linger => 9

/-- Y, later in effective order, depends on X (R197, R198, R200). A task admitted before a SYNCHRONIZE CACHE(16) never waits for it, wherever HEAD
OF QUEUE has put that, since it waits for the writes among them (R196, R209; DESIGN CHOICE, log entry 48). -/
def dependsOn (s : State) (x y : Ctx) : Bool :=
  x.state != .linger && x.lu == y.lu && !(x.op == 0x91 && decide (y.adm < x.adm)) &&
  (x.attr == .ordered || y.attr == .ordered
  || (x.isWrite && y.isWrite && overlap x y) || (x.isWrite && y.isRead && overlap x y) || (x.isRead && y.isWrite && overlap x y)
  || (x.cls == 3 && (y.cls == 3 || y.hasMedia) && shareZone x y) || (y.cls == 3 && x.hasMedia && shareZone x y)
  || (x.cls == 1 && y.cls == 1 && x.segs.any (fun g => y.segs.any (fun h => h.zone == g.zone
      && (match s.luCfg x.lu with | some l => (s.desc (l.zbase + g.zone)).ztype | none => false)))))

/-- A SYNCHRONIZE CACHE(16) Y waits for each write X of its LU admitted before it (R209). -/
def syncWaits (x y : Ctx) : Bool := y.op == 0x91 && x.isWrite && x.lu == y.lu && x.state != .linger && decide (x.adm < y.adm)

/-! ### Pins (R207) -/

/-- LBAs that a write has on the medium. -/
def Ctx.written (x : Ctx) : List Nat := x.segs.flatMap (fun g => g.lbas g.done)

/-- The block number in the transfer of an LBA. -/
def Ctx.blkOf (x : Ctx) (lba : Nat) : Nat := lba - x.lba

/-- Pins of X that reads waiting on it give: each with the LBAs it will be served. -/
def pinsFor (s : State) (c : Nat) (x : Ctx) : List (Nat × List Nat) :=
  if x.cls = 1 then
    (s.intake.ctxs.filterMap (fun e =>
      if e.2.isRead && e.2.preds.contains c && !e.2.state.begun then
        let l := x.written.filter e.2.covers
        if l.isEmpty then none else some (e.1, l)
      else none))
  else []

/-- Give back every bobbin of a context but those in `keep`, and its credits. A place of a lingering chain whose bobbin has gone
back holds 0x3FFFF. -/
def returnBobs (x : Ctx) (keep : List Nat) (s : State) : State :=
  let s1 := (x.bobs.filter (fun b => !keep.contains b && b != 0x3FFFF)).foldl (fun s b =>
    if x.reserve then returnReserve b s else returnBobbin b x.lu s) s
  if x.reserve then s1 else returnCredits x.lu x.credits s1

/-- Free a context (R195): it leaves the store, and its LU's count. -/
def freeContext (c : Nat) (s : State) : State :=
  match s.ctx? c with
  | none => s
  | some x =>
    let s1 := s.modIntake (fun i => { i with ctxs := adel i.ctxs c })
    let s2 := s1.setF Reg.INT_STAT Fld.INT_STAT_CTX_FREE (s1.ctxFree + 1)
    if x.reserve || x.port == 2 then s2 else subF (bank x.lu Reg.INT_LU_USE_CTX) Fld.INT_LU_USE_CTX_USED 1 s2

/-- A lingering write gives back what it still holds (R207). -/
def endLinger (c : Nat) (s : State) : State :=
  match s.ctx? c with
  | some x => if x.state = .linger then freeContext c (returnBobs { x with credits := 0 } [] s) else s
  | none => s

/-- The blocks that reads are still to be served from write w, and how many reads those are. -/
def State.pinsOn (s : State) (w : Nat) : List Nat × Nat :=
  (s.intake.ctxs.flatMap (fun e => (e.2.pinFrom.filter (fun p => p.1 == w)).map (·.2)),
   s.intake.ctxs.countP (fun e => e.2.pinFrom.any (fun p => p.1 == w)))

/-- A lingering write gives back every bobbin that no read is to be served from any more, and with the last its context (R207). -/
def trimLinger (w : Nat) (s : State) : State :=
  match s.ctx? w with
  | none => s
  | some y =>
    if y.state ≠ .linger then s else
    let pins := s.pinsOn w
    let need := pins.1.map (fun l => y.bobs.getD (y.blkOf l / 16) 0x3FFFF)
    let gone := y.bobs.filter (fun b => b != 0x3FFFF && !need.contains b)
    let s1 := gone.foldl (fun s b => returnBobbin b y.lu s) s
    let s2 := putCtx w { y with pinCnt := pins.2, bobs := y.bobs.map (fun b => if gone.contains b then 0x3FFFF else b) } s1
    if pins.1.isEmpty then freeContext w s2 else s2

/-- A read that was to be served from pinned bobbins is done with them. -/
def dropPins (c : Nat) (s : State) : State :=
  match s.ctx? c with
  | none => s
  | some x => ((x.pinFrom.map (·.1)).eraseDups).foldl (fun s w => trimLinger w s) (putCtx c { x with pinFrom := [] } s)

/-- A block that was served from a write's bobbins has left (R207). -/
def servedBlock (c : Nat) (blk : Nat) (s : State) : State :=
  match s.ctx? c with
  | none => s
  | some x =>
    let mine := x.pinFrom.filter (fun p => p.2 == x.lba + blk)
    if mine.isEmpty then s
    else
      let s1 := putCtx c { x with pinFrom := x.pinFrom.filter (fun p => p.2 != x.lba + blk) } s
      (mine.map (·.1)).foldl (fun s w => trimLinger w s) (s1.incF Reg.INT_CNT_PIN Fld.INT_CNT_PIN_SERVED)

/-! ### Channels and passes of an ending command -/


/-- CH_STAT, HALT maps and JOBQ show a channel (R9, R261). -/
def showCh (d : Fin 64) (s : State) : State :=
  let c := s.shu.ch[d]
  let code := match c.state with | .idle => 0 | .run => 1 | .paced => 2 | .wait => 3 | .halted => 4
  let ctx := match c.job with | some j => j.ctx | none => 0
  let s1 := s.setReg (bank d.val Reg.SHU_CH_STAT)
    (BitVec.ofNat 32 (code + 2 ^ 3 * (c.pc % 256) + 2 ^ 11 * (c.prog % 32) + 2 ^ 16 * (ctx % 2 ^ 16)))
  let h := c.state == .halted
  let s2 := if d.val < 32 then s1.setBit Reg.SHU_HALT_LO d.val h else s1.setBit Reg.SHU_HALT_HI (d.val - 32) h
  let free := ((s2.shu.ch.toList.drop 16).countP (fun x => x.state == .idle))
  (s2.setF Reg.SHU_JOBQ Fld.SHU_JOBQ_HOST_FREE free).setF Reg.SHU_JOBQ Fld.SHU_JOBQ_QUEUED s2.shu.hostQ.length

def putCh (d : Fin 64) (c : ShuCh) (s : State) : State :=
  showCh d { s with shu := { s.shu with ch := s.shu.ch.set d c } }

/-- A channel returns to IDLE, its job and check context gone (R256, R262, R312). -/
def idleCh (d : Fin 64) (s : State) : State := putCh d { chIdle with returned := s.shu.ch[d].returned } s

/-- An abort reaches the Shuttle (R262): jobs of the context leave the queue, channels that run one stop. A halted channel keeps
its halt. -/
def abortJobs (c : Nat) (s : State) : State :=
  let keep (j : Job) : Bool := j.ctx != c
  let s1 := { s with shu := { s.shu with
    hostQ := s.shu.hostQ.filter keep, overflow := s.shu.overflow.filter keep
    hostOut := s.shu.hostOut.map (fun l => l.filter (fun b => b.ctx != c))
    cipherOut := s.shu.cipherOut.map (fun l => l.filter (fun b => b.ctx != c))
    cipherIn := s.shu.cipherIn.map (fun l => l.filter (fun b => b.ctx != c))
    rx := s.shu.rx.filter (fun r => r.ctx != c) } }
  (List.finRange 64).foldl (fun s d =>
    match s.shu.ch[d].job with
    | some j => if j.ctx = c ∧ s.shu.ch[d].state ≠ .halted ∧ decide (16 ≤ d.val ∨ j.kind = .mediaOut ∨ j.kind = .mediaIn) then idleCh d s else s
    | none => s) s1

/-- Every key of a pass is used by one pass fewer (R304). -/
def releaseKeys (keys : List (Nat × Nat × Nat)) (s : State) : State :=
  { s with cip := { s.cip with derived := s.cip.derived.map (fun k =>
      if keys.contains (k.lu, k.zone, k.label) then { k with uses := k.uses - 1 } else k) } }

/-- Read sectors with these tags are discarded wherever they stand between the channel and the Shuttle (R211). -/
def dropTags (a : Act) (tags : List Nat) (s : State) : State :=
  let seqs := ((s.chan[a].decoding ++ s.chan[a].reed).filter (fun k => tags.contains k.slot)).map (·.seq)
  let s1 := s.modChan a (fun c => { c with
    cur := match c.cur with | some r => (if !r.write && tags.contains r.slot then none else some r) | none => none
    decoding := c.decoding.filter (fun k => !tags.contains k.slot)
    retryReq := c.retryReq.filter (fun n => !seqs.contains n)
    out := c.out.filter (fun o => !tags.contains o.slot)
    failed := c.failed.filter (fun f => !tags.contains f.slot) })
  { s1 with
    retry := s1.retry.map (fun j => match j with | some j => if j.act = a ∧ tags.contains j.slot.slot = true then none else some j | none => none)
    cip := { s1.cip with cores := s1.cip.cores.map (fun k => match k with
      | some (.dec b i) => if b = a ∧ tags.contains i.slot = true then none else k
      | _ => k) } }

/-- Slot tags of a context's sectors in a pass. -/
def SchPass.tagsOf (p : SchPass) (c : Nat) : List Nat := (p.blks.filter (fun b => b.ctx == c)).map (·.tag)

/-- The sectors of a context leave the pass in progress; the channel runs only what is left, a sector being written among it. -/
def trimRun (c : Nat) (a : Act) (s : State) : State :=
  match s.sch[a].pass with
  | none => s
  | some p =>
    let gone := p.tagsOf c
    if gone.isEmpty then s
    else
      let running (t : Nat) : Bool := match s.chan[a].cur with | some r => r.write && r.slot == t | none => false
      let p1 : SchPass := { p with
        blks := p.blks.filter (fun b => b.ctx != c || running b.tag)
        tracks := p.tracks.map (fun (t : Nat × List Nat) => (t.1, t.2.filter (fun x => !gone.contains x))) }
      let s1 : State := { s with sch := s.sch.set a { s.sch[a] with pass := some p1 } }
      let s2 := s1.modChan a (fun ch => { ch with
        pass := ch.pass.map (fun q => { q with slots := q.slots.filter (fun x => !gone.contains x || running x) }) })
      if p.write then s2 else dropTags a gone s2

/-- They leave the read pass that has ended, which goes with its last sector. -/
def trimTail (c : Nat) (a : Act) (s : State) : State :=
  match s.sch[a].tail with
  | none => s
  | some p =>
    if (p.tagsOf c).isEmpty then s
    else
      let left := p.blks.filter (fun b => b.ctx != c)
      let t := if left.isEmpty then none else some { p with blks := left }
      let s1 := dropTags a (p.tagsOf c) { s with sch := s.sch.set a { s.sch[a] with tail := t } }
      if left.isEmpty then releaseKeys p.keys s1 else s1

/-- The sectors of a context leave the passes it is in, and what was read of them is discarded (R211). -/
def trimPass (c : Nat) (s : State) : State := forActs (fun a s => trimTail c a (trimRun c a s)) s

/-- The write sector in progress that belongs to a context: its actuator. -/
def State.writingNow (s : State) (c : Nat) : Option Act :=
  allActs.find? (fun a =>
    match s.chan[a].cur, s.sch[a].pass with
    | some r, some p => r.write && s.chan[a].gate && p.blks.any (fun b => b.ctx == c && b.tag == r.slot)
    | _, _ => false)

/-! ### Write pointers and attempts (R200, R267, R271) -/

def State.globalZone (s : State) (u z : Nat) : Nat := match s.luCfg u with | some l => l.zbase + z | none => z

/-- Zone segments of blocks `lba` to `lba + n − 1`: two suffice. -/
def State.segsOf (s : State) (l : LuCfg) (lba n : Nat) : List Seg :=
  if n = 0 then [] else
  let mk (base b k : Nat) : Seg :=
    let d := s.desc (l.zbase + b / 65536)
    ⟨base, b / 65536, b % 65536, k, 0, d.act, d.head, 0⟩
  let k := min n (65536 - lba % 65536)
  mk 0 lba k :: (if k < n then [mk k (lba + k) (n - k)] else [])

/-- AWP of a sequential zone (R200). -/
def State.awpOf (s : State) (g : Nat) : Nat := (aget s.zones.awp g).getD (s.desc g).wp
def setAwp (g n : Nat) (s : State) : State := { s with zones := { s.zones with awp := aset s.zones.awp g n } }

/-- ATTEMPT increments, or sets LIMIT at 15; the record is marked for saving (R271). -/
def bumpAttempt (g : Nat) (s : State) : State :=
  let d := s.desc g
  if d.attempt = 15 then updateDesc g (fun d => { d with limit := true }) s
  else markSave g (updateDesc g (fun d => { d with attempt := d.attempt + 1 }) s)

/-- The sequential zones a write touches. -/
def State.seqZones (s : State) (x : Ctx) : List Nat :=
  (x.segs.map (fun g => s.globalZone x.lu g.zone)).filter (fun g => (s.desc g).ztype)

/-- First block of a command not written (a write) or not placed (a read). -/
def Ctx.firstUndone (x : Ctx) : Nat :=
  if x.isRead then
    match (List.range x.nblk).find? (fun k => !x.placed.contains k) with | some k => x.lba + k | none => x.lba + x.nblk
  else
    match x.segs.find? (fun g => decide (g.done < g.count)) with
    | some g => g.zone * 65536 + g.start + g.done
    | none => x.lba + x.nblk

/-! ### The ending of one command (R199, R200, R207, R208) -/

/-- What remains to be done after a step: end a command, abort one as R211 says, or let one go on whose predecessors have completed. -/
inductive Todo
  | fin (c : Nat) (how : How)
  | abort (c : Nat)
  | go (c : Nat)
  deriving DecidableEq, Repr

/-- A command leaves the tasks that depend on it; those with nothing left to wait for may go on. -/
def releaseFrom (c : Nat) (s : State) : State × List Todo :=
  let ready := s.intake.ctxs.filterMap (fun e =>
    if e.2.preds.contains c && e.2.preds.all (· == c) then some (Todo.go e.1) else none)
  (s.modIntake (fun i => { i with ctxs := i.ctxs.map (fun e => (e.1, { e.2 with preds := e.2.preds.filter (· != c) })) }), ready)

/-- Read y is to be served some blocks from write c, and no longer from an earlier write of them. -/
def servedFrom (c y : Nat) (lbas : List Nat) (s : State) : State :=
  match s.ctx? y with
  | none => s
  | some x =>
    let old := ((x.pinFrom.filter (fun p => lbas.contains p.2)).map (·.1)).eraseDups
    old.foldl (fun s w => trimLinger w s)
      (putCtx y { x with pinFrom := x.pinFrom.filter (fun p => !lbas.contains p.2) ++ lbas.map (fun l => (c, l)) } s)

/-- A write's completed blocks that waiting reads share are pinned; the write lingers with those bobbins only (R207). -/
def pinAndLinger (c : Nat) (x : Ctx) (pins : List (Nat × List Nat)) (s : State) : State :=
  let lbas := pins.flatMap (·.2)
  let keep := x.bobs.filter (fun b => lbas.any (fun l => x.bobs[x.blkOf l / 16]? == some b))
  let s1 := keep.foldl (fun s b => setPinned b x.lu true s) (returnBobs x keep s)
  let s2 := putCtx c { x with state := .linger, pinned := true, bobs := x.bobs.map (fun b => if keep.contains b then b else 0x3FFFF), credits := 0, pinCnt := pins.length, preds := [] } s1
  pins.foldl (fun s p => servedFrom c p.1 p.2 s) s2

/-- Tasks that QERR 01b ends with a CHECK CONDITION, and the nexuses that lose one (R208). -/
def State.qerrVictims (s : State) (c : Nat) (x : Ctx) : List (Nat × Nat) :=
  if x.port < 2 ∧ s.qerr x.lu = 1 then
    (s.intake.ctxs.filter (fun e => e.1 != c && e.2.lu == x.lu && decide (e.2.port < 2) && e.2.state != .linger)).map (fun e => (e.1, e.2.init))
  else []

/-- Waiting writes to zones whose AWP goes back to the write pointer have no place in it any more, and what they hold in other zones' AWP goes
back (R200); their check 7 is made anew when they head their queue. -/
def uncount (u : Nat) (zs : List Nat) (s : State) : State :=
  match s.luCfg u with
  | none => s
  | some l =>
    let segs (w : Waiting) : List Seg := s.segsOf l (fbe w.frame 2 8) (fbe w.frame 10 4)
    let hit (w : Waiting) : Bool := w.counted && frameLu w.frame == u && (segs w).any (fun g => zs.contains (l.zbase + g.zone))
    let s1 := (s.intake.admq.filter hit).foldl (fun s w => (segs w).foldl (fun s g =>
      let z := l.zbase + g.zone
      if (s.desc z).ztype && !zs.contains z then setAwp z (s.awpOf z - g.count) s else s) s) s
    s1.modIntake (fun i => { i with admq := i.admq.map (fun w => if hit w then { w with counted := false } else w) })

/-- Later writes of a sequential zone that end when a write to it fails (R200), and AWP back at the write pointer. -/
def failZones (c : Nat) (x : Ctx) (s : State) : State × List Todo :=
  if x.cls = 1 then
    let zs := s.seqZones x
    let s1 := if x.part then zs.foldl (fun s g => bumpAttempt g s) s else s
    let s2 := uncount x.lu zs (zs.foldl (fun s g => setAwp g (s.desc g).wp s) s1)
    (s2, s.intake.ctxs.filterMap (fun e =>
      if e.1 != c && e.2.cls == 1 && e.2.lu == x.lu && !e.2.state.begun && !e.2.abort && decide (x.seq < e.2.seq)
        && (s.seqZones e.2).any (fun g => zs.contains g) then some (.fin e.1 (.check (sense keyIllegal 0x21 0x04))) else none))
  else (s, [])

/-- A bobbin that another context holds too: a reassignment that took it over from its read (R204). -/
def State.heldElsewhere (s : State) (c b : Nat) : Bool := s.intake.ctxs.any (fun e => e.1 != c && e.2.bobs.contains b)

/-- MRIE 4 and a pending informational exception turn GOOD into that exception, which is then cleared (R185); REQUEST SENSE always ends GOOD
(R443). -/
def reportException (x : Ctx) (how : How) (s : State) : How × State :=
  if how = .good ∧ x.port < 2 ∧ x.op ≠ 0x03 ∧ ((s.modePage x.lu 0x1C 0).getD 3 0#8).toNat % 16 = 4 then
    match aget s.intake.exceptions x.lu with
    | some e => (.check e, s.modIntake (fun i => { i with exceptions := adel i.exceptions x.lu }))
    | none => (how, s)
  else (how, s)

/-- The re-key that context c carries out ends with a result (R307). -/
def endRekey (c result : Nat) (s : State) : State :=
  if s.cip.rekey = some c then
    (({ s with cip := { s.cip with rekey := none } }.setB Reg.CIP_REKEY_CMD Fld.CIP_REKEY_CMD_BUSY false).setF
      Reg.CIP_REKEY_CMD Fld.CIP_REKEY_CMD_RESULT result)
  else s

/-- Tasks that are to end together are marked first: the ending of one lets none of the others go on, and ends none of them
in another way (R210, R302, R336). -/
def markAbort (cs : List Nat) (s : State) : State :=
  cs.foldl (fun s c => modCtx c (fun x => if x.state.begun then x else { x with abort := true }) s) s

/-- A context that ends (R199): its response, its channels and passes, its dependants, its resources. -/
def endOne (c : Nat) (how : How) (s : State) : State × List Todo :=
  match s.ctx? c with
  | none => (s, [])
  | some x =>
    if x.state = .linger then (s, []) else
    let e := reportException x how s
    let s0 := if x.port < 2 ∧ how ≠ .aborted then sample 1 x.lu ((s.now - x.admitT : Nat) : Int) e.2 else e.2
    let s1 := if x.response.isEmpty then respond x.port x.init x.tag x.lu e.1 s0 else s0
    let s2 := trimPass c (abortJobs c s1)
    let pins := pinsFor s2 c x
    let r := releaseFrom c s2
    let s3 := dropPins c (if s.intake.actBy = some (.ctx c) then r.1.modIntake (fun i => { i with actBy := none }) else r.1)
    let s4 := if pins.isEmpty then freeContext c (returnBobs x (x.bobs.filter (fun b => s3.heldElsewhere c b)) s3) else pinAndLinger c x pins s3
    let s5 := endRekey c 0 { s4 with zones := { s4.zones with waits := s4.zones.waits.filter (fun w => w.1 != .ctx c), undo := s4.zones.undo.filter (fun u => u.1 != c) } }
    let z := if how = .good then (s5, []) else failZones c x s5
    let q := match e.1 with | .check _ => s.qerrVictims c x | _ => []
    let s6 := ((q.map (·.2)).eraseDups).foldl (fun s i => if i = x.init then s else addUa i x.lu 0x2F 0x02 s) (markAbort (q.map (·.1)) z.1)
    (showSave s6, q.map (fun v => .abort v.1) ++ z.2 ++ r.2)

/-- Abort a task (R210, R211): one that is writing a sector stops at its pad; any other ends at once. -/
def abortOne (c : Nat) (s : State) : State × List Todo :=
  match s.writingNow c with
  | some _ => (trimPass c (modCtx c (fun x => { x with abort := true, state := .stopping }) s), [])
  | none => (s, [.fin c .aborted])

/-- A task ends with a sense as R342 orders it: at once when it has begun, after the sector it is writing, or once every
task it depends on has completed. -/
def doomOne (c : Nat) (x : Sense) (s : State) : State × List Todo :=
  match s.ctx? c with
  | none => (s, [])
  | some t =>
    let x1 := if t.hasMedia then x.at t.firstUndone else x
    match s.writingNow c with
    | some _ => (trimPass c (modCtx c (fun t => { t with doom := some x }) s), [])
    | none =>
      if t.preds.isEmpty || t.state.begun then (s, [.fin c (.check x1)])
      else (modCtx c (fun t => { t with doom := some x }) s, [])

end Sys2Proof.Machine
end

