-- ==== Sys2Proof/Machine/UnitOps.lean ====
section
/-! DEFINITION. Shared operations on unit states (R394, R395, R397, R400) and on the flash: the journal of the run-time
region (R361, R393) and the staging slot (R357). -/

namespace Sys2Proof.Machine

/-! ### Unit states (R394) -/

def ustCode : UnitKind → Nat | .lu => 0 | .act => 1 | .hda => 2

/-- A unit's number, by the range of its kind. -/
def unitNo (k : UnitKind) (i : Nat) : Nat := match k with | .lu => i % 256 | .act => i % 16 | .hda => i % 8

def ustKey (k : UnitKind) (i : Nat) : Nat :=
  match k with | .lu => Reg.UST_LU (unitNo .lu i) | .act => Reg.UST_ACT (unitNo .act i) | .hda => Reg.UST_HDA (unitNo .hda i)

/-- Operational states, in the order of their codes. -/
inductive OpState | ready | becoming | degraded | stopped | failed | locked
  deriving DecidableEq, Repr

def OpState.code : OpState → Nat | .ready => 0 | .becoming => 1 | .degraded => 2 | .stopped => 3 | .failed => 4 | .locked => 5

/-- Rank of "worse": Failed, Locked, Stopped, Becoming Ready, Degraded, Ready. -/
def OpState.rank : OpState → Nat | .failed => 5 | .locked => 4 | .stopped => 3 | .becoming => 2 | .degraded => 1 | .ready => 0

def worse (a b : OpState) : OpState := if b.rank ≤ a.rank then a else b

/-- A unit's own conditions, as bits: 1 Failed, 2 Becoming Ready, 4 Stopped, 8 Degraded. -/
def State.ownBits (s : State) (k : UnitKind) (i : Nat) : Nat := sget 0 s.own (ustCode k * 256 + unitNo k i)
def setOwn (k : UnitKind) (i bits : Nat) (s : State) : State := { s with own := sset 0 s.own (ustCode k * 256 + unitNo k i) bits }

def cFailed : Nat := 1
def cBecoming : Nat := 2
def cStopped : Nat := 4
def cDegraded : Nat := 8

def addCond (k : UnitKind) (i c : Nat) (s : State) : State := setOwn k i (s.ownBits k i ||| c) s
def dropCond (k : UnitKind) (i c : Nat) (s : State) : State := setOwn k i (s.ownBits k i - (s.ownBits k i &&& c)) s

/-- A Degrade source that concerns a unit is noted beside its conditions. -/
def degradeKey (k : UnitKind) (i src : Nat) : Nat := 4096 + (ustCode k * 256 + unitNo k i) * 256 + src

/-- R345: the notes of sources no longer pending go, and a unit left without one is Degraded no more. -/
def refreshDegraded (s : State) : State :=
  let gone (key : Nat) : Bool := decide (4096 ≤ key) && !s.bit (Reg.FLT_PEND ((key - 4096) % 256 / 32)) ((key - 4096) % 32)
  let own := sdrop gone s.own
  let units := (s.own.filter (fun e => gone e.1)).map (fun e => (e.1 - 4096) / 256)
  { s with own := units.foldl (fun o u =>
      if o.any (fun e => decide (4096 ≤ e.1) && (e.1 - 4096) / 256 == u) then o
      else sset 0 o u (sget 0 o u - (sget 0 o u &&& cDegraded))) own }

/-- The spindle of h stands in STOPPED or COAST outside bring-up and outside a catch sequence (R394, code 3). -/
def State.spinStopped (s : State) (i : Nat) : Bool :=
  if hi : i < 8 then
    let h : Hda := ⟨i, hi⟩
    (s.scu[h].state == .stopped || (s.scu[h].state == .coast && !s.scu[h].lossPending)) && s.ownBits .hda i / 2 % 2 == 0
  else false

/-- A unit's conditions as they stand: its own, and Stopped for an HDA whose spindle has stopped. -/
def State.condBits (s : State) (k : UnitKind) (i : Nat) : Nat :=
  if k = .hda ∧ s.spinStopped i = true then s.ownBits k i ||| cStopped else s.ownBits k i

/-- LU u's key slot is empty (R306). -/
def State.luLocked (s : State) (u : Nat) : Bool := (aget s.cip.keys u).isNone

/-- A unit's own operational state. -/
def State.ownState (s : State) (k : UnitKind) (i : Nat) : OpState :=
  let b := s.condBits k i
  if b % 2 = 1 then .failed
  else if k = .lu ∧ (s.luLocked i = true ∨ s.bit (bank i Reg.CIP_KEY_STAT) 5 = true) then .locked
  else if b / 4 % 2 = 1 then .stopped
  else if b / 2 % 2 = 1 then .becoming
  else if b / 8 % 2 = 1 then .degraded
  else .ready

/-- An actuator takes its HDA's state when that is worse. -/
def State.actState (s : State) (a : Nat) : OpState := worse (s.ownState .act a) (s.ownState .hda (a / 2))

/-- Actuators that hold an LU's zones. -/
def LuCfg.acts (l : LuCfg) : List Nat := (l.runs.map (·.act)).eraseDups

/-- The state shown for an LU: the worst of its own and its actuators', a Failed actuator counting as Degraded while another is
not Failed. -/
def State.luState (s : State) (u : Nat) : OpState :=
  let own := s.ownState .lu u
  match s.luCfg u with
  | none => own
  | some l =>
    let as := l.acts.map s.actState
    let all := as.all (fun x => x == OpState.failed)
    as.foldl (fun w x => worse w (if x = .failed ∧ all = false then .degraded else x)) own

/-- Write a unit's shown state; GEN rises at a change (R397). -/
def showUnit (k : UnitKind) (i : Nat) (op : OpState) (s : State) : State :=
  let key := ustKey k i
  if s.getF key Fld.UST_LU_OP = op.code then s
  else
    let s1 := s.setF key Fld.UST_LU_OP op.code
    s1.setF key Fld.UST_LU_GEN ((s.getF key Fld.UST_LU_GEN + 1) % 65536)

/-- Recompute every shown state. -/
def refreshUst (s : State) : State :=
  let s1 := forHdas (fun h s => if s.hasHda h then showUnit .hda h.val (s.ownState .hda h.val) s else s) s
  let s2 := forActs (fun a s => if s.hasAct a then showUnit .act a.val (s.actState a.val) s else s) s1
  s2.cfg.lus.foldl (fun s l => showUnit .lu l.lu (s.luState l.lu) s) s2

/-- Administrative state of a unit: 0 In Service, 1 Drain, 2 Out of Service, 3 Maintenance. -/
def State.adm (s : State) (k : UnitKind) (i : Nat) : Nat := s.getF (ustKey k i) Fld.UST_LU_ADM

/-- Whether head s of actuator a is out of service (R29). The set stands in `own`, above the units' own conditions. -/
def oosKey (a head : Nat) : Nat := 1024 + a * 16 + head
def State.headOut (s : State) (a head : Nat) : Bool := sget 0 s.own (oosKey a head) == 1
def setHeadOut (a head : Nat) (out : Bool) (s : State) : State := { s with own := sset 0 s.own (oosKey a head) (b2n out) }

/-- Check 5 (R400): the first condition that the LU or an addressed actuator, with its HDA, meets. -/
def State.check5 (s : State) (u : Nat) (acts : List Nat) (heads : List (Nat × Nat)) : Option Sense :=
  let units : List (UnitKind × Nat) := (.lu, u) :: acts.flatMap (fun a => [(.act, a), (.hda, a / 2)])
  let admIs (n : Nat) : Bool := units.any (fun k => s.adm k.1 k.2 == n)
  let hw : List (UnitKind × Nat) := acts.flatMap (fun a => [(.act, a), (.hda, a / 2)])
  let cond (c : Nat) (l : List (UnitKind × Nat)) : Bool := l.any (fun k => s.condBits k.1 k.2 / c % 2 == 1)
  if cond cFailed [(.lu, u)] then some (sense keyHardware 0x44 0x00)
  else if cond cFailed hw || heads.any (fun x => s.headOut x.1 x.2) then some (sense keyHardware 0x83 0x01)
  else if admIs 2 then some (sense keyNotReady 0x82 0x01)
  else if admIs 3 then some (sense keyNotReady 0x82 0x02)
  else if admIs 1 then some (sense keyNotReady 0x82 0x00)
  else if cond cStopped units then some (sense keyNotReady 0x04 0x00)
  else if cond cBecoming units then some (sense keyNotReady 0x83 0x00)
  else none

/-! ### The journal (R361, R393) -/

/-- An entry's first 60 bytes (R361). -/
def entryHead (e : JEntry) : List Byte :=
  leBytes 2 0x4A52 ++ leBytes 1 e.lu ++ leBytes 1 e.page ++ leBytes 1 e.sub ++ leBytes 1 e.data.length ++ leBytes 1 e.kind
    ++ leBytes 1 (e.part + 16 * (e.parts - 1)) ++ leBytes 4 e.seq ++ padTo 48 e.data

/-- The 64 bytes of an entry, VALID written (R361). -/
def entryBytes (e : JEntry) : List Byte := entryHead e ++ leBytes 3 (crc32c (entryHead e)).toNat ++ [0x5A#8]

/-- What 64 bytes of the region say: nothing where MAGIC, CRC or VALID is wrong (R361). -/
def entryOf (l : List Byte) : Option JEntry :=
  let b (o n : Nat) : Nat := leNat ((l.drop o).take n)
  if b 0 2 = 0x4A52 ∧ b 60 3 = (crc32c (l.take 60)).toNat % 2 ^ 24 ∧ b 63 1 = 0x5A ∧ b 5 1 ≤ 48 then
    some ⟨b 6 1, b 2 1, b 3 1, b 4 1, b 7 1 % 16, b 7 1 / 16 + 1, b 8 4, (l.drop 12).take (b 5 1)⟩
  else none

/-- The valid entries of the region, oldest first. -/
def State.journalEntries (s : State) : List JEntry := s.journal.filterMap entryOf

/-- Cut bytes into parts of 48, one at least, sixteen at most. -/
def partsOf : Nat → List Byte → List (List Byte)
  | 0, _ => []
  | n + 1, l => if l.length ≤ 48 then [l] else l.take 48 :: partsOf n (l.drop 48)

/-- Queue a set of entries; `w` waits for its last part. -/
def journalPut (kind lu page sub : Nat) (data : List Byte) (w : Option JWait) (s : State) : State :=
  let ps := partsOf 16 data
  let n := ps.length
  let es := (List.range n).map (fun i => (⟨kind, lu, page, sub, i, n, s.jseq + i, ps.getD i []⟩ : JEntry))
  { s with
    jpend := s.jpend ++ es
    jseq := s.jseq + n
    jwait := match w with | some w => s.jwait ++ [(s.jseq + n - 1, w)] | none => s.jwait }

/-- The newest complete set of a key (R361): its parts in order, from the set whose part 0 has the highest SEQ. -/
def journalGet (l : List JEntry) (kind lu page sub : Nat) : Option (List Byte) :=
  let es := l.filter (fun e => e.kind == kind && e.lu == lu && e.page == page && e.sub == sub)
  let heads := es.filter (fun e => e.part == 0 &&
    (List.range e.parts).all (fun i => es.any (fun x => x.part == i && x.parts == e.parts && x.seq == e.seq + i)))
  match heads.foldl (fun (b : Option JEntry) e => match b with
      | none => some e
      | some x => if x.seq < e.seq then some e else some x) none with
  | none => none
  | some h => some ((List.range h.parts).flatMap (fun i =>
      match es.find? (fun x => x.part == i && x.seq == h.seq + i) with | some x => x.data | none => []))

/-! ### The staging slot (R357) -/

/-- The 60 bytes of a boot directory copy that DCRC covers (R348). -/
def dirHead (d : BootDir) : List Byte :=
  leBytes 4 0x44425943 ++ leBytes 4 d.gen ++ leBytes 1 d.active ++ leBytes 1 (b2n d.prevOk) ++ zeros 2 ++ leBytes 4 d.actVer ++ leBytes 4 d.prevVer
    ++ zeros 40

def dirBytes (d : BootDir) : List Byte := dirHead d ++ leBytes 4 (crc32c (dirHead d)).toNat

/-- What a copy's bytes say: nothing where MAGIC or DCRC is wrong (R348). -/
def dirOf (l : List Byte) : Option BootDir :=
  let b (o n : Nat) : Nat := leNat ((l.drop o).take n)
  if b 0 4 = 0x44425943 ∧ b 60 4 = (crc32c (l.take 60)).toNat then some ⟨b 4 4, b 8 1, b 9 1 == 1, b 12 4, b 16 4⟩ else none

/-- The valid copy of the boot directory with the higher GEN (R348). -/
def State.dirNow (s : State) : Option BootDir :=
  match dirOf s.dirA, dirOf s.dirB with
  | some a, some b => if a.gen < b.gen then some b else some a
  | some a, none => some a
  | none, b => b
/-- The slot that ACTIVE names, or will once an update under way is written (R358), and the staging slot. -/
def State.activeSlot (s : State) : Nat :=
  match s.dirDue with
  | some d => d.active
  | none => match s.dirNow with | some d => d.active | none => 0
def State.stagingSlot (s : State) : Nat := 1 - s.activeSlot
def slotBase (n : Nat) : Nat := if n = 0 then 0x0010000 else 0x1810000
def slotSize : Nat := 24 * 2 ^ 20

def programFlash (m : List Host.Cell) : Nat → List Byte → List Host.Cell
  | _, [] => m
  | a, b :: t => programFlash (sset 0xFF#8 m a b) (a + 1) t

/-- What a staging write comes to. -/
inductive StageResult | done | erasing | badOffset | lostHold
  deriving DecidableEq, Repr

/-- A write of the staging slot by one of its two writers. -/
def stagingWrite (w : Writer) (off : Nat) (data : List Byte) (s : State) : StageResult × State :=
  if s.getF Reg.INT_ACT_STAT Fld.INT_ACT_STAT_PHASE ≠ 0 then (.lostHold, s)
  else if off = 0 then
    if slotSize < data.length then (.badOffset, s) else
    let base := slotBase s.stagingSlot
    (.erasing, { s.setB Reg.GLB_IMG_STAT Fld.GLB_IMG_STAT_STG_BUSY true with
      flash := sdrop (fun a => decide (base ≤ a) && decide (a < base + slotSize)) s.flash
      staging := ⟨some w, true, data.length, some data⟩ })
  else if s.staging.holder ≠ some w then (.lostHold, s)
  else if off ≠ s.staging.next ∨ slotSize < off + data.length then (.badOffset, s)
  else if s.staging.erasing then
    (.erasing, { s with staging := { s.staging with
      next := off + data.length, waiting := s.staging.waiting.map (· ++ data) } })
  else
    (.done, { s with
      flash := programFlash s.flash (slotBase s.stagingSlot + off) data
      staging := { s.staging with next := off + data.length } })

end Sys2Proof.Machine
end

