-- ==== Sys2Proof/Machine/Pages.lean ====
section
/-! DEFINITION. The data that the SCSI commands return: INQUIRY and its pages (R184), mode pages (R185), log pages (R186), zones
(R178), capacity and LUN lists. Positions inside the published standards' structures are taken from those standards (log
entry 14). -/

namespace Sys2Proof.Machine

/-! ### Text -/

/-- The decimal digits of a number below 1,000. -/
def decDigits (n : Nat) : List Byte :=
  let d (k : Nat) : Byte := BitVec.ofNat 8 (48 + k % 10)
  if n < 10 then [d n] else if n < 100 then [d (n / 10), d n] else [d (n / 100), d (n / 10), d n]

/-- An uppercase hexadecimal digit. -/
def hexDigit (n : Nat) : Byte := BitVec.ofNat 8 (if n % 16 < 10 then 48 + n % 16 else 55 + n % 16)

def vendorId : List Byte := [0x53#8, 0x56#8, 0x41#8, 0x52#8, 0x56#8, 0x4F#8, 0x20#8, 0x20#8]
def productId : List Byte := [0x43#8, 0x59#8, 0x38#8, 0x31#8, 0x36#8, 0x2D#8, 0x41#8] ++ List.replicate 9 0x20#8

/-- PRODUCT REVISION LEVEL, from the running image's version (R184). -/
def State.revision (s : State) : List Byte :=
  let v := (s.reg Reg.GLB_IMG_VER).toNat
  [hexDigit (v / 2 ^ 28), hexDigit (v / 2 ^ 24), hexDigit (v / 2 ^ 20), hexDigit (v / 2 ^ 16)]

/-! ### INQUIRY (R184) -/

/-- An LU with at least one sequential zone is host-managed (R179). -/
def LuCfg.zoned (l : LuCfg) : Bool := l.runs.any (fun r => r.seq && decide (0 < r.count))
def LuCfg.ptypeByte (l : LuCfg) : Byte := if l.zoned then 0x14#8 else 0x00#8

def State.inquiryData (s : State) (l : Option LuCfg) : List Byte :=
  let head := match l with
    | some l => [l.ptypeByte, 0#8, Config.inqVersion, 0x12#8, 31#8, 0x01#8, 0x10#8, 0x02#8]
    | none => [0x7F#8, 0#8, Config.inqVersion, 0x12#8, 31#8, 0x00#8, 0x10#8, 0x02#8]
  head ++ vendorId ++ productId ++ s.revision

/-- Lowest HDA that holds zones of an LU. -/
def LuCfg.lowHda (l : LuCfg) : Nat := l.acts.foldl (fun m a => min m (a / 2)) 7

/-- The body of a VPD page of a declared LU; none for a page that is not supported. -/
def State.vpdBody (s : State) (l : LuCfg) (port page : Nat) : Option (List Byte) :=
  let dev := s.cfg.dev.devName.toNat
  let sasAddr := (s.reg (if port = 0 then Reg.SAS_ADDR_HI 0 else Reg.SAS_ADDR_HI 1)).toNat * 2 ^ 32
    + (s.reg (if port = 0 then Reg.SAS_ADDR_LO 0 else Reg.SAS_ADDR_LO 1)).toNat
  match page with
  | 0x00 => some [0x00#8, 0x80#8, 0x83#8, 0x86#8, 0xB0#8, 0xB1#8, 0xB6#8, 0xC0#8, 0xC1#8]
  | 0x80 => some (s.cfg.dev.serial ++ [0x2D#8] ++ decDigits l.lu)
  | 0x83 => some (
      [0x01#8, 0x03#8, 0#8, 16#8] ++ beBytes 8 (6 * 2 ^ 60 + dev % 2 ^ 60) ++ beBytes 8 l.lu
      ++ [0x61#8, 0x93#8, 0#8, 8#8] ++ beBytes 8 sasAddr
      ++ [0x61#8, 0x94#8, 0#8, 4#8] ++ beBytes 4 (port + 1)
      ++ [0x61#8, 0xA3#8, 0#8, 8#8] ++ beBytes 8 dev)
  | 0x86 => some ([0x3D#8, 0x07#8] ++ zeros 58)
  | 0xB0 => some (zeros 4 ++ beBytes 4 2048 ++ beBytes 4 16 ++ zeros 48)
  | 0xB1 => some (beBytes 2 (s.getF (Reg.SCU_CTRL l.lowHda) Fld.SCU_CTRL_TARGET) ++ zeros 58)
  | 0xB6 => some (zeros 4 ++ beBytes 4 0xFFFFFFFF ++ beBytes 4 0xFFFFFFFF ++ beBytes 4 l.maxOpen ++ zeros 44)
  | 0xC0 =>
    let k := ustKey .lu l.lu
    some ([BitVec.ofNat 8 (b2n (l.pifmt == 2)),
      BitVec.ofNat 8 (s.getF k Fld.UST_LU_OP + 16 * s.getF k Fld.UST_LU_ADM)]
      ++ beBytes 2 (s.getF k Fld.UST_LU_GEN) ++ beBytes 4 l.zcount ++ beBytes 4 (l.acts.foldl (fun m a => m ||| 2 ^ a) 0))
  | 0xC1 =>
    let ver (q : Fin 64) : Nat := match s.jq[q].active with | some p => p.ver.toNat | none => 0
    some (Config.pageBytes 0xC1 0 [(s.reg Reg.GLB_IMG_VER).toNat, ver 0, ver 16, ver 32, ver 48, ver 56, 0xB0])
  | _ => none

/-- A VPD page with its header; page 0x83 of an LU that the image does not declare and the like are not served. -/
def State.vpdPage (s : State) (l : LuCfg) (port page : Nat) : Option (List Byte) :=
  match s.vpdBody l port page with
  | some b => some ([l.ptypeByte, BitVec.ofNat 8 page] ++ beBytes 2 b.length ++ b)
  | none => none

/-! ### Mode pages (R185) -/

/-- Supported mode pages, as page and subpage. -/
def modePages : List (Nat × Nat) := [(0x01, 0), (0x02, 0), (0x0A, 0), (0x18, 0), (0x19, 0), (0x19, 1), (0x1C, 0)]

/-- The changeable mask of a page: its own header, then ones at the fields of R185. `n` is the page's length in bytes. -/
def modeMask (page sub n : Nat) : List Byte :=
  let put (l : List (Nat × Byte)) : List Byte := (List.range n).map (fun i => (aget l i).getD 0#8)
  match page, sub with
  | 0x01, 0 => put [(2, 0x04#8)]
  | 0x02, 0 => put [(4, 0xFF#8), (5, 0xFF#8), (8, 0xFF#8), (9, 0xFF#8)]
  | 0x0A, 0 => put [(2, 0x04#8), (3, 0x02#8)]
  | 0x19, 0 => put [(4, 0xFF#8), (5, 0xFF#8), (6, 0xFF#8), (7, 0xFF#8)]
  | 0x19, 1 => (List.range n).map (fun i => if 8 ≤ i ∧ (i - 8) % 48 = 33 then 0xF0#8 else 0#8)
  | 0x1C, 0 => put ([(3, 0x0F#8)] ++ (List.range 8).map (fun i => (4 + i, 0xFF#8)))
  | _, _ => List.replicate n 0#8

/-- Bytes of the page's own header: two, or four in a page with a subpage. -/
def modeHead (sub : Nat) : Nat := if sub = 0 then 2 else 4

/-- A page as MODE SENSE returns it for a PC value: current, changeable, default, saved. -/
def State.modeValue (s : State) (l : LuCfg) (pc page sub : Nat) : List Byte :=
  let cur := s.modePage l.lu page sub
  match pc with
  | 1 => cur.take (modeHead sub) ++ (modeMask page sub cur.length).drop (modeHead sub)
  | 2 => l.modeDefault page sub
  | _ => cur

/-- The pages that a page and subpage code ask for; none: not supported. -/
def modeAsked (page sub : Nat) : Option (List (Nat × Nat)) :=
  let l := modePages.filter (fun p => (page == 0x3F || p.1 == page) && (sub == 0xFF || p.2 == sub))
  if l.isEmpty then none else some l

/-- MODE SENSE data: header, block descriptor, pages. -/
def State.modeSense (s : State) (l : LuCfg) (ten dbd llbaa : Bool) (pc page sub : Nat) : Option (List Byte) :=
  match modeAsked page sub with
  | none => none
  | some ps =>
    let blocks := l.zcount * 65536
    let bd :=
      if dbd then []
      else if ten ∧ llbaa then beBytes 8 blocks ++ zeros 4 ++ beBytes 4 4096
      else beBytes 4 (min blocks 0xFFFFFFFF) ++ [0#8] ++ beBytes 3 4096
    let body := bd ++ ps.flatMap (fun p => s.modeValue l pc p.1 p.2)
    some (if ten then
      beBytes 2 (body.length + 6) ++ [0#8, 0x10#8, BitVec.ofNat 8 (b2n (llbaa && !dbd)), 0#8] ++ beBytes 2 bd.length ++ body
    else [BitVec.ofNat 8 (body.length + 3), 0#8, 0x10#8, BitVec.ofNat 8 bd.length] ++ body)

/-- The values that a changeable field may take. -/
def modeValueOk (page sub : Nat) (new : List Byte) : Bool :=
  match page, sub with
  | 0x1C, 0 =>
    let m := (new.getD 3 0#8).toNat % 16
    m == 0 || m == 4 || m == 6
  | 0x19, 1 => (List.range new.length).all (fun i =>
      if 8 ≤ i ∧ (i - 8) % 48 = 33 then
        let r := (new.getD i 0#8).toNat / 16
        r == 0xA || r == 0xB || r == 0xC
      else true)
  | _, _ => true

/-- One page of a MODE SELECT list against the current page: nothing wrong, or the sense it ends with. PS is ignored. -/
def modeCheck (page sub : Nat) (cur new : List Byte) : Option Sense :=
  if new.length ≠ cur.length then some (sense keyIllegal 0x26 0x00)
  else
    let m := modeMask page sub cur.length
    let fixed := (List.range cur.length).all (fun i =>
      (decide (i < modeHead sub)) || ((cur.getD i 0#8 ^^^ new.getD i 0#8) &&& ~~~(m.getD i 0#8)) == 0#8)
    if fixed && modeValueOk page sub new then none else some (sense keyIllegal 0x26 0x01)

/-- The pages of a MODE SELECT parameter list: page, subpage, bytes. -/
def splitPages : Nat → List Byte → List (Nat × Nat × List Byte)
  | 0, _ => []
  | n + 1, l =>
    match l with
    | [] => []
    | b :: _ =>
      let page := b.toNat % 64
      let long := b.getLsbD 6
      let sub := if long then (l.getD 1 0#8).toNat else 0
      let len := if long then beNat ((l.drop 2).take 2) + 4 else (l.getD 1 0#8).toNat + 2
      (page, sub, (b &&& 0x7F#8) :: (l.take len).drop 1) :: splitPages n (l.drop len)

/-! ### Log pages (R186) -/

/-- The sums of page 0x30 of an actuator: CNT_SECT, CNT_RETRY_OK, CNT_REV, CNT_FR_NOMARK. -/
def State.channelSums (s : State) (a : Nat) : List Nat := (List.range 4).map (fun i => s.logCount 0x30 (4 * a + i))

/-- The numbers a log page reports; none: not supported. -/
def State.logNumbers (s : State) (u page sub : Nat) : Option (List Nat) :=
  match page, sub with
  | 0x02, 0 => some ((List.range 7).map (s.logCount 0x02))
  | 0x03, 0 => some ((List.range 7).map (s.logCount 0x03))
  | 0x05, 0 => some ((List.range 7).map (s.logCount 0x05))
  | 0x0D, 0 => some ((List.range 8).map (fun h => s.getF (Reg.CAL_HDA h) Fld.CAL_HDA_TEMP)
      ++ [twos 8 (Config.dieTemp s.now), twos 8 s.rcd.maxHda, twos 8 s.rcd.maxDie])
  | 0x14, 1 =>
    match s.luCfg u with
    | some l =>
      let ds := l.zones.map s.desc
      some [l.maxOpen, ds.countP (fun d => d.cond == 2), ds.countP (fun d => d.cond == 3), ds.countP (fun d => d.cond == 4)]
    | none => none
  | 0x18, 0 => some ((List.range 8).map (s.logCount 0x18))
  | 0x2F, 0 => some (match aget s.intake.exceptions u with | some x => [x.asc, x.ascq] | none => [0, 0])
  | 0x30, 0 => some ((List.range 16).flatMap s.channelSums)
  | _, _ => none

def State.logSense (s : State) (u page sub : Nat) : Option (List Byte) :=
  let mk (b : List Byte) : List Byte :=
    [BitVec.ofNat 8 (page + (if sub = 0 then 0 else 0x40)), BitVec.ofNat 8 sub] ++ beBytes 2 b.length ++ b
  if page = 0 ∧ sub = 0 then some (mk [0x00#8, 0x02#8, 0x03#8, 0x05#8, 0x0D#8, 0x10#8, 0x14#8, 0x18#8, 0x2F#8, 0x30#8])
  else if page = 0x10 ∧ sub = 0 then some (mk s.selftestParams)
  else match s.logNumbers u page sub with
    | some l => some (mk (Config.pageBytes page sub l))
    | none => none

/-! ### LUNs, capacity, zones -/

def State.reportLuns (s : State) : List Byte :=
  beBytes 4 (8 * s.cfg.lus.length) ++ zeros 4 ++ s.cfg.lus.flatMap (fun l => [0#8, BitVec.ofNat 8 l.lu] ++ zeros 6)

/-- P_TYPE and PROT_EN (R181). -/
def LuCfg.protByte (l : LuCfg) : Nat := if l.pifmt = 0 then 0 else 1 + 2 * (l.ptype - 1)

def LuCfg.capacity (l : LuCfg) : List Byte :=
  beBytes 8 (l.zcount * 65536 - 1) ++ beBytes 4 4096
  ++ [BitVec.ofNat 8 (l.protByte + (if l.zoned then 16 else 0)), 0#8] ++ zeros 18

/-- Whether a zone is among those a REPORTING OPTIONS value asks for. -/
def zoneAsked (opt : Nat) (d : ZDesc) : Bool :=
  match opt with
  | 0x00 => true
  | 0x01 => d.cond == 1
  | 0x02 => d.cond == 2
  | 0x03 => d.cond == 3
  | 0x04 => d.cond == 4
  | 0x05 => d.cond == 0xE
  | 0x07 => d.cond == 0xF
  | 0x3F => d.cond == 0
  | _ => false

/-- A zone descriptor of REPORT ZONES; a zone without a valid write pointer reports all ones. -/
def zoneReport (n : Nat) (d : ZDesc) : List Byte :=
  let wp := if d.ztype = true ∧ d.cond ≠ 0xE ∧ d.cond ≠ 0xF then n * 65536 + d.wp else 2 ^ 64 - 1
  [if d.ztype then 2#8 else 1#8, BitVec.ofNat 8 (16 * d.cond)] ++ zeros 6 ++ beBytes 8 65536 ++ beBytes 8 (n * 65536)
    ++ beBytes 8 wp ++ zeros 32

/-- REPORT ZONES data for `alloc` bytes. -/
def State.reportZones (s : State) (l : LuCfg) (start opt alloc : Nat) (partial_ : Bool) : List Byte :=
  let zs := (List.range l.zcount).filter (fun n => decide (start ≤ n) && zoneAsked opt (s.desc (l.zbase + n)))
  let n := if partial_ then min zs.length ((alloc - 64) / 64) else zs.length
  let shown := zs.take ((alloc - 64 + 63) / 64)
  beBytes 4 (64 * n) ++ zeros 4 ++ beBytes 8 (l.zcount * 65536 - 1) ++ zeros 48
    ++ shown.flatMap (fun k => zoneReport k (s.desc (l.zbase + k)))

end Sys2Proof.Machine
end

