-- ==== Sys2Proof/Machine/Scsi.lean ====
section
/-! DEFINITION. The SCSI commands (R174 to R188): the checks of a CDB, the context it makes, and what a command that needs no
sectors does when it runs. -/

namespace Sys2Proof.Machine

/-! ### The CDB (R178, R181, R182) -/

def Ctx.c (x : Ctx) (i : Nat) : Nat := (x.cdb.getD i 0#8).toNat
def Ctx.be (x : Ctx) (off n : Nat) : Nat := beNat ((x.cdb.drop off).take n)

def fieldErr : Sense := sense keyIllegal 0x24 0x00
def opErr : Sense := sense keyIllegal 0x20 0x00
def rangeErr : Sense := sense keyIllegal 0x21 0x00
def luErr : Sense := sense keyIllegal 0x25 0x00
def listErr : Sense := sense keyIllegal 0x26 0x00

/-- What a CDB asks: class of R194, first block, blocks, protect field, bytes moved, and whether it takes bobbins (R190). -/
structure Ask where
  cls : Nat
  lba : Nat
  nblk : Nat
  prot : Nat
  len : Nat
  bobs : Bool
  deriving DecidableEq, Repr

def Ask.plain (len : Nat) : Ask := ⟨4, 0, 0, 0, len, true⟩
def Ask.none : Ask := ⟨4, 0, 0, 0, 0, false⟩

/-- CDB length by operation-code group, for the control byte (SPC). -/
def cdbLen (op : Nat) : Nat := match op / 32 with | 0 => 6 | 1 => 10 | 2 => 10 | 5 => 12 | _ => 16

/-- NACA (R176). -/
def frameNaca (f : CmdFrame) : Bool := (fc f (cdbLen (fc f 0) - 1)) / 4 % 2 == 1

/-- The checks of READ(16), WRITE(16), VERIFY(16). -/
def askBlocks (l : LuCfg) (cls : Nat) (f : CmdFrame) : Except Sense Ask :=
  let lba := fbe f 2 8
  let n := fbe f 10 4
  let prot := fc f 1 / 32
  if cls = 2 ∧ 1 < fc f 1 / 2 % 4 then .error fieldErr
  else if 2048 < n then .error fieldErr
  else if 5 < prot ∨ (prot ≠ 0 ∧ l.pifmt = 0) then .error fieldErr
  else if l.zcount * 65536 < lba + n then .error rangeErr
  else .ok ⟨cls, lba, n, prot, 4096 * n, true⟩

/-- Check 4 of R189 for a declared LU. -/
def State.check4 (s : State) (l : LuCfg) (f : CmdFrame) : Except Sense Ask :=
  let c1 := fc f 1
  match fc f 0 with
  | 0x00 => .ok Ask.none
  | 0x03 => .ok (Ask.plain (fc f 4))
  | 0x04 =>
    if c1 / 16 % 2 ≠ 1 ∨ c1 / 64 = 1 then .error fieldErr
    else .ok { Ask.plain (if c1 / 32 % 2 = 1 then 8 else 4) with cls := 3 }
  | 0x07 =>
    if c1 / 2 % 2 ≠ 1 then .error fieldErr
    else
      let n := (f.param.length - 4) / 8
      if 32 < n then .error listErr else .ok ⟨5, 0, n, 0, 4096 * n, true⟩
  | 0x12 =>
    let alloc := fbe f 3 2
    if c1 % 2 = 0 then (if fc f 2 = 0 then .ok (Ask.plain alloc) else .error fieldErr)
    else if (s.vpdPage l f.port.val (fc f 2)).isSome then .ok (Ask.plain alloc) else .error fieldErr
  | 0x15 => if c1 / 16 % 2 = 1 ∧ c1 % 2 = 0 then .ok (Ask.plain (fc f 4)) else .error fieldErr
  | 0x55 => if c1 / 16 % 2 = 1 ∧ c1 % 2 = 0 then .ok (Ask.plain (fbe f 7 2)) else .error fieldErr
  | 0x1A => if (modeAsked (fc f 2 % 64) (fc f 3)).isSome then .ok (Ask.plain (fc f 4)) else .error fieldErr
  | 0x5A => if (modeAsked (fc f 2 % 64) (fc f 3)).isSome then .ok (Ask.plain (fbe f 7 2)) else .error fieldErr
  | 0x1C =>
    if fc f 2 = 0 ∨ (aget s.intake.diagWritten (l.lu * 256 + fc f 2)).isSome = true then .ok (Ask.plain (fbe f 3 2)) else .error fieldErr
  | 0x1D =>
    let code := c1 / 32
    if code = 1 ∨ code = 2 ∨ code = 4 then .ok (Ask.plain (fbe f 3 2))
    else .error fieldErr
  | 0x3B => if c1 % 32 = 0x0D then .ok (Ask.plain (fbe f 6 3)) else if c1 % 32 = 0x0F then .ok Ask.none else .error fieldErr
  | 0x3C =>
    if (c1 % 32 = 2 ∨ c1 % 32 = 3) ∧ fc f 2 = 0 ∧ fbe f 3 3 ≤ 65536 then .ok (Ask.plain (fbe f 6 3)) else .error fieldErr
  | 0x48 => if c1 % 32 ≠ 3 then .error opErr else if c1 / 32 % 2 = 1 then .error fieldErr else .ok { Ask.none with cls := 3 }
  | 0x4D =>
    if c1 % 4 ≠ 0 then .error fieldErr
    else if (s.logSense l.lu (fc f 2 % 64) (fc f 3)).isSome then .ok (Ask.plain (fbe f 7 2)) else .error fieldErr
  | 0x88 => askBlocks l 0 f
  | 0x8A => askBlocks l 1 f
  | 0x8F => askBlocks l 2 f
  | 0x91 => if c1 / 2 % 2 = 1 then .error fieldErr else .ok Ask.none
  | 0x94 =>
    if c1 % 32 = 0 ∨ 4 < c1 % 32 then .error opErr
    else if fc f 14 % 2 = 1 then .ok { Ask.none with cls := 3 }
    else if l.zcount * 65536 ≤ fbe f 2 8 then .error rangeErr
    else if fbe f 2 8 % 65536 ≠ 0 then .error fieldErr
    else .ok { Ask.none with cls := 3, lba := fbe f 2 8 }
  | 0x95 =>
    let opt := fc f 14 % 64
    if c1 % 32 ≠ 0 then .error opErr
    else if ¬(opt ≤ 7 ∨ opt = 0x10 ∨ opt = 0x11 ∨ opt = 0x3F) then .error fieldErr
    else if l.zcount * 65536 ≤ fbe f 2 8 then .error rangeErr
    else .ok (Ask.plain (fbe f 10 4))
  | 0x9E => if c1 % 32 ≠ 0x10 then .error opErr else .ok (Ask.plain (fbe f 10 4))
  | 0xA0 => if fc f 2 = 0 ∨ fc f 2 = 2 then .ok (Ask.plain (fbe f 6 4)) else .error fieldErr
  | _ => .error opErr

/-- Check 4 for an LU that the image does not declare: INQUIRY, REPORT LUNS and REQUEST SENSE are served, with the length of
their response for L (R190); anything else ends as SPC-6 requires. -/
def State.check4Undeclared (s : State) (f : CmdFrame) : Except Sense Ask :=
  match fc f 0 with
  | 0x03 => .ok (Ask.plain 18)
  | 0x12 => if fc f 1 % 2 = 0 ∧ fc f 2 ≠ 0 then .error fieldErr else .ok (Ask.plain 36)
  | 0xA0 => if fc f 2 = 0 ∨ fc f 2 = 2 then .ok (Ask.plain s.reportLuns.length) else .error fieldErr
  | _ => .error luErr

/-- B of R190. -/
def Ask.bobbins (a : Ask) : Nat := if a.bobs = true ∧ 0 < a.len then min 128 ((a.len + 65535) / 65536) else 0

/-! ### The context (R194) -/

/-- One segment of one block for each LBA that REASSIGN BLOCKS lists. -/
def State.segsListed (s : State) (l : LuCfg) : Nat → List Nat → List Seg
  | _, [] => []
  | k, b :: t =>
    let d := s.desc (l.zbase + b / 65536)
    ⟨k, b / 65536, b % 65536, 1, 0, d.act, d.head, 0⟩ :: s.segsListed l (k + 1) t

/-- The context a command takes. -/
def State.mkCtx (s : State) (f : CmdFrame) (l : Option LuCfg) (a : Ask) (seq : Nat) : Ctx :=
  { state := .dataIn, attr := f.attr, heldFlag := false, pinned := false, abort := false
    lu := frameLu f, port := f.port.val, init := f.init.val, tag := f.tag.toNat
    cdb := padTo 16 f.cdb, lba := a.lba, nblk := a.nblk, seq := seq, adm := s.intake.nextSeq, admitT := s.now
    segs := match l with
      | some l => if a.cls = 5 then s.segsListed l 0 (reassignList 32 (f.param.drop 4)) else s.segsOf l a.lba a.nblk
      | none => []
    hostDone := 0, err := none, prot := a.prot, pifmt := match l with | some l => l.pifmt | none => 0
    cls := a.cls, reserve := l.isNone, bobs := [], credits := a.bobbins, preds := [], placed := [], queuedAt := s.now
    param := f.param, response := [], taken := [], rereads := [], slotEnds := [], contd := [], queuedOnce := false
    pinFrom := [], pinCnt := 0, requested := 0, outstanding := false, acked := 0, doom := none, part := false, saved := false
    phase := 0, srcs := [], moved := [] }

/-- Whether a command brings write data or compare data from its initiator, paced by XFER_RDY (R180). -/
def Ctx.compares (x : Ctx) : Bool := x.op == 0x8F && x.c 1 / 2 % 4 == 1
def Ctx.dataOut (x : Ctx) : Bool := x.cls == 1 || x.compares
/-- Whether a command sends blocks to its initiator. -/
def Ctx.sendsBlocks (x : Ctx) : Bool := x.cls == 0

/-! ### Zones of a command -/

def LuCfg.gz (l : LuCfg) (n : Nat) : Nat := l.zbase + n

/-- Zones that an LU has open (R269). -/
def State.openZones (s : State) (l : LuCfg) : List Nat := l.zones.filter (fun g => (s.desc g).cond == 2 || (s.desc g).cond == 3)

/-- Whether a zone has an admitted write that has not ended. -/
def State.writeOn (s : State) (l : LuCfg) (g : Nat) : Bool :=
  s.intake.ctxs.any (fun e => e.2.cls == 1 && e.2.state != .linger && e.2.lu == l.lu && e.2.segs.any (fun x => l.gz x.zone == g))

/-- The zone that intake closes to open one more: implicitly opened, written least recently, with no admitted write. -/
def State.closable (s : State) (l : LuCfg) : Option Nat :=
  ((s.openZones l).filter (fun g => (s.desc g).cond == 2 && !s.writeOn l g)).foldl (fun b g => match b with
    | none => some g
    | some h => if (aget s.zones.lastW g).getD 0 < (aget s.zones.lastW h).getD 0 then some g else some h) none

/-- Whether one more zone of the LU may be open. -/
def State.roomToOpen (s : State) (l : LuCfg) : Bool := decide ((s.openZones l).length < l.maxOpen) || (s.closable l).isSome

/-- CLOSE of an open zone (R268); its write pointer is saved as it leaves the open condition (R277). -/
def closeZone (g : Nat) (s : State) : State :=
  let d := s.desc g
  if d.cond = 2 ∨ d.cond = 3 then markSave g (updateDesc g (fun d => { d with cond := if d.wp = 0 then 1 else 4 }) s) else s

/-- Open a zone with the given condition, closing another where MAX_OPEN asks for it (R268, R269). -/
def openZone (l : LuCfg) (g cond : Nat) (s : State) : State :=
  let d := s.desc g
  if d.cond = 1 ∨ d.cond = 4 then
    let s1 := if (s.openZones l).length < l.maxOpen then s else match s.closable l with | some h => closeZone h s | none => s
    updateDesc g (fun d => { d with cond := cond }) s1
  else if d.cond = 2 ∧ cond = 3 then updateDesc g (fun d => { d with cond := 3 }) s
  else s

/-- An informational exception of an LU (R270, R273, R187). -/
def noteException (u : Nat) (x : Sense) (s : State) : State := s.modIntake (fun i => { i with exceptions := aset i.exceptions u x })
def stampWarning : Sense := sense 0x1 0x80 0x02

/-- Keep the descriptor as it was before a zone operation, in case its save cannot be made (R343). -/
def keepUndo (c g : Nat) (s : State) : State :=
  { s with zones := { s.zones with undo := s.zones.undo ++ [(c, g, s.zoneBytes g)] } }

/-! ### Commands without sectors -/

/-- What running a command comes to: it ends, or it waits for something else to end it. -/
inductive Run
  | ends (how : How)
  | waits
  deriving DecidableEq, Repr

/-- DATA frames of at most 1,024 bytes (R174). -/
def dataFrames (init tag : Nat) : Nat → Nat → List Byte → List PortMsg
  | 0, _, _ => []
  | n + 1, off, l => if l.isEmpty then [] else .data init tag off (l.take 1024) :: dataFrames init tag n (off + 1024) (l.drop 1024)

/-- Send a command's data, cut to its allocation length, and end it GOOD (log entry 16). -/
def returnData (x : Ctx) (l : List Byte) (alloc : Nat) (s : State) : State × Run :=
  let d := l.take alloc
  ((dataFrames x.init x.tag (d.length / 1024 + 1) 0 d).foldl (fun s m => sendMsg x.port m s) s, .ends .good)

/-- REQUEST SENSE (R443). -/
def runRequestSense (x : Ctx) (s : State) : State × Run :=
  let desc := x.c 1 % 2 == 1
  let fmt (e : Sense) : List Byte := if desc then e.descriptor else e.fixed
  match s.luCfg x.lu with
  | none => returnData x (fmt luErr) (x.c 4) s
  | some l =>
    match s.intake.uas.find? (fun a => a.init == x.init && a.lu == x.lu) with
    | some a =>
      returnData x (fmt (sense keyAttention a.asc a.ascq)) (x.c 4) (s.modIntake (fun i => { i with uas := i.uas.erase a }))
    | none =>
      match s.check5 x.lu l.acts [] with
      | some e => returnData x (fmt e) (x.c 4) s
      | none =>
        if s.luLocked x.lu then returnData x (fmt (sense keyProtect 0x80 0x00)) (x.c 4) s
        else if ((s.modePage x.lu 0x1C 0).getD 3 0#8).toNat % 16 = 6 then
          match aget s.intake.exceptions x.lu with
          | some e => returnData x (fmt e) (x.c 4) (s.modIntake (fun i => { i with exceptions := adel i.exceptions x.lu }))
          | none => returnData x (fmt (sense keyNoSense 0 0)) (x.c 4) s
        else returnData x (fmt (sense keyNoSense 0 0)) (x.c 4) s

/-- MODE SELECT (R185, R361): every page is checked before any is changed; the command ends when the last page's entry is
written. -/
def runModeSelect (c : Nat) (x : Ctx) (ten : Bool) (s : State) : State × Run :=
  let n := if ten then x.be 7 2 else x.c 4
  let p := x.param.take n
  if n = 0 then (s, .ends .good) else
  let head := if ten then 8 else 4
  let bd := if ten then beNat ((p.drop 6).take 2) else (p.getD 3 0#8).toNat
  if p.length < head + bd then (s, .ends (.check (sense keyIllegal 0x1A 0x00))) else
  let ps := splitPages 16 (p.drop (head + bd))
  let bad := ps.findSome? (fun q =>
    if !modePages.contains (q.1, q.2.1) then some listErr else modeCheck q.1 q.2.1 (s.modePage x.lu q.1 q.2.1) q.2.2)
  match bad with
  | some e => (s, .ends (.check e))
  | none =>
    if ps.isEmpty then (s, .ends .good) else
    let s1 := ps.foldl (fun s q => s.modIntake (fun i => { i with modes := aset i.modes (modeKey x.lu q.1 q.2.1) q.2.2 })) s
    let s2 := (ps.take (ps.length - 1)).foldl (fun s q => journalPut 0 x.lu q.1 q.2.1 q.2.2 none s) s1
    let s3 := match ps.getLast? with
      | some q => journalPut 0 x.lu q.1 q.2.1 q.2.2 (some (.ctx c)) s2
      | none => s2
    (addUaAll (fun i => i != x.init) x.lu 0x2A 0x01 s3, .waits)

/-- Self-test segments of an LU's actuators: one for each configured head and recording zone (R230). -/
def startSelftest (l : LuCfg) (ext : Bool) (s : State) : State :=
  l.acts.foldl (fun s a =>
    if h : a < 16 then
      let cfg := s.cfg.acts[a]
      let ws := (List.range cfg.heads).flatMap (fun hd =>
        (List.range cfg.zones.length).map (fun z => ((Work.selftest hd z 0 ext, s.now) : Work × Nat)))
      { s with sch := s.sch.set a { s.sch[a] with work := s.sch[a].work ++ ws } h }
    else s) s

def Work.isSelftest : Work → Bool | .selftest _ _ _ _ => true | _ => false

/-- Record a self-test result: code, result, time; the last twenty are kept (R186). -/
def noteSelftest (code result : Nat) (s : State) : State :=
  s.modIntake (fun i => { i with selftests := ((code, result, s.rcd.hours) :: i.selftests).take 20 })

/-- Code 100b: self-tests end at the next sector boundary (R230). -/
def abortSelftest (l : LuCfg) (s : State) : State :=
  let s1 := l.acts.foldl (fun s a =>
    if h : a < 16 then
      let s1 := { s with sch := s.sch.set a { s.sch[a] with work := s.sch[a].work.filter (fun w => !w.1.isSelftest) } h }
      match s1.sch[a].pass with
      | some p =>
        match p.kind with
        | .internal w =>
          if w.isSelftest then { s1 with chan := s1.chan.set a { s1.chan[a] with pass := s1.chan[a].pass.map (fun q => { q with slots := [] }) } h }
          else s1
        | _ => s1
      | none => s1
    else s) s
  noteSelftest 4 1 s1

/-- SEND DIAGNOSTIC (R178, R230): pages are kept for RECEIVE DIAGNOSTIC RESULTS. -/
def runSendDiag (x : Ctx) (l : LuCfg) (s : State) : State × Run :=
  let s1 := if x.c 1 / 16 % 2 = 1 ∧ 4 ≤ x.param.length then
      s.modIntake (fun i => { i with diagWritten := aset i.diagWritten (x.lu * 256 + (x.param.getD 0 0#8).toNat) x.param })
    else s
  match x.c 1 / 32 with
  | 1 => (startSelftest l false (noteSelftest 1 15 s1), .ends .good)
  | 2 => (startSelftest l true (noteSelftest 2 15 s1), .ends .good)
  | 4 => (abortSelftest l s1, .ends .good)
  | _ => (s1, .ends .good)

/-- RECEIVE DIAGNOSTIC RESULTS: page 0x00 lists the pages. -/
def runRecvDiag (x : Ctx) (s : State) : State × Run :=
  let mine := s.intake.diagWritten.filter (fun e => e.1 / 256 == x.lu)
  if x.c 2 = 0 then
    let l := 0#8 :: (mine.map (fun e => BitVec.ofNat 8 (e.1 % 256))).filter (· != 0#8)
    returnData x ([0#8, 0#8] ++ beBytes 2 l.length ++ l) (x.be 3 2) s
  else returnData x ((aget s.intake.diagWritten (x.lu * 256 + x.c 2)).getD []) (x.be 3 2) s

/-- WRITE BUFFER mode 0x0D (R357): a write that waits for the erase ends with it. -/
def runDownload (x : Ctx) (s : State) : State × Run :=
  let r := stagingWrite .host (x.be 3 3) (x.param.take (x.be 6 3)) s
  match r.1 with
  | .done => (r.2, .ends .good)
  | .erasing => (r.2, .waits)
  | .badOffset => (r.2, .ends (.check fieldErr))
  | .lostHold => (r.2, .ends (.check (sense keyIllegal 0x2C 0x00)))

/-- INT_ACT_STAT.HELD counts the commands held now. -/
def showHeld (s : State) : State :=
  s.setF Reg.INT_ACT_STAT Fld.INT_ACT_STAT_HELD (min 65535 (s.intake.ctxs.countP (fun e => e.2.heldFlag)))

/-- Quiesce begins (R212 step 1): every command that has not begun is held; one that a running pass was to write behind another leaves it. -/
def startActivation (by_ : ActBy) (s : State) : State :=
  let me (c : Nat) : Bool := match by_ with | .ctx k => k == c | .mgmt => false
  let s0 := (s.intake.ctxs.filter (fun e => !e.2.state.begun && !me e.1)).foldl (fun s e => trimPass e.1 s) s
  let s1 := s0.modIntake (fun i => { i with
    actBy := some by_
    ctxs := i.ctxs.map (fun e => (e.1, if e.2.state.begun || me e.1 then e.2 else { e.2 with heldFlag := true })) })
  showHeld (s1.setF Reg.INT_ACT_STAT Fld.INT_ACT_STAT_PHASE 1)

/-- WRITE BUFFER mode 0x0F (R212). -/
def runActivate (c : Nat) (s : State) : State × Run :=
  if s.getF Reg.INT_ACT_STAT Fld.INT_ACT_STAT_PHASE ≠ 0 then (s, .ends (.check (sense keyIllegal 0x2C 0x00)))
  else (startActivation (.ctx c) s, .waits)

/-- READ BUFFER: data of the 64 KiB buffer, or its descriptor. -/
def runReadBuffer (x : Ctx) (s : State) : State × Run :=
  if x.c 1 % 32 = 3 then returnData x ([0x00#8] ++ beBytes 3 65536) (x.be 6 3) s
  else
    let off := x.be 3 3
    returnData x ((List.range (min (x.be 6 3) (65536 - off))).map (fun i => Config.readBufferByte (off + i))) (x.be 6 3) s

/-! ### Zone and format operations (R268 to R271, R308, R441) -/

/-- The condition of a zone that takes no zone operation. -/
def ZDesc.noZoneOp (d : ZDesc) : Bool := !d.ztype || d.cond == 0xF

/-- One zone's operation: an error, or the new state and whether a save has to be awaited. -/
def zoneOp (c : Nat) (l : LuCfg) (sa g : Nat) (s : State) : Except Sense (State × Bool) :=
  let d := s.desc g
  if d.noZoneOp then .error fieldErr else
  match sa with
  | 1 => .ok (closeZone g s, false)
  | 2 =>
    let s1 := updateDesc g (fun d => { d with cond := 0xE, wp := 65536, attempt := 0 }) (keepUndo c g s)
    .ok (waitSave (.ctx c) g (markSave g (setAwp g 65536 s1)), true)
  | 3 =>
    if (d.cond = 1 ∨ d.cond = 4) ∧ s.roomToOpen l = false then .error (sense keyProtect 0x0C 0x12)
    else .ok (openZone l g 3 s, false)
  | _ =>
    if d.stamp = 0xFFFFFFFF then .error (sense keyProtect 0x80 0x01)
    else
      let e := d.stamp + 1
      let s1 := updateDesc g (fun d => { d with cond := 1, wp := 0, stamp := e, attempt := 0, limit := false
                                                warn := d.warn || e == 0x80000000 }) (keepUndo c g s)
      let s2 := if e = 0x80000000 then noteException l.lu stampWarning s1 else s1
      .ok (waitSave (.ctx c) g (markSave g (setAwp g 0 s2)), true)

/-- The zones that an operation with ALL takes (ZBC-2). -/
def zoneOpAll (sa : Nat) (d : ZDesc) : Bool :=
  d.ztype && (match sa with
    | 1 => d.cond == 2 || d.cond == 3
    | 2 => d.cond == 2 || d.cond == 3 || d.cond == 4
    | 3 => d.cond == 4
    | _ => d.cond == 2 || d.cond == 3 || d.cond == 4 || d.cond == 0xE)

def zoneOps (c : Nat) (l : LuCfg) (sa : Nat) : List Nat → Bool → State → Except Sense (State × Bool)
  | [], w, s => .ok (s, w)
  | g :: t, w, s =>
    match zoneOp c l sa g s with
    | .error e => .error e
    | .ok r => zoneOps c l sa t (w || r.2) r.1

def runZoneOut (c : Nat) (x : Ctx) (l : LuCfg) (s : State) : State × Run :=
  let zs := if x.c 14 % 2 = 1 then l.zones.filter (fun g => zoneOpAll x.sa (s.desc g)) else [l.gz (x.lba / 65536)]
  match zoneOps c l x.sa zs false s with
  | .error e => (s, .ends (.check e))
  | .ok r => (r.1, if r.2 then .waits else .ends .good)

def raiseWork (a : Nat) (w : Work) (s : State) : State :=
  if h : a < 16 then { s with sch := s.sch.set a { s.sch[a] with work := s.sch[a].work ++ [(w, s.now)] } h } else s

/-- FORMAT UNIT's change of one zone (R441, R41). -/
def formatZone (c g : Nat) (s : State) : State :=
  let d := s.desc g
  let sz := match s.cfg.acts.toList[d.act]? with
    | some a => (match a.zones[d.rz]? with | some z => z.sz | none => 0)
    | none => 0
  let s1 :=
    if sz < d.defPrim ∨ d.klabel = 0xFFFFFFFF then updateDesc g (fun d => { d with cond := 0xF }) s
    else if d.ztype then
      setAwp g 0 (updateDesc g (fun d => { d with cond := 1, valid := true, warn := false, limit := false, attempt := 0
                                                  wp := 0, stamp := 1, klabel := d.klabel + 1 }) s)
    else raiseWork d.act (.fill g 0) (updateDesc g (fun d => { d with cond := 0, valid := true, warn := false, limit := false, attempt := 0
                                                                      wp := 0, stamp := 1, klabel := d.klabel + 1 }) s)
  waitSave (.ctx c) g (markSave g s1)

/-- A response that is sent at once where IMMED asks for it; the operation goes on and sends nothing more. -/
def answerNow (c : Nat) (x : Ctx) (s : State) : State :=
  modCtx c (fun x => { x with response := [1#8], tag := x.tag + 65536 }) (respond x.port x.init x.tag x.lu .good s)

/-- FORMAT UNIT (R178, R181, R441): the parameter list is a header whose DEFECT LIST LENGTH is zero. -/
def runFormat (c : Nat) (x : Ctx) (l : LuCfg) (s : State) : State × Run :=
  let long := x.c 1 / 32 % 2 = 1
  let p := x.param
  let dl := if long then beNat ((p.drop 4).take 4) else beNat ((p.drop 2).take 2)
  let info := x.c 1 / 64
  let usage := (p.getD 0 0#8).toNat % 8
  let ptype : Option Nat := match info, usage with
    | 0, 0 => some 0 | 2, 0 => some 1 | 3, 0 => some 2 | 3, 1 => some 3 | _, _ => none
  if p.length ≠ (if long then 8 else 4) ∨ dl ≠ 0 then (s, .ends (.check listErr))
  else match ptype with
    | none => (s, .ends (.check listErr))
    | some t =>
      let fmt := if t = 0 then 0 else if Config.formatGuard64 p then 2 else 1
      let s1 := { s with
        cfg := { s.cfg with lus := s.cfg.lus.map (fun k => if k.lu = l.lu then { k with pifmt := fmt, ptype := t } else k) }
        zones := { s.zones with formats := aset s.zones.formats l.lu (fmt, t) } }
      let s2 := l.zones.foldl (fun s g => formatZone c g s) s1
      ((if (p.getD 1 0#8).getLsbD 1 then answerNow c x s2 else s2), .waits)

/-- Overwrite a key slot and every derived key of an LU with zeros (R302 step 4, R308 step 1). -/
def clearKeySlot (u : Nat) (s : State) : State :=
  let s1 := { s with cip := { s.cip with
    keys := adel s.cip.keys u, derived := s.cip.derived.filter (fun k => k.lu != u)
    derivQ := s.cip.derivQ.filter (fun k => k.1 != u) } }
  let k := bank u Reg.CIP_KEY_STAT
  (((s1.setB k Fld.CIP_KEY_STAT_LOADED false).setF k Fld.CIP_KEY_STAT_KCV 0).setB k Fld.CIP_KEY_STAT_CLEARING false)

/-- SANITIZE's change of one zone's descriptor (R308); it is noted until the zone's save record is written. -/
def wipeZone (g : Nat) (s0 : State) : State :=
  let d := s0.desc g
  let s := { s0 with zones := { s0.zones with wiping := aset s0.zones.wiping g d.klabel } }
  markSave g (if d.klabel = 0xFFFFFFFF then updateDesc g (fun d => { d with cond := 0xF }) s
    else if d.ztype ∧ d.cond ≠ 0xF then
      setAwp g 0 (updateDesc g (fun d => { d with klabel := d.klabel + 1, cond := 1, wp := 0, attempt := 0
                                                  stamp := min 0xFFFFFFFF (d.stamp + 1) }) s)
    else updateDesc g (fun d => { d with klabel := d.klabel + 1 }) s)

/-- The same for a command that waits for the save. -/
def sanitizeZone (c g : Nat) (s : State) : State := waitSave (.ctx c) g (wipeZone g s)

def runSanitize (c : Nat) (x : Ctx) (l : LuCfg) (s : State) : State × Run :=
  let s1 := l.zones.foldl (fun s g => sanitizeZone c g s) (clearKeySlot l.lu s)
  (refreshUst (if x.c 1 / 128 = 1 then answerNow c x s1 else s1), if l.zones.isEmpty then .ends .good else .waits)

/-- Why a re-key of global zone g of LU u is refused (R307): the code of REKEY_CMD.RESULT. -/
def State.rekeyRefusal (s : State) (u g : Nat) : Option Nat :=
  if s.luLocked u || s.bitF (bank u Reg.CIP_KEY_STAT) Fld.CIP_KEY_STAT_CLEARING then some 2
  else if (s.desc g).cond = 0xF then some 3
  else if (s.desc g).klabel = 0xFFFFFFFF then some 4
  else none

/-- A re-key begins (R307): the descriptor changes, and the command ends with the save of its record. -/
def runRekey (c : Nat) (x : Ctx) (l : LuCfg) (s : State) : State × Run :=
  let g := l.gz (x.lba / 65536)
  match s.rekeyRefusal l.lu g with
  | some r => (endRekey c r s, .ends .good)
  | none =>
    let s1 := keepUndo c g s
    let s2 := if (s.desc g).ztype then
        setAwp g 0 (updateDesc g (fun d => { d with klabel := d.klabel + 1, stamp := 1, wp := 0, cond := 1, attempt := 0 }) s1)
      else updateDesc g (fun d => { d with klabel := d.klabel + 1, stamp := 1 }) s1
    (waitSave (.ctx c) g (markSave g s2), .waits)

/-- A command of class 3 or 4, or one with no block to move, runs (R197: every task it follows has completed). -/
def runCmd (c : Nat) (x : Ctx) (s : State) : State × Run :=
  match x.op with
  | 0x03 => runRequestSense x s
  | 0xA0 => returnData x s.reportLuns (x.be 6 4) s
  | 0x12 =>
    match s.luCfg x.lu with
    | none => returnData x (s.inquiryData none) (x.be 3 2) s
    | some l => returnData x (if x.c 1 % 2 = 1 then (s.vpdPage l x.port (x.c 2)).getD [] else s.inquiryData (some l)) (x.be 3 2) s
  | op =>
    match s.luCfg x.lu with
    | none => (s, .ends (.check luErr))
    | some l =>
      match op with
      | 0x04 => runFormat c x l s
      | 0x15 => runModeSelect c x false s
      | 0x55 => runModeSelect c x true s
      | 0x1A => returnData x ((s.modeSense l false (x.c 1 / 8 % 2 == 1) false (x.c 2 / 64) (x.c 2 % 64) (x.c 3)).getD []) (x.c 4) s
      | 0x5A =>
        returnData x ((s.modeSense l true (x.c 1 / 8 % 2 == 1) (x.c 1 / 16 % 2 == 1) (x.c 2 / 64) (x.c 2 % 64) (x.c 3)).getD []) (x.be 7 2) s
      | 0x1C => runRecvDiag x s
      | 0x1D => runSendDiag x l s
      | 0x3B => if x.c 1 % 32 = 0x0F then runActivate c s else runDownload x s
      | 0x3C => runReadBuffer x s
      | 0x48 => runSanitize c x l s
      | 0x4D => returnData x ((s.logSense l.lu (x.c 2 % 64) (x.c 3)).getD []) (x.be 7 2) s
      | 0x94 => if x.port = 2 then runRekey c x l s else runZoneOut c x l s
      | 0x95 => returnData x (s.reportZones l (x.be 2 8 / 65536) (x.c 14 % 64) (x.be 10 4) (decide (128 ≤ x.c 14))) (x.be 10 4) s
      | 0x9E => returnData x l.capacity (x.be 10 4) s
      | _ => (s, .ends .good)

end Sys2Proof.Machine
end

