-- ==== Sys2Proof/Machine/SchedQueue.lean ====
section
/-! DEFINITION. Blocks of a command (R206, R207), segments queued on an actuator and LUs backlogged there (R216, R218, R222), and an LU's
deficit (R223). -/

namespace Sys2Proof.Machine

/-! ### Blocks of a command -/

/-- Block k of a command's transfer is in its bobbins, is served from another write's (R207), or has been sent or compared. -/
def Ctx.has (x : Ctx) (k : Nat) : Bool :=
  x.placed.contains k || x.pinFrom.any (fun p => p.2 == x.lba + k) || (x.isRead && decide (k < x.hostDone))

/-- Blocks that a read may send: all, or those below ERR_LBA (R206). -/
def Ctx.outLimit (x : Ctx) : Nat := match x.err with | some e => e.1 - x.lba | none => x.nblk

/-- Every block that may be sent or compared is there. -/
def Ctx.allHere (x : Ctx) : Bool := (List.range x.outLimit).all x.has

/-- A reassignment has read each of its blocks. -/
def Ctx.allRead (x : Ctx) : Bool := (List.range x.nblk).all (fun k => x.placed.contains k)

/-- Every segment is written. -/
def Ctx.allWritten (x : Ctx) : Bool := x.segs.all (fun g => decide (g.count ≤ g.done))

/-- The command still waits for a defect-table update (R203). -/
def State.growing (s : State) (c : Nat) : Bool := s.zones.grow.any (fun g => g.ctx == c)

/-- Sectors of a context stand in a pass. -/
def State.inPass (s : State) (c : Nat) : Bool :=
  allActs.any (fun a => match s.sch[a].pass with | some p => p.blks.any (fun b => b.ctx == c) | none => false)

def State.modSch (s : State) (a : Act) (f : Sch → Sch) : State := { s with sch := s.sch.set a (f s.sch[a]) }

/-! ### Zones under reload (R266) -/

/-- A reload of a zone is pending. -/
def State.reloading (s : State) (g : Nat) : Bool :=
  allActs.any (fun a => s.sch[a].work.any (fun w => w.1 == .reload g)
    || (match s.sch[a].pass with | some p => p.kind == .internal (.reload g) | none => false))

/-- A zone operation waits for the reload of a zone that it acts on. -/
def State.awaitsReload (s : State) (x : Ctx) : Bool :=
  x.cls == 3 && (match s.luCfg x.lu with
    | some l => l.zones.any (fun g => (x.allZones || x.zonesOf.any (fun n => s.globalZone x.lu n == g)) && s.reloading g)
    | none => false)

/-! ### Segments queued on an actuator (R218) -/

/-- A segment: its context's number, the context, its index and itself. -/
structure Cand where
  c : Nat
  x : Ctx
  i : Nat
  g : Seg
  deriving DecidableEq, Repr

/-- Blocks of a segment that are still to be written or read. -/
def Cand.todo (k : Cand) : List Nat :=
  let all := (List.range k.g.count).map (fun n => k.g.base + n)
  if k.x.cls = 1 ∨ (k.x.cls = 5 ∧ 1 ≤ k.x.phase) then all.drop k.g.done
  else all.filter (fun b => !k.x.has b && decide (b < k.x.outLimit))

/-- Whether a segment writes when it is dispatched next. -/
def Cand.writes (k : Cand) : Bool := k.x.cls == 1 || (k.x.cls == 5 && k.x.phase == 1)

/-- A segment stands in a pass of an actuator, or in its read pass that has ended. -/
def State.segInPass (s : State) (c i : Nat) : Bool :=
  let has (p : Option SchPass) : Bool := match p with | some p => p.blks.any (fun b => b.ctx == c && b.seg == i) | none => false
  allActs.any (fun a => has s.sch[a].pass || has s.sch[a].tail)

/-- Segments queued on actuator a: of a command in QUEUED, or in MEDIA with its other segment. -/
def State.queuedOn (s : State) (a : Act) : List Cand :=
  s.intake.ctxs.flatMap (fun e =>
    let x := e.2
    if (x.state == .queued || x.state == .media) && x.hasMedia && !x.heldFlag && !x.abort && x.doom.isNone && x.preds.isEmpty then
      (List.range x.segs.length).filterMap (fun i =>
        match x.segs[i]? with
        | some g =>
          let k : Cand := ⟨e.1, x, i, g⟩
          if g.act = a.val ∧ k.todo ≠ [] ∧ s.segInPass e.1 i = false then some k else none
        | none => none)
    else [])

/-- LU u is backlogged on a (R222): a segment queued on a, or in a pass on a. -/
def State.backlogged (s : State) (a : Act) (u : Nat) : Bool :=
  let inP (p : Option SchPass) : Bool := match p with | some p => p.lu == some u | none => false
  inP s.sch[a].pass || inP s.sch[a].tail || (s.queuedOn a).any (fun k => k.x.lu == u)

/-! ### Deficits (R222, R223) -/

/-- DEF_{u,a}. -/
def State.defOf (s : State) (a : Act) (u : Nat) : Int := signed 24 (s.getF (bank (u * 16 + a.val) Reg.SCH_LU_DEF) Fld.SCH_LU_DEF_DEF)

def setDef (a : Act) (u : Nat) (v : Int) (s : State) : State :=
  s.setF (bank (u * 16 + a.val) Reg.SCH_LU_DEF) Fld.SCH_LU_DEF_DEF (twos 24 v)

/-- DEF_{u,a} as it stands: an LU that has stopped being backlogged keeps no positive one (R223). -/
def State.defNow (s : State) (a : Act) (u : Nat) : Int :=
  let d := s.defOf a u
  if 0 < d ∧ s.backlogged a u = false then 0 else d

/-- Before a command becomes queued, the credit that its LU has lost on each of its actuators is cleared (R223). -/
def forgetCredit (x : Ctx) (s : State) : State :=
  x.segs.foldl (fun s g => if h : g.act < 16 then setDef ⟨g.act, h⟩ x.lu (s.defNow ⟨g.act, h⟩ x.lu) s else s) s

end Sys2Proof.Machine
end

