-- ==== Sys2Proof/Machine/Tasks.lean ====
section
/-! DEFINITION. Tasks as they move (R195 to R201, R206, R342 to R344): a context that may go on, one that ends, the tasks of a
unit that stops, and a sector that reaches the medium. -/

namespace Sys2Proof.Machine

/-! ### Pins that are lost (R207) -/

/-- A read loses the blocks it was to be served from write c; what it has not sent it reads from the medium, but for blocks that stand in the
outbound buffer, which no write keeps any more. -/
def loseServed (c : Nat) (s : State) (y : Nat) : State :=
  match s.ctx? y with
  | none => s
  | some x =>
    if !x.pinFrom.any (fun p => p.1 == c) then s else
    let buffered (l : Nat) : Bool := s.shu.hostOut.toList.any (fun b => b.any (fun o => o.ctx == y && x.lba + o.blk == l))
    let x1 : Ctx := { x with pinFrom := x.pinFrom.filterMap (fun p =>
      if p.1 = c then (if buffered p.2 then some (ctxCount, p.2) else none) else some p) }
    let x2 := if (x1.state = .dataOut ∨ x1.state = .dataIn) ∧ x1.allHere = false then
      { x1 with state := .queued, queuedAt := if x1.queuedOnce then x1.queuedAt else s.now, queuedOnce := true } else x1
    (putCtx y x2 (if x2.state = .queued then forgetCredit x2 s else s)).incF Reg.INT_CNT_PIN Fld.INT_CNT_PIN_EXPIRED

/-- A lingering write lets its bobbins go before its reads have been served. -/
def releaseLinger (c : Nat) (s : State) : State := endLinger c ((s.intake.ctxs.map (·.1)).foldl (loseServed c) s)

/-! ### A context that may go on (R195) -/

/-- Run a command that needs no sectors. -/
def startRun (c : Nat) (x : Ctx) (s : State) : State × List Todo :=
  let r := runCmd c x (putCtx c { x with state := .media } s)
  match r.2 with
  | .ends how => (r.1, [.fin c how])
  | .waits => (r.1, [])

/-- A context moves to the state it is due: HELD, DATA_IN, WAITING, QUEUED, MEDIA as part of a pass that took it along, or it
runs. -/
def goCtx (c : Nat) (s : State) : State × List Todo :=
  match s.ctx? c with
  | none => (s, [])
  | some x =>
    if x.state.begun || x.abort then (s, [])
    else if x.preds.isEmpty && x.doom.isSome then
      match x.doom with
      | some e => (s, [.fin c (.check (if x.hasMedia then e.at x.firstUndone else e))])
      | none => (s, [])
    else if x.heldFlag then (showHeld (putCtx c { x with state := if x.state = .dataIn then .held else x.state } s), [])
    else if x.cls == 1 && decide (x.hostDone < x.nblk) then (putCtx c { x with state := .dataIn } s, [])
    else if !x.preds.isEmpty then (putCtx c { x with state := .waiting } s, [])
    else if x.hasMedia && decide (0 < x.nblk) then
      if s.inPass c then (putCtx c { x with state := .media } s, [])
      else if x.cls == 0 && x.allHere then (putCtx c { x with state := .dataOut } s, [])
      else if x.compares && x.allHere then (putCtx c { x with state := .dataIn } s, [])
      else if x.cls == 2 && x.allHere then (s, [.fin c .good])
      else (putCtx c { x with state := .queued, queuedAt := if x.queuedOnce then x.queuedAt else s.now, queuedOnce := true } (forgetCredit x s), [])
    else if x.hasMedia then (s, [.fin c .good])
    else if s.awaitsReload x then (putCtx c { x with state := .waiting } s, [])
    else startRun c x s

/-- Work off what steps leave to be done. Every ending frees a context or turns it to LINGER and leaves at most three things to do for each
context, so the number of contexts bounds it. -/
def settleTodo : Nat → List Todo → State → State
  | 0, _, s => s
  | _ + 1, [], s => s
  | n + 1, .fin c how :: t, s => let r := endOne c how s; settleTodo n (r.2 ++ t) r.1
  | n + 1, .abort c :: t, s => let r := abortOne c s; settleTodo n (r.2 ++ t) r.1
  | n + 1, .go c :: t, s => let r := goCtx c s; settleTodo n (r.2 ++ t) r.1

def settleAll (l : List Todo) (s : State) : State :=
  let n := s.intake.ctxs.length
  settleTodo (2 * l.length + 8 * (n + 1) * (n + 1)) l s

def finish1 (c : Nat) (how : How) (s : State) : State := settleAll [.fin c how] s

/-! ### Reads that fail (R206) -/

/-- A failure at a block: the lowest LBA keeps its sense. -/
def Ctx.withErr (x : Ctx) (lba : Nat) (e : Sense) : Ctx :=
  match x.err with
  | some old => if lba < old.1 then { x with err := some (lba, e.at lba) } else x
  | none => { x with err := some (lba, e.at lba) }

/-- A read or verify with nothing more to send or place ends; one with blocks to send below ERR_LBA goes on. -/
def readDone (c : Nat) (s : State) : State :=
  match s.ctx? c with
  | none => s
  | some x =>
    match x.err with
    | some e =>
      if x.cls == 0 then (if x.outLimit ≤ x.acked then finish1 c (.check e.2) s else s)
      else if x.allHere then finish1 c (.check e.2) s else s
    | none => s

def failRead (c lba : Nat) (e : Sense) (s : State) : State := readDone c (modCtx c (fun x => x.withErr lba e) s)

/-! ### Tasks that a reaction ends (R342 to R344) -/

/-- One task ends with a sense in the order of R342: a begun read after the blocks it can send, a write at its pad, a task that has
not begun after those it depends on. -/
def doomTask (x0 : Sense) (s : State) (c : Nat) : State :=
  match s.ctx? c with
  | none => s
  | some x =>
    if x.state = .linger then s
    else if x.cls == 0 && x.state.begun then failRead c x.firstUndone x0 (trimPass c s)
    else
      let r := doomOne c x0 s
      settleAll r.2 r.1

/-- A zone operation that waits for a save that cannot be made is undone (R343). -/
def undoZones (c : Nat) (s : State) : State :=
  if s.zones.waits.any (fun w => w.1 == .ctx c) then
    (s.zones.undo.filter (fun u => u.1 == c)).foldl (fun s u =>
      let old := ZDesc.decode u.2.2
      setAwp u.2.1 old.wp (updateDesc u.2.1 (fun d => { d with cond := old.cond, wp := old.wp, stamp := old.stamp, attempt := old.attempt, klabel := old.klabel
                                                               warn := old.warn, limit := old.limit }) s)) s
  else s

/-- Tasks of the intake in effective order. -/
def State.inOrder (s : State) : List (Nat × Ctx) := s.intake.ctxs.mergeSort (fun a b => a.2.seq ≤ b.2.seq)

/-- A task concerns a unit: its LU, or a segment or an awaited save on the actuator. -/
def State.concerns (s : State) (u : FUnit) (c : Nat) (x : Ctx) : Bool :=
  let onAct (p : Nat → Bool) : Bool :=
    x.segs.any (fun g => p g.act) || s.zones.waits.any (fun w => w.1 == .ctx c && p w.2.1) || s.zones.grow.any (fun g => g.ctx == c && p g.act)
  x.state != .linger && (match u with
    | .none => true
    | .lu n => x.lu == n && !x.reserve
    | .act a => onAct (· == a.val)
    | .hda h => onAct (fun a => a / 2 == h.val))

/-- Tasks that `p` accepts end with a sense, in effective order; none of them that has not begun goes on when one before it ends. -/
def doomWhere (p : State → Nat → Ctx → Bool) (e : Sense) (s : State) : State :=
  let cs := (s.inOrder.filter (fun t => p s t.1 t.2)).map (·.1)
  let s1 := cs.foldl (fun s c => modCtx c (fun x => if x.state.begun then x else { x with doom := some e }) s) s
  cs.foldl (fun s c => doomTask e (undoZones c s) c) s1

/-- Tasks that a stopped unit ends (R334, R342). -/
def endUnitTasks (u : FUnit) (s : State) : State :=
  doomWhere (fun s c x => s.concerns u c x) (match u with | .lu _ => sense keyHardware 0x44 0x00 | _ => sense keyHardware 0x83 0x01) s

/-- Device Stop ends every admitted task (R336), in effective order. -/
def endAllTasks (s : State) : State :=
  let cs := s.inOrder.map (·.1)
  cs.foldl (fun s c => finish1 c (.check (sense keyHardware 0x44 0x00)) s) (markAbort cs s)

/-- A head taken out of service (R29) ends the tasks with a segment on it. -/
def endHeadTasks (a head : Nat) (s : State) : State :=
  doomWhere (fun _ _ x => x.state != .linger && x.segs.any (fun g => g.act == a && g.head == head)) (sense keyHardware 0x83 0x01) s

/-! ### A sector reaches the medium (R201, R267) -/

def Work.fillOf : Work → Option Nat | .fill g _ => some g | _ => none

/-- The write pointer of a sequential zone advances by a block (R267, R271, R277). -/
def advanceWp (g : Nat) (s : State) : State :=
  let d := s.desc g
  if !d.ztype then s else
  let wp := d.wp + 1
  let s1 := updateDesc g (fun d => { d with wp := wp, attempt := 0, cond := if wp = 65536 then 0xE else d.cond }) s
  let saved := (aget s.zones.savedWp g).getD 0
  if wp = 65536 ∨ saved + 8192 ≤ wp then markSave g s1 else s1

/-- A grown defect to be recorded once its spare is written (R42, R203). -/
def growNow (c : Nat) (b : PassBlk) (spare : Nat) (s : State) : State :=
  let d := s.desc b.zone
  let o := s.blockOrd d (b.lba % 65536)
  let orig := match s.surface d.act d.head with
    | some f => (match f.grown.find? (fun e => e.rz == d.rz && e.spare == some o.1) with | some e => e.ord | none => o.1)
    | none => o.1
  let s1 := { s with zones := { s.zones with grow := s.zones.grow ++ [⟨d.act, d.head, d.rz, orig, spare, b.zone, c⟩] } }
  raiseWork d.act (.defect d.head .update) s1

/-- The next two system records that a pass writes stand in the channel's staging buffer (R13, R45). -/
def feedRecs (a : Act) (s : State) : State :=
  match s.sch[a].pass, s.chan[a].pass with
  | some p, some q =>
    if p.recs.isEmpty then s
    else
      let field (t : Nat) : Option StagedField :=
        match p.blks.find? (fun b => b.tag == t) with
        | some b => (p.recs[b.blk]?).map (fun f => ⟨t, true, f⟩)
        | none => none
      s.modChan a (fun c => { c with stage := (q.slots.take 2).filterMap field })
  | _, _ => s

/-- The seek of a pass has settled: the slots of its track go to the channel, after the script of a mode change (R48, R57). -/
def passOnTrack (a : Act) (k : SeekCmd) (s : State) : State :=
  match s.sch[a].pass with
  | none => s
  | some p =>
    match p.tracks[p.track]? with
    | none => s
    | some t =>
      if p.onTrack || t.1 != k.cyl || p.head != k.head.val then s
      else
        let s1 := if s.chan[a].writing = p.write then s else queueScript a (if p.write then .writeEntry else .readEntry) s
        let s2 := s1.modChan a (fun c => { c with pass := some ⟨p.write, p.track, t.2, false⟩ })
        let s3 := match p.kind with
          | .internal (.cal head zone) => s2.modAcu a (fun u => { u with calWin := some (head * 64 + zone) })
          | _ => s2
        feedRecs a (s3.modSch a (fun h => { h with pass := some { p with onTrack := true }, cyl := k.cyl, head := k.head.val, writing := p.write }))

/-- What a written command comes to at a pad: aborted, ended by a reaction, complete, or more to write. -/
def writtenCtx (c : Nat) (s : State) : State :=
  match s.ctx? c with
  | none => s
  | some x =>
    if x.abort then finish1 c .aborted s
    else match x.doom with
      | some e => finish1 c (.check (e.at x.firstUndone)) s
      | none =>
        if x.allWritten && !s.growing c then finish1 c .good s
        else s

/-- The pad of a written sector ends (WRITE_SECTOR_PAD). -/
def sectorWritten (a : Act) (tag : Nat) (s : State) : State :=
  match s.sch[a].pass with
  | none => s
  | some p =>
    match p.blks.find? (fun b => b.tag == tag) with
    | none => s
    | some b =>
      let s0 := s.modSch a (fun h => { h with pass := some { p with wrote := p.wrote + 1 } })
      match p.kind with
      | .internal _ => feedRecs a s0
      | .host =>
        if b.erase then
          modCtx b.ctx (fun x => { x with moved := x.moved.map (fun m => if m.1 = b.blk then (m.1, m.2.1, false) else m) })
            (s0.incF Reg.CIP_CNT_NONCE Fld.CIP_CNT_NONCE_ERASE)
        else
          match s0.ctx? b.ctx with
          | none => s0
          | some x =>
            let s1 := putCtx b.ctx { x with
              part := false
              segs := (List.range x.segs.length).map (fun i =>
                let g := x.segs.getD i ⟨0, 0, 0, 0, 0, 0, 0, 0⟩
                if i = b.seg then { g with done := g.done + 1 } else g) } s0
            let s2 := match x.moved.find? (fun m => m.1 == b.blk) with
              | some m => growNow b.ctx b m.2.1 s1
              | none => s1
            let s3 := if x.cls == 1 then advanceWp b.zone s2 else s2
            let s4 := { s3 with zones := { s3.zones with lastW := aset s3.zones.lastW b.zone s3.now } }
            writtenCtx b.ctx (if x.cls == 1 then logAdd 0x02 5 4096 s4 else s4)

end Sys2Proof.Machine
end

