-- ==== Sys2Proof/Machine/Faults.lean ====
section
/-! DEFINITION. Raising a fault source: the local reaction of R331 to R336 at the source's own unit. The collector
records the raise at FAULT_COLLECT. -/

namespace Sys2Proof.Machine

/-! ### The sources of R330 -/

def srcAct (a : Act) (k : Nat) : Nat := 8 * a.val + k
def srcHda (h : Hda) (k : Nat) : Nat := 0x80 + 5 * h.val + k

/-- A unit's kind and index, as FLT_LAST codes them. -/
def FUnit.kind : FUnit → Nat | .none => 0 | .lu _ => 1 | .act _ => 2 | .hda _ => 3
def FUnit.index : FUnit → Nat | .none => 0 | .lu n => n | .act a => a.val | .hda h => h.val

/-- Where the severity that a source has applied to a unit is kept (log entry 9). -/
def appliedKey (src : Nat) (u : FUnit) : Nat := src + 256 * (u.kind + 4 * u.index)

/-- The pending bit of a source (FLT_PEND). -/
def State.isPending (s : State) (src : Nat) : Bool := s.bit (Reg.FLT_PEND (src / 32)) (src % 32)

/-- Device Stop (R336): Domain Stop of every configured HDA, every task ended, DEVSTOP set. -/
def deviceStop (s : State) : State :=
  let s1 := forHdas (fun h s => if s.hasHda h then domainStop h s else s) s
  let s2 := (s1.setB Reg.FLT_STOP Fld.FLT_STOP_DEVICE true).setB Reg.FLT_ERRN Fld.FLT_ERRN_DEVSTOP true
  endAllTasks s2

/-- Unit Stop by unit (R334). A raise that concerns no unit stops the device (R332). -/
def unitStop (u : FUnit) (s : State) : State :=
  match u with
  | .none => deviceStop s
  | .lu _ => endUnitTasks u s
  | .act a => endUnitTasks u (stopActuator a s)
  | .hda h =>
    let s1 := stopActuator (highAct h) (stopActuator (lowAct h) s)
    let s2 := s1.modPower (fun p => { p with hdaStop := p.hdaStop.set h true })
    endUnitTasks u (hdaStopCheck h s2)

/-- Domain Stop by unit (R332, R335). -/
def domainStopOf (u : FUnit) (s : State) : State :=
  match u with
  | .none => deviceStop s
  | .lu _ => endUnitTasks u s
  | .act a => endUnitTasks (.hda (hdaOf a)) (domainStop (hdaOf a) s)
  | .hda h => endUnitTasks u (domainStop h s)

/-- Whether a scope already stands under a reaction of at least this severity, its own, its domain's or the device's (R339). -/
def State.underStop (s : State) (u : FUnit) (sev : Nat) : Bool :=
  s.bitF Reg.FLT_STOP Fld.FLT_STOP_DEVICE ||
  (decide (sev ≤ 3) && match u with
    | .act a => s.bit Reg.FLT_STOP (hdaOf a).val
    | .hda h => s.bit Reg.FLT_STOP h.val
    | _ => false)

/-- The local reaction of a severity (R331): Notice and Degrade change no motion and no task; the stops as above. -/
def react (u : FUnit) (sev : Nat) (s : State) : State :=
  if s.underStop u sev then s
  else if sev < 2 then s
  else if sev = 2 then unitStop u s
  else if sev = 3 then domainStopOf u s
  else deviceStop s

/-- Raise a source at a severity: its unit keeps the raise until the collector takes it, and reacts, unless the source is
pending already and this unit has reacted to it at this severity or above (R340). -/
def raiseAt (src : Nat) (u : FUnit) (sev : Nat) (s : State) : State :=
  let again := s.isPending src || s.raised.any (fun r => r.src == src)
  let late := s.power.phase == .held
  let idle := again && decide (sev ≤ sget 0 s.applied (appliedKey src u))
  let s1 := { s with raised := s.raised ++ [⟨src, u, sev, late, true, idle⟩] }
  if idle then s1
  else react u sev { s1 with applied := sset 0 s1.applied (appliedKey src u) sev }

/-- Raise a source at its programmed severity (R331). -/
def raise (src : Nat) (u : FUnit) (s : State) : State := raiseAt src u (s.sevOf src) s

def raiseAct (a : Act) (k : Nat) (s : State) : State := raise (srcAct a k) (.act a) s
def raiseHda (h : Hda) (k : Nat) (s : State) : State := raise (srcHda h k) (.hda h) s

end Sys2Proof.Machine
end

