-- ==== Sys2Proof/Machine/CalOps.lean ====
section
/-! DEFINITION. Shared operations of the calibration supervisor (R229, R395, R403, R404, R408): the windows still to run, and raising the
next one. -/

namespace Sys2Proof.Machine

def Work.isCal : Work → Bool | .cal _ _ => true | _ => false

/-- Lower or upper actuator of its HDA. -/
def side (a : Act) : Fin 2 := Fin.ofNat 2 a.val

def State.modCal (s : State) (h : Hda) (f : CalRun → CalRun) : State := { s with cal := s.cal.set h (f s.cal[h]) }

/-- Entry windows still to run on an actuator. -/
def State.calLeft (s : State) (a : Act) : List (Nat × Nat) := s.cal[hdaOf a].left[side a]

/-- CAL_HDA[h] shows the run. -/
def showCal (h : Hda) (s : State) : State :=
  let r := s.cal[h]
  let n := r.left[0].length + r.left[1].length
  ((s.setB (Reg.CAL_HDA h) Fld.CAL_HDA_RUNNING r.running).setF (Reg.CAL_HDA h) Fld.CAL_HDA_LEFT (min 255 n)).setF
    (Reg.CAL_HDA h) Fld.CAL_HDA_CAUSE r.cause

/-- A calibration window is pending or under way on actuator a. -/
def State.calBusy (s : State) (a : Act) : Bool :=
  s.acu[a].calWin.isSome || (match s.sch[a].pass with | some p => (match p.kind with | .internal w => w.isCal | _ => false) | none => false)

/-- A unit, or its HDA, is Out of Service or in Maintenance (R395). -/
def State.actOut (s : State) (a : Act) : Bool :=
  let out (n : Nat) : Bool := n == 2 || n == 3
  out (s.adm .act a.val) || out (s.adm .hda (hdaOf a).val)

/-- The next entry window of a run is raised, unless one is under way or the unit is withdrawn; one that is pending already takes the
new contents and keeps its request time (R229). -/
def calRaise (a : Act) (s : State) : State :=
  match s.calLeft a with
  | [] => s
  | (hd, z) :: _ =>
    if !s.cal[hdaOf a].running || s.cal[hdaOf a].aborted || s.calBusy a || s.actOut a then s
    else if s.sch[a].work.any (fun w => w.1.isCal) then
      s.modSch a (fun h => { h with work := h.work.map (fun (w : Work × Nat) => if w.1.isCal then (.cal hd z, w.2) else w) })
    else raiseWork a.val (.cal hd z) s

end Sys2Proof.Machine
end

