-- ==== Sys2Proof/Machine/Servo.lean ====
section
/-! DEFINITION. The commands of chapter 5: wedges, servo lock, seeks, write inhibit, loads, parks, and the coefficient
writes of R104 for ACUs and SCUs alike. -/

namespace Sys2Proof.Machine

/-! ### Cylinders (R38) -/

/-- The recording zone of a cylinder: guards and the system band take the zone R38 gives their warp frequency. -/
def zoneOfCylFrom : Nat → Nat → List ZoneCfg → Nat → Nat
  | z, _, [], _ => z - 1
  | z, first, c :: t, cyl =>
    match t with
    | [] => z
    | _ => if cyl < first + c.cyls + 128 then z else zoneOfCylFrom (z + 1) (first + c.cyls + 256) t cyl

def zoneOfCyl (zs : List ZoneCfg) (cyl : Nat) : Nat := zoneOfCylFrom 0 1152 zs cyl

/-- The middle of the system band (R115). Its cylinders are 128 to 1,151, so that the middle lies between 639 and 640; the model takes 640
(DESIGN CHOICE, log entry 46). -/
def midBand : Nat := 640

/-! ### Wedges (R94 to R100) -/

/-- The n information bits from channel bit `i` on, each a pair, least significant first: 10 for 1 and 01 for 0 (R91). -/
def dibits (w : BitVec 96) (i : Nat) : Nat → Nat
  | 0 => 0
  | n + 1 =>
    let x := w.getLsbD i
    let y := w.getLsbD (i + 1)
    b2n (if x != y then x else Config.badDibit y) + 2 * dibits w (i + 2) n

/-- The 16 bits of the SAM in the order in which they pass (R90, R91). -/
def samBits : List Bool := [false, false, false, true, true, false, true, true, false, true, false, true, true, true, false, true]

/-- The SAM stands at bit `i` with at most one bit in error (R94). -/
def samAt (w : BitVec 96) (i : Nat) : Bool := decide (samBits.zipIdx.countP (fun e => w.getLsbD (i + e.2) != e.1) ≤ 1)

/-- The wedge record of a servo span (R94): the first offset from −4 to +4 at which the SAM qualifies, and TID and WN decoded there. -/
def readWedge (r : WedgeRead) : WedgeRecord :=
  match (List.range 9).find? (samAt r.bits) with
  | some o => ⟨true, dibits r.bits (o + 16) 24, dibits r.bits (o + 64) 12, r.burstA, r.burstB, r.burstC, r.burstD, r.clocks⟩
  | none => ⟨false, 0, 0, r.burstA, r.burstB, r.burstC, r.burstD, r.clocks⟩

/-- Whether the parity bits of TID and WN and the frame number agree (R91, R96). -/
def wedgeIdsOk (r : WedgeRecord) (frame : Nat) : Bool :=
  evenOnes 23 r.tid && evenOnes 11 r.wn && r.wn % 1024 == frame

/-- Whether a wedge is missing under the rules for SETTLE and FOLLOW, or under those of the other states (R96). -/
def wedgeMissing (r : WedgeRecord) (amin frame : Nat) (strict : Bool) : Bool :=
  !r.samFound || decide (r.burstA + r.burstB < amin) || decide (r.burstC + r.burstD < amin) ||
  (strict && !wedgeIdsOk r frame)

/-- The servo mirrors refresh at each wedge (R9). -/
def refreshServoMirrors (a : Act) (s : State) : State :=
  let u := s.acu[a]
  let s1 := s.setF (Reg.ACU_MOTION a) Fld.ACU_MOTION_STATE u.state.code
  let s2 := s1.setF (Reg.ACU_MOTION a) Fld.ACU_MOTION_HEAD (match u.head with | some x => x.val | none => 15)
  let s3 := s2.setB (Reg.ACU_MOTION a) Fld.ACU_MOTION_SERVO_LOCK u.servoLock
  let s4 := s3.setB (Reg.ACU_MOTION a) Fld.ACU_MOTION_RD_OK u.rdOk
  let s5 := s4.setB (Reg.ACU_MOTION a) Fld.ACU_MOTION_WR_OK u.wrOk
  let s6 := s5.setF (Reg.ACU_POS a) Fld.ACU_POS_CYL (twos 22 u.posCyl)
  let s7 := s6.setF (Reg.ACU_POS a) Fld.ACU_POS_RZONE (zoneOfCyl s.cfg.acts[a].zones u.posCyl.toNat)
  let s8 := s7.setF (Reg.ACU_PES a) Fld.ACU_PES_PES (twos 16 u.lastPes)
  let s9 := s8.setF (Reg.ACU_PES a) Fld.ACU_PES_WEDGE u.wedge
  s9.setB (Reg.ACU_PES a) Fld.ACU_PES_VALID u.pesValid

/-- What the Treadle gives at a wedge: the profile going on, the reference with its velocity and acceleration, and whether the profile ends here. -/
structure TreadleStep where
  seek : Option SeekRun
  park : Option ParkStep
  pos : Rat
  vel : Rat
  acc : Rat
  done : Bool
  deriving DecidableEq, Repr

/-- The Treadle at a wedge (R106): the profile of a seek or of a park's first step goes on. After a head switch on one cylinder it begins at the new
head's first wedge, from that wedge's position even where the wedge is missing (DESIGN CHOICE, log entry 46). -/
def treadle (u : Acu) (pos : Rat) (clocks : Nat) : TreadleStep :=
  let still : TreadleStep := ⟨u.seek, u.park, u.refPos, 0, 0, false⟩
  match u.state, u.seek, u.park with
  | .seek, some k, _ =>
    if k.waitHead then
      let p := { k.plan with start := pos, clocks := 0 }
      let r := p.advance pos 0 0 0
      ⟨some { k with plan := p, waitHead := false }, u.park, if r.2.2.2.2 then p.target else pos, 0, 0, r.2.2.2.2⟩
    else
      let r := k.plan.advance u.refPos u.refVel u.refAcc clocks
      ⟨some { k with plan := r.1 }, u.park, r.2.1, r.2.2.1, r.2.2.2.1, r.2.2.2.2⟩
  | .parking, _, some (.plan p) =>
    let r := p.advance u.refPos u.refVel u.refAcc clocks
    ⟨u.seek, some (if r.2.2.2.2 then .drive else .plan r.1), r.2.1, r.2.2.1, r.2.2.2.1, r.2.2.2.2⟩
  | _, _, _ => still

/-- The feed-forward term (R98): the acceleration reference times the gain KFF, rounded as R102 states. -/
def feedTerm (kff : Int) (acc : Rat) : Int := ratRound (Config.kffGain kff * acc)

/-- How far from mid-scale the microactuator DACs stand: nowhere for no command. -/
def dacOffset (um : Int) : BitVec 16 := if um = 0 then 0#16 else Config.dacStep um

/-- The three wedge loops in their order (R98, R100): PM, MM and PV in SETTLE and FOLLOW, PV alone in SEEK and in step 1
of a park; elsewhere they are off. The two DACs stand at mid-scale plus and minus u_m. -/
def runWedgeLoops (u : Acu) (pes : Int) (kff : Int) : Acu :=
  let x := pes * 256
  let pv (u : Acu) (ym : Int) : Acu :=
    let inp := sat24 (x + ym)
    let r := (u.loops[0].noteSum inp.2).run inp.1
    let out := sat24 (r.1 + feedTerm kff u.refAcc)
    { u with curCmd := out.1, loops := u.loops.set 0 (r.2.noteSum out.2) }
  match u.state with
  | .settle | .follow =>
    let pm := u.loops[1].run x
    let mm := u.loops[2].run pm.1
    let u1 := { u with um := pm.1, ym := mm.1, loops := (u.loops.set 1 pm.2).set 2 mm.2,
                       dacPos := 0x8000#16 + dacOffset pm.1, dacNeg := 0x8000#16 - dacOffset pm.1,
                       masatRun := if pm.1.natAbs = 8388607 then u.masatRun + 1 else 0 }
    pv u1 mm.1
  | .seek => pv { u with um := 0, ym := 0 } 0
  | .parking => (match u.park with | some (.plan _) => pv u 0 | _ => u)
  | _ => u

/-- The counters of consecutive wedges (R97, R107, R110): for servo lock, for missing wedges, for the read and the write
criterion, and for the return of the permit. The write count stays once its criterion is met. -/
def countWedge (u : Acu) (lim settle : Word) (missing lockOk : Bool) (pes : Int) : Acu :=
  let window := Fld.ACU_PES_LIM_WINDOW.get lim
  let resume := min window (Fld.ACU_PES_LIM_RESUME.get lim)
  let wrN := atLeast1 (Fld.ACU_SETTLE_CFG_WR_N.get settle)
  let inRd := !missing && decide (pes.natAbs ≤ Fld.ACU_SETTLE_CFG_RD_WIN.get settle)
  let inWr := !missing && decide (pes.natAbs ≤ resume)
  { u with
    lockRun := if lockOk then min 4 (u.lockRun + 1) else 0
    missRun := if missing then u.missRun + 1 else 0
    rdRun := if inRd then u.rdRun + 1 else 0
    wrRun := if wrN ≤ u.wrRun then u.wrRun else if inWr then u.wrRun + 1 else 0
    tolRun := if inWr then u.tolRun + 1 else 0
    settleWedges := if u.state = .settle then u.settleWedges + 1 else u.settleWedges }

/-- Enter SETTLE on the last wedge of the profile: PM and MM start from cleared states (R107). -/
def enterSettle (a : Act) (s : State) : State :=
  setAcuState a .settle (s.modAcu a (fun u => { u with
    settleWedges := 0, rdRun := 0, wrRun := 0, rdOk := false,
    loops := (u.loops.set 1 u.loops[1].cleared).set 2 u.loops[2].cleared }))

/-- A neighbour verify is asked of the scheduler (R112): the frame and the cylinder of the excursion. -/
def reportNeighbor (a : Act) (frame cyl : Nat) (s : State) : State :=
  let s1 := s.incF (Reg.ACU_CNT_WI a) Fld.ACU_CNT_WI_NEIGHBOR
  match s.acu[a].head with
  | some hd => raiseWork a.val (.verify cyl hd.val frame) s1
  | none => s1

/-- Where a wedge of the previous wedge's position and the Treadle reference is expected (R97): the TID names a cylinder within two of it. -/
def tidNear (u : Acu) (ref : Rat) (tid : Nat) : Bool :=
  decide (ratAbs (((grayDecode (tid % 2 ^ 22) * 16384 : Nat) : Rat) - (u.pos + (ref - u.refPos))) ≤ 32768)

/-- The ACU learns of a SLIP or OFFTRACK: the cause WARP is present until the next wedge (R53, R109 bit 7). -/
def warpDoubt (a : Act) (s : State) : State := refreshWi a (s.modAcu a (fun u => { u with warpCause := true }))

/-- What the ACU makes of a wedge record (R94 to R100, R107, R109, R112, R117). Limits written since the last wedge are in force from here. -/
def wedgeRecord (a : Act) (r : WedgeRecord) (s : State) : State :=
  let u := s.acu[a]
  if !u.clocked then s else
  let cfg := s.cfg.acts[a]
  let frame := s.chan[a].frame
  let strict := u.state == .settle || u.state == .follow
  let held := !s.seqOk (wedgeStore a) || !s.seqOk (acuStore a)   -- a wedge not computed is missing (R162)
  let missing := wedgeMissing r cfg.amin frame strict || held
  let p := wedgePosition r.tid r.burstA r.burstB r.burstC r.burstD
  let pos : Rat := if r.burstA + r.burstB = 0 ∨ r.burstC + r.burstD = 0 then Config.pesOpen r else posUnits p.1 p.2
  let tr := treadle u pos r.clocks
  let pes := if missing then u.lastPes else pesOf pos tr.pos
  let lockOk := !wedgeMissing r cfg.amin frame true && !held && tidNear u tr.pos r.tid
  let lim := s.reg (Reg.ACU_PES_LIM a)
  let settle := s.reg (Reg.ACU_SETTLE_CFG a)
  let u1 := countWedge { u with
      pesLim := lim, wiCfg := s.reg (Reg.ACU_WI_CFG a), settleCfg := settle
      refPos := tr.pos, refVel := tr.vel, refAcc := tr.acc, seek := tr.seek, park := tr.park
      lastPes := pes, pesValid := !missing, folWedge := u.state == .follow
      pos := if missing then u.pos else pos
      posCyl := if missing then u.posCyl else p.1
      wedge := if r.samFound then r.wn % 1024 else frame
      warpCause := false
      shockLeft := u.shockLeft.map (· - 1) } lim settle missing lockOk pes
  let u2 := runWedgeLoops u1 pes cfg.kff
  let rdN := atLeast1 (Fld.ACU_SETTLE_CFG_RD_N.get settle)
  let failedSeek := match u2.seek with | some k => k.failed | none => false
  let u3 := { u2 with
    rdOk := if u2.state = .settle then (if failedSeek then decide (rdN ≤ u2.rdRun) else u2.rdOk || decide (rdN ≤ u2.rdRun)) else u2.rdOk
    servoLock := u2.servoLock && decide (u2.missRun < cfg.lostN) }
  let s1 := { s with acu := s.acu.set a u3 }
  let s2 := if missing then s1.incF (Reg.ACU_CNT_SERVO a) Fld.ACU_CNT_SERVO_MISS else s1
  -- the last wedge of a seek's profile enters SETTLE
  let s3 := if u.state = .seek ∧ tr.done then enterSettle a s2 else s2
  -- the neighbour report of R112
  let above := decide (Fld.ACU_WI_CFG_NEIGHBOR.get u1.wiCfg < pes.natAbs)
  let raisesPes := u.state == .follow && !missing && u3.pesAbove (Fld.ACU_PES_LIM_WINDOW.get lim)
  let raisesMasat := s1.masatPresent a && !s.masatPresent a
  let after := u.shockCheck && !missing
  let gate := s.chan[a].gate
  let s4 := if above && ((gate && (raisesPes || raisesMasat)) || after) then reportNeighbor a u3.wedge u3.posCyl.toNat s3 else s3
  let s5 := if after then s4.modAcu a (fun u => { u with shockCheck := false }) else s4
  refreshServoMirrors a (refreshWi a s5)

/-! ### Seeks (R106 to R108, R113, R115) -/

/-- Start a seek from the Treadle's present reference (R106, R108), counted in SEEKS. A head switch with no change of cylinder waits for
the new head's first wedge. -/
def startSeek (a : Act) (c : SeekCmd) (second : Bool) (s : State) : State :=
  let u := s.acu[a]
  let newHead := decide (u.head ≠ some c.head)
  let sameCyl := decide (u.refPos = ((c.cyl * 16384 : Nat) : Rat))
  let p : Plan :=
    { start := u.refPos, target := ((c.cyl * 16384 : Nat) : Rat), clocks := 0
      vmax := s.getF (Reg.ACU_TRD_VMAX a) Fld.ACU_TRD_VMAX_LIMIT
      amax := s.getF (Reg.ACU_TRD_AMAX a) Fld.ACU_TRD_AMAX_LIMIT
      jmax := s.getF (Reg.ACU_TRD_JMAX a) Fld.ACU_TRD_JMAX_LIMIT
      moving := u.refVel != 0 || u.refAcc != 0 }
  let s1 := (s.incF (Reg.ACU_CNT_SEEK a) Fld.ACU_CNT_SEEK_SEEKS).modAcu a (fun u => { u with
    seek := some ⟨c, second, p, newHead && sameCyl && u.state != .seek, false⟩
    head := some c.head, lastCmd := some c, report := none, settleWedges := 0,
    loops := (u.loops.set 1 u.loops[1].cleared).set 2 u.loops[2].cleared })
  let s2 := if newHead then queueScript a (.headSelect c.head) s1 else s1
  setAcuState a .seek s2

/-- ACU_SEEK (R106, R108): planned in SEEK, SETTLE and FOLLOW, refused as actuator not ready elsewhere. -/
def acuSeek (a : Act) (c : SeekCmd) (s : State) : State :=
  match s.acu[a].state with
  | .seek | .settle | .follow => startSeek a c false (sample 4 a ((c.cyl : Int) - s.acu[a].posCyl).natAbs s)
  | _ => s.modAcu a (fun u => { u with report := some .notReady })

def execAcuSeek (a : Act) (c : SeekCmd) (s : State) : Host.Outcome State Fault Refusal := .next (acuSeek a c s)

/-- The Harness sends ACU[a] a seek over its crossing (R11, R12). -/
def sendSeek (a : Act) (c : SeekCmd) (s : State) : State := s.carry (.harnessShed (.acu a) true) (.seek c) (acuSeek a c)

/-- The criterion of a seek's intent is met (R107). -/
def State.seekMet (s : State) (a : Act) (k : SeekRun) : Bool :=
  match k.cmd.intent with | .read => s.rdMet a | .write => s.wrMet a

/-- What the Harness does with a seek's completion: the pass that commanded it goes to the channel, and a calibration window that waits is raised. -/
def seekDone (a : Act) (c : SeekCmd) (s : State) : State := calRaise a (passOnTrack a c s)

/-- SEEK_SETTLED (R107): the criterion of the seek's intent is met, so FOLLOW is entered and completion reported to the Harness. -/
def seekSettled (a : Act) (s : State) : State :=
  match s.acu[a].state, s.acu[a].seek with
  | .settle, some k =>
    if s.seekMet a k && !k.failed then
      (setAcuState a .follow (s.modAcu a (fun u => { u with
        seek := none, report := some .completed, rdOk := u.rdOk || s.rdMet a }))).carry (.harnessShed (.acu a) false) (.seekDone k.cmd) (seekDone a k.cmd)
    else s
  | _, _ => s

def execSeekSettled (a : Act) (s : State) : Host.Outcome State Fault Refusal := .next (seekSettled a s)

/-- SETTLE_TMO of the limits in force. -/
def State.settleTmo (s : State) (a : Act) : Nat :=
  let t := Fld.ACU_SETTLE_CFG_SETTLE_TMO.get s.acu[a].settleCfg
  if t = 0 then 255 else t

/-- SETTLE_TIMEOUT (R107): the criterion is not met within SETTLE_TMO wedges, so the seek is made again once; a second failure is reported, counted
and raised, and the actuator stays in SETTLE. -/
def settleTimeout (a : Act) (s : State) : State :=
  let u := s.acu[a]
  match u.state, u.seek with
  | .settle, some k =>
    if k.failed || s.seekMet a k || decide (u.settleWedges < s.settleTmo a) then s
    else if k.second then
      let s1 := s.modAcu a (fun u => { u with seek := some { k with failed := true }, report := some .failed })
      raiseAct a 1 (s1.incF (Reg.ACU_CNT_SEEK a) Fld.ACU_CNT_SEEK_SETTLE_FAIL)
    else startSeek a k.cmd true s
  | _, _ => s

def execSettleTimeout (a : Act) (s : State) : Host.Outcome State Fault Refusal := .next (settleTimeout a s)

/-- Where a load settles (R115): at the last target, or at the middle of the system band. The model judges the settle by the read criterion and
reports it; with no earlier head it takes head 0 (DESIGN CHOICE, log entry 46). -/
def Acu.loadCmd (u : Acu) : SeekCmd :=
  let c := u.lastCmd.getD ⟨midBand, 0, .read⟩
  ⟨c.cyl, u.head.getD c.head, .read⟩

/-- SERVO_LOCK_CONFIRMED (R97, R113, R115): after four good wedges. A loading actuator settles at its last target, or at
the middle of the system band; one in LOST seeks its last target. -/
def servoLockConfirmed (a : Act) (s : State) : State :=
  let u := s.acu[a]
  if u.lockRun < 4 then s else
  let s1 := s.modAcu a (fun u => { u with servoLock := true })
  match u.state with
  | .loading =>
    let c := u.loadCmd
    let x : Rat := ((c.cyl * 16384 : Nat) : Rat)
    enterSettle a (s1.modAcu a (fun u => { u with refPos := x, refVel := 0, refAcc := 0, seek := some ⟨c, false, ⟨x, x, 0, 0, 0, 0, false⟩, false, false⟩ }))
  | .lost => startSeek a (u.lastCmd.getD ⟨midBand, 0, .read⟩) false (s1.modAcu a (fun u => { u with refPos := u.pos, refVel := 0, refAcc := 0 }))
  | _ => s1

def execServoLockConfirmed (a : Act) (s : State) : Host.Outcome State Fault Refusal := .next (servoLockConfirmed a s)

/-- SERVO_LOCK_LOST (R97, R113): LOST_N missing wedges in SETTLE or FOLLOW, 8 in SEEK. -/
def servoLockLost (a : Act) (s : State) : State :=
  let u := s.acu[a]
  let lost := match u.state with
    | .settle | .follow => decide (s.cfg.acts[a].lostN ≤ u.missRun)
    | .seek => decide (8 ≤ u.missRun)
    | _ => false
  if lost then
    let s1 := s.modAcu a (fun u => { u with servoLock := false, seek := none, lockRun := 0 })
    let s2 := (setAcuState a .lost s1).incF (Reg.ACU_CNT_SERVO a) Fld.ACU_CNT_SERVO_LOST
    raiseAct a 2 s2
  else s

def execServoLockLost (a : Act) (s : State) : Host.Outcome State Fault Refusal := .next (servoLockLost a s)

/-! ### Loads and parks (R113, R115 to R117) -/

/-- ACU_LOAD (R115, R405): the coil resistance is measured before the load, the head that will read wedges is selected (R48), and the heads leave the
ramp under the velocity loop. No load starts while the data path is in reset (R372). -/
def acuLoad (a : Act) (rCoil : Nat) (s : State) : State :=
  let u := s.acu[a]
  if u.state = .ramp ∧ u.clocked ∧ s.power.phase ≠ .held then
    let hd := u.loadCmd.head
    queueScript a (.headSelect hd) (setAcuState a .loading ((measureCoil a rCoil s).modAcu a (fun u => { u with
      servoLock := false, lockRun := 0, missRun := 0, gatesOn := true, park := none, seek := none, head := some hd })))
  else s

def execAcuLoad (a : Act) (rCoil : Nat) (s : State) : Host.Outcome State Fault Refusal := .next (acuLoad a rCoil s)

/-- LOAD_TIMEOUT (R115): lock not confirmed within LOAD_TMO, so the ACU parks and raises source 8a + 3. PARK_CTRL.CAUSE lists no code for this
trigger; the model shows 3, fault reaction (DESIGN CHOICE, log entry 46). -/
def loadTimeout (a : Act) (s : State) : State :=
  let u := s.acu[a]
  if u.state = .loading ∧ !u.servoLock then raiseAct a 3 (triggerPark a 3 s) else s

def execLoadTimeout (a : Act) (s : State) : Host.Outcome State Fault Refusal := .next (loadTimeout a s)

/-- RECOVER_TIMEOUT (R113 step 4): a park without servo. -/
def recoverTimeout (a : Act) (s : State) : State :=
  if s.acu[a].state = .lost then triggerParkDrive a 5 s else s

def execRecoverTimeout (a : Act) (s : State) : Host.Outcome State Fault Refusal := .next (recoverTimeout a s)

/-- HARNESS_PARK (R116): cause 1. -/
def execHarnessPark (a : Act) (s : State) : Host.Outcome State Fault Refusal := .next (triggerPark a 1 s)

/-- Whether a write of session n reaches ACU[a]'s servo registers: an Operator session, a declared actuator, a clocked
island (R7, R385, R424). -/
def State.acuWritable (s : State) (n : Fin 4) (a : Act) : Bool :=
  s.may n .operator && s.hasAct a && s.acu[a].clocked

/-- PARK_REGISTER (R116): cause 2. -/
def parkRegister (n : Fin 4) (a : Act) (s : State) : State :=
  if s.acuWritable n a then triggerPark a 2 s else s

def execParkRegister (n : Fin 4) (a : Act) (s : State) : Host.Outcome State Fault Refusal := .next (parkRegister n a s)

/-- UNIT_STOP_PARK (R334): after the sector wait, cause 3, at step 2 where store 32 + a has failed. -/
def unitStopPark (a : Act) (s : State) : State :=
  let busy := match s.chan[a].cur with | some r => r.write | none => false
  if s.power.stopWait[a] && !busy then
    let s1 := s.modPower (fun p => { p with stopWait := p.stopWait.set a false })
    let s2 := s1.modChan a (fun c => { c with pass := none })
    let s3 := if s2.bit Reg.JQ_FAIL_HI a.val then triggerParkDrive a 3 s2 else triggerPark a 3 s2
    hdaStopCheck (hdaOf a) s3
  else s

def execUnitStopPark (a : Act) (s : State) : Host.Outcome State Fault Refusal := .next (unitStopPark a s)

/-- PARK_LATCHED (R117 steps 3 and 4, R405): the velocity estimate has stayed below 5 % of PARK_VEL for 2 ms, 400 periods of 5 µs; gates off, RAMP. The coil resistance measured over the latch interval is
taken where R407 accepts it. -/
def parkLatched (a : Act) (rCoil : Nat) (s : State) : State :=
  let u := s.acu[a]
  if u.state = .parking ∧ u.park = some .drive ∧ 400 ≤ u.latchRun then
    let s1 := s.modAcu a (fun u => { u with
      gatesOn := false, park := none, servoLock := false, lockRun := 0 })
    hdaStopCheck (hdaOf a) (setAcuState a .ramp (measureCoil a rCoil s1))
  else s

def execParkLatched (a : Act) (rCoil : Nat) (s : State) : Host.Outcome State Fault Refusal := .next (parkLatched a rCoil s)

/-- PARK_TIMEOUT (R117): gates off, HALTED, TIMEOUT set, source 8a + 4 raised. -/
def parkTimeout (a : Act) (s : State) : State :=
  if s.acu[a].state = .parking then
    let s1 := s.modAcu a (fun u => { u with gatesOn := false, park := none, servoLock := false, lockRun := 0 })
    let s2 := (setAcuState a .halted s1).setB (Reg.ACU_PARK_CTRL a) Fld.ACU_PARK_CTRL_TIMEOUT true
    hdaStopCheck (hdaOf a) (raiseAct a 4 s2)
  else s

def execParkTimeout (a : Act) (s : State) : Host.Outcome State Fault Refusal := .next (parkTimeout a s)

/-! ### Write inhibit (R17, R109, R110) -/

/-- MASAT_INHIBIT (R109 bit 5). -/
def masatInhibit (a : Act) (s : State) : State := if s.masatPresent a then refreshWi a s else s

def execMasatInhibit (a : Act) (s : State) : Host.Outcome State Fault Refusal := .next (masatInhibit a s)

/-- The shock comparator of an HDA goes active: both gates are released (R17), cause SHOCK is present. -/
def shockAssert (h : Hda) (s : State) : State :=
  let f (a : Act) (s : State) : State :=
    let during := s.chan[a].gate
    refreshWi a (s.modAcu a (fun u => { u with shockIn := true, shockLeft := none, shockCheck := u.shockCheck || during }))
  f (highAct h) (f (lowAct h) s)

def execShockAssert (h : Hda) (s : State) : Host.Outcome State Fault Refusal := .next (shockAssert h s)

/-- The comparator returns inactive: SHOCK_HOLD wedges are counted from here (R109). -/
def shockRelease (h : Hda) (s : State) : State :=
  let f (a : Act) (s : State) : State :=
    if s.acu[a].shockIn then
      refreshWi a (s.modAcu a (fun u => { u with
        shockIn := false,
        shockLeft := some (Fld.ACU_WI_CFG_SHOCK_HOLD.get u.wiCfg) }))
    else s
  f (highAct h) (f (lowAct h) s)

def execShockRelease (h : Hda) (s : State) : Host.Outcome State Fault Refusal := .next (shockRelease h s)

/-- SHOCK_HOLD_EXPIRE (R109): the count is out, so the SHOCK cause clears. -/
def shockHoldExpire (a : Act) (s : State) : State :=
  if s.acu[a].shockLeft = some 0 then refreshWi a (s.modAcu a (fun u => { u with shockLeft := none })) else s

def execShockHoldExpire (a : Act) (s : State) : Host.Outcome State Fault Refusal := .next (shockHoldExpire a s)

/-- WRITE_PERMIT_RETURN (R110): no cause present and COUNT wedges in tolerance. -/
def writePermitReturn (a : Act) (s : State) : State :=
  let count := atLeast1 (Fld.ACU_PES_LIM_COUNT.get s.acu[a].pesLim)
  if s.wiLive a = 0 ∧ count ≤ s.acu[a].tolRun then s.modAcu a (fun u => { u with wrOk := true }) else s

def execWritePermitReturn (a : Act) (s : State) : Host.Outcome State Fault Refusal := .next (writePermitReturn a s)

/-! ### VCM current (R98, R99, R114) -/

/-- The velocity the velocity loop is asked for, where it runs (R99, R115, R117): none where PV gives the command. -/
def velocityAsked (u : Acu) (cfg : ActCfg) : Option Int :=
  match u.state with
  | .loading => some cfg.loadVel
  | .lost => some 0
  | .parking => if u.park = some .drive then some (-(cfg.parkVel : Int)) else none
  | _ => none

/-- A 24-bit number of a current loop as a current in mA, IMAX full scale (R98). -/
def loopMilliamps (imax : Nat) (x : Int) : Rat := (x : Rat) * (imax : Rat) / 8388608

/-- A current in mA as a 24-bit number, IMAX full scale. -/
def loopNumber (imax : Nat) (mA : Rat) : Int := (sat24 (ratRound (mA * 8388608 / (imax : Rat)))).1

/-- The estimated back-EMF in mV (R114): the coil voltage that the duty and the bus imply, less the drop across the coil resistance at the sensed
current, less the inductive term. -/
def backEmf (u : Acu) (imax : Nat) (sense : Int) : Rat :=
  let i := loopMilliamps imax sense
  (u.duty : Rat) * (u.vbus : Rat) / 8388608 - (u.coilR : Rat) * i / 1000 - Config.coilInductive (i - loopMilliamps imax u.lastSense)

/-- The velocity estimate lies below 5 % of PARK_VEL (R117). -/
def latchSlow (cfg : ActCfg) (bemf : Rat) : Bool := decide (20 * ratAbs (Config.bemfSpeed bemf) < (cfg.parkVel : Rat))

/-- VCM_PWM_PERIOD (R98, R114): CI turns the current command and the sensed current into the next duty. In the last step of a park the command is
PARK_PUSH outwards while the estimate shows the heads slow (R117). -/
def vcmPwmPeriod (a : Act) (sense : Int) (s : State) : State :=
  let u := s.acu[a]
  let cfg := s.cfg.acts[a]
  match u.state with
  | .ramp | .halted => s
  | _ =>
    if !u.clocked then s else
    let e := backEmf u cfg.imax sense
    let slow := u.state == .parking && u.park == some .drive && latchSlow cfg e
    let cmd := match velocityAsked u cfg with
      | some v => if slow then loopNumber cfg.imax (-(cfg.parkPush : Rat)) else Config.velocityLoop s.cfg.velGains[a] v e
      | none => u.curCmd
    let inp := sat24 (cmd - sense)
    let r := (u.loops[3].noteSum inp.2).run inp.1
    s.modAcu a (fun u => { u with
      curCmd := cmd, lastSense := sense, bemf := e, latchRun := if slow then u.latchRun + 1 else 0, duty := r.1, loops := u.loops.set 3 r.2 })

def execVcmPwmPeriod (a : Act) (sense : Int) (s : State) : Host.Outcome State Fault Refusal := .next (vcmPwmPeriod a sense s)

/-! ### Coefficient writes (R104, R105, R129) -/

/-- The loops of a Shed unit, and the unit with one loop replaced. -/
def State.loopOf (s : State) (u : ShedUnit) (l : Fin 4) : Loop :=
  match u with | .acu a => s.acu[a].loops[l] | .scu h => s.scu[h].loops[l]

def State.setLoop (s : State) (u : ShedUnit) (l : Fin 4) (x : Loop) : State :=
  match u with
  | .acu a => s.modAcu a (fun u => { u with loops := u.loops.set l x })
  | .scu h => s.modScu h (fun u => { u with loops := u.loops.set l x })

def State.unitClocked (s : State) (u : ShedUnit) : Bool :=
  match u with | .acu a => s.acu[a].clocked && s.hasAct a | .scu h => s.scu[h].clocked && s.hasHda h

/-- A session's copy of a unit's CLE_SEL (R423). -/
def cleSelKey (n : Fin 4) (u : ShedUnit) : Nat :=
  match u with | .acu a => bank n (Reg.ACU_CLE_SEL a) | .scu h => bank n (Reg.SCU_CLE_SEL h)

/-- The loop a session's CLE_SEL selects. -/
def State.cleLoop (s : State) (n : Fin 4) (u : ShedUnit) : Fin 4 :=
  Fin.ofNat 4 (s.getF (cleSelKey n u) Fld.ACU_CLE_SEL_LOOP)

/-- AUTOINC: ITEM advances; after item 5 it returns to 0 and STAGE advances. Only the issuing session's copy moves (R423). -/
def advanceCle (n : Fin 4) (u : ShedUnit) (s : State) : State :=
  let k := cleSelKey n u
  if s.bitF k Fld.ACU_CLE_SEL_AUTOINC then
    let item := s.getF k Fld.ACU_CLE_SEL_ITEM
    if 5 ≤ item then
      (s.setF k Fld.ACU_CLE_SEL_ITEM 0).setF k Fld.ACU_CLE_SEL_STAGE (s.getF k Fld.ACU_CLE_SEL_STAGE + 1)
    else s.setF k Fld.ACU_CLE_SEL_ITEM (item + 1)
  else s

/-- A value written through CLE_DATA lands in the selected item (R104); a selection of none is ignored, and so is an exponent
outside −32 to +7. -/
def landCleData (n : Fin 4) (u : ShedUnit) (w : Word) (busy : Bool) (s : State) : State :=
  let k := cleSelKey n u
  let stage := s.getF k Fld.ACU_CLE_SEL_STAGE
  let item := s.getF k Fld.ACU_CLE_SEL_ITEM
  let l := s.cleLoop n u
  let v := if item = 5 then signed 8 w.toNat else signed 24 w.toNat
  if 12 ≤ stage ∨ 6 ≤ item ∨ (item = 5 ∧ (v < -32 ∨ 7 < v)) then s
  else s.setLoop u l ((s.loopOf u l).land (.item stage item v) busy)

/-- CLE_DATA_WRITE (R104): the value lands, and AUTOINC advances the selection. -/
def cleDataWrite (n : Fin 4) (u : ShedUnit) (w : Word) (busy : Bool) (s : State) : State :=
  if s.may n .operator && s.unitClocked u then advanceCle n u (landCleData n u w busy s) else s

def execCleDataWrite (n : Fin 4) (u : ShedUnit) (w : Word) (busy : Bool) (s : State) : Host.Outcome State Fault Refusal :=
  .next (cleDataWrite n u w busy s)

/-- CLE_BYPASS_WRITE (R103, R104). -/
def cleBypassWrite (n : Fin 4) (u : ShedUnit) (w : Word) (busy : Bool) (s : State) : State :=
  if s.may n .operator && s.unitClocked u then
    let l := s.cleLoop n u
    s.setLoop u l ((s.loopOf u l).land (.bypass (BitVec.ofNat 12 w.toNat)) busy)
  else s

def execCleBypassWrite (n : Fin 4) (u : ShedUnit) (w : Word) (busy : Bool) (s : State) : Host.Outcome State Fault Refusal :=
  .next (cleBypassWrite n u w busy s)

/-- CLE_WRITE_APPLY (R104): every write that waits takes effect at the end of the computation. -/
def execCleWriteApply (u : ShedUnit) (l : Fin 4) (s : State) : Host.Outcome State Fault Refusal :=
  .next (s.setLoop u l (s.loopOf u l).flush)

end Sys2Proof.Machine
end

