-- ==== Sys2Proof/Machine/Spindle.lean ====
section
/-! DEFINITION. The commands of chapter 6: the PWM period with its sampling, observer and modulation; spindle states;
starts, catches, stops; the chopper and the motor bus. -/

namespace Sys2Proof.Machine

/-! ### The observer (R126 to R128) -/

/-- α, and √3 β, of three phase quantities. -/
def clarke (x : Int × Int × Int) : Rat × Rat :=
  ((2 * x.1 - x.2.1 - x.2.2 : Int) / (3 : Rat), ((x.2.1 - x.2.2 : Int) : Rat))

/-- RES_THR and RES_N as they are taken (R130). -/
def State.resThr (s : State) (h : Hda) : Nat := min 100 (atLeast1 (s.getF (Reg.SCU_OBS_CFG h) Fld.SCU_OBS_CFG_RES_THR))
def State.resN (s : State) (h : Hda) : Nat := atLeast1 (s.getF (Reg.SCU_OBS_CFG h) Fld.SCU_OBS_CFG_RES_N)

/-- The phase voltages of a measured period in mV: width × VBUS less sign(i) × DEADT / T × VBUS. DESIGN CHOICE (log entry 6): R126 says
"corrected by", and the correction is subtracted, since a phase whose current flows out of its leg loses the dead time's volt-seconds. -/
def phaseVolts (d : Nat) (i : Int) (vbus deadT : Nat) : Rat :=
  let sg : Int := if i < 0 then -1 else if 0 < i then 1 else 0
  (((d : Int) - sg * deadT) * vbus : Int) / (pwmT : Rat)

/-- The α–β currents of R126's motor model after `n` periods from those of the last measured period, with that period's widths and VBUS. -/
def modelCurrents (c : SpindleCfg) (u : Scu) (n : Nat) : Rat × Rat :=
  let vU := phaseVolts u.vLast.u u.iPhase.1 u.vbusLast c.deadT
  let vV := phaseVolts u.vLast.v u.iPhase.2.1 u.vbusLast c.deadT
  let vW := phaseVolts u.vLast.w u.iPhase.2.2 u.vbusLast c.deadT
  let k : Rat := (25 * n : Nat) / (c.lPh : Rat)
  let r : Rat := (c.rPh : Rat) / 1000
  (u.iLast.1 + k * ((2 * vU - vV - vW) / 3 - r * u.iLast.1 - u.eEst.1), u.iLast.2 + k * (vV - vW - r * u.iLast.2 - u.eEst.2))

/-- One observer update (R126): the residual squared in mA², and the new back-EMF estimate. -/
def observe (c : SpindleCfg) (u : Scu) (i : Int × Int × Int) : Rat × (Rat × Rat) :=
  let p := modelCurrents c u u.dtPeriods
  let m := clarke i
  let ea := m.1 - p.1
  let eb := m.2 - p.2
  let g : Rat := (c.gE : Rat) / 100
  (ea * ea + eb * eb / 3, (u.eEst.1 - g * ea, u.eEst.2 - g * eb))

/-- States in which the observer runs (R131). -/
def ScuState.observes : ScuState → Bool
  | .openloop | .accel | .run | .decel | .bushold => true
  | _ => false

/-- The currents of the period that ends, where two phases were measured; the third from the sum (R123). -/
def measuredCurrents (u : Scu) (p : PwmSample) : Option (Int × Int × Int) :=
  let a := u.issued.1.measured
  let b := u.issued.2.1.measured
  let c := u.issued.2.2.measured
  if a && b && c then some (p.iU, p.iV, p.iW)
  else if a && b then some (p.iU, p.iV, -(p.iU + p.iV))
  else if a && c then some (p.iU, -(p.iU + p.iW), p.iW)
  else if b && c then some (-(p.iV + p.iW), p.iV, p.iW)
  else none

/-- The warp speed in 1/16 rpm of the locked channel, the lower actuator's first (R132), from what has crossed (R12). -/
def Scu.warpSpeed (u : Scu) : Option Nat :=
  if u.lockLow && u.warpLow.isSome then u.warpLow else if u.lockHigh then u.warpHigh else none

/-- The observer's part of a period: the estimate, the angle and speed, and the counts of R127 and R128. In an unmeasured period the motor model's
currents stand in, no residual is evaluated and no count moves (R124). -/
def runObserver (c : SpindleCfg) (thr : Nat) (warp : Option Nat) (p : PwmSample) (u : Scu) : Scu :=
  if !u.state.observes then u else
  match measuredCurrents u p with
  | none => { u with iUsed := modelCurrents c u u.dtPeriods, dtPeriods := u.dtPeriods + 1 }
  | some i =>
    let o := observe c u i
    let t := Config.track o.2 u.theta u.obsSpeed c.pllBw u.dtPeriods
    let lim : Rat := ((thr * c.imaxSp : Nat) : Rat)
    let good := decide (o.1 * 40000 ≤ lim * lim) && decide (0 < t.2)
    let bad := decide (lim * lim < o.1 * 10000)
    let off := match warp with
      | some w => decide ((w : Int) < (t.2 - w).natAbs * 50)
      | none => false
    let watch := u.state != .openloop
    { u with
      eEst := o.2, theta := t.1, obsSpeed := t.2, iLast := clarke i, iUsed := clarke i, iPhase := i, dtPeriods := 1
      vLast := issuedWidths u.issued, vbusLast := u.vbus
      goodRun := if good then u.goodRun + 1 else 0
      badRes := if watch && bad then u.badRes + 1 else 0
      badSpeed := if watch && off then u.badSpeed + 1 else 0 }

/-! ### Loops and modulation (R125, R120 to R123, R141) -/

/-- The braking current limit of R141 as a 24-bit magnitude: full up to 14.0 V, falling to zero at 14.6 V. -/
def brakeLimit (vbus : Nat) : Int :=
  if vbus ≤ 14000 then 8388607 else if 14600 ≤ vbus then 0 else 8388607 * (14600 - vbus : Nat) / 600

/-- The d-axis current reference: 10 % of IMAX_SP in RUN while the SCU part of a calibration run is due (R404), else zero. -/
def State.dRef (s : State) (h : Hda) : Int :=
  if s.cal[h].running && s.cal[h].scu && s.scu[h].state == .run then 8388607 * 10 / 100 else 0

/-- The angle of the d–q transforms (R125): the observer angle advanced by 1.5 periods of rotation at the observer speed; in OPENLOOP the angle of
the rotating vector's frame (R135). -/
def Scu.frameAngle (u : Scu) (c : SpindleCfg) : Rat :=
  if u.state = .openloop then u.olAngle else u.theta + ((u.obsSpeed * c.polePairs * 9 : Int) : Rat) / 640000

/-- The d- and q-axis currents, 24-bit with IMAX_SP full scale, of α–β currents in a frame at an angle. -/
def dqCurrents (c : SpindleCfg) (i : Rat × Rat) (th : Rat) : Int × Int :=
  let b := i.2 * Config.invSqrt3
  let cs := Config.cosDeg th
  let sn := Config.sinDeg th
  let k : Rat := 8388607 / (c.imaxSp : Rat)
  (Config.spinRound (k * (i.1 * cs + b * sn)), Config.spinRound (k * (b * cs - i.1 * sn)))

/-- Space-vector modulation with min–max injection (R125): the phase voltages of a d–q voltage, each less the mean of the greatest and the least,
as widths in Shed clocks about half the period. -/
def modulate (vd vq : Int) (th : Rat) (vbus : Nat) : Widths :=
  let cs := Config.cosDeg th
  let sn := Config.sinDeg th
  let a := vd * cs - vq * sn
  let b := (vd * sn + vq * cs) * Config.invSqrt3 * (3 / 2)
  let part (v : Rat) : Rat := Config.voltPart v vbus
  let u := part a
  let v := part (b - a / 2)
  let w := part (-b - a / 2)
  let mid := (max u (max v w) + min u (min v w)) / 2
  let width (x : Rat) : Nat := (Config.spinRound ((x - mid + 1 / 2) * (pwmT : Rat))).toNat
  ⟨width u, width v, width w⟩

/-- Loops SPD (VB in BUSHOLD), ID and IQ, and the widths they ask for (R125). -/
def runCurrentLoops (c : SpindleCfg) (regenOff : Bool) (dRef : Int) (u : Scu) : Scu :=
  match u.state with
  | .openloop | .accel | .run | .decel | .bushold =>
    let th := u.frameAngle c
    let idq := dqCurrents c u.iUsed th
    let q0 : Int × Vector Loop 4 :=
      match u.state with
      | .openloop => (8388607 * c.iStart / 100, u.loops)
      | .bushold =>
        let x := sat24 (Config.vbScale ((c.vHold : Int) - u.vbus))
        let r := (u.loops[3].noteSum x.2).run x.1
        (r.1, u.loops.set 3 r.2)
      | _ =>
        let x := sat24 (Config.spdScale (u.refSpeed - u.obsSpeed))
        let r := (u.loops[0].noteSum x.2).run x.1
        (r.1, u.loops.set 0 r.2)
    let lim := brakeLimit u.vbus
    let q1 := if q0.1 < -lim then -lim else q0.1
    let q := if regenOff && u.state != .bushold && decide (q1 < 0) then 0 else q1
    let xd := sat24 (dRef - idq.1)
    let d := (q0.2[1].noteSum xd.2).run xd.1
    let xq := sat24 (q - idq.2)
    let l2 := q0.2.set 1 d.2
    let qv := (l2[2].noteSum xq.2).run xq.1
    { u with qCmd := q, loops := l2.set 2 qv.2, next := (modulate d.1 qv.1 th u.vbus).cap (dCap c.deadT) }
  | _ => u

/-- Issue the next period's pulses from the widths computed a period ago (R122, R123): after a deferral the carried part is
added and the period is not measured; otherwise the middle phase defers what lies above D_LIM. The second part counts a
deferral, the third a dropped remainder. -/
def issue (c : SpindleCfg) (w : Widths) (carry : Option (Phase × Nat)) :
    (Pulse × Pulse × Pulse) × Option (Phase × Nat) × Bool × Bool :=
  let pulses (w : Widths) : Pulse × Pulse × Pulse :=
    (issuePulse c.deadT c.tw w.u, issuePulse c.deadT c.tw w.v, issuePulse c.deadT c.tw w.w)
  match carry with
  | some (x, r) =>
    let full := w.get x + r
    let d := min full (dCap c.deadT)
    let centre : Pulse := legPulse c.deadT (pwmT - d) (2 * d) false false
    let ps := pulses (w.set x d)
    let un (p : Pulse) : Pulse := { p with measured := false }
    let ps' := match x with
      | .u => (centre, un ps.2.1, un ps.2.2)
      | .v => (un ps.1, centre, un ps.2.2)
      | .w => (un ps.1, un ps.2.1, centre)
    (ps', none, false, decide (d < full))
  | none =>
    let x := middlePhase w
    let lim := dLim c.deadT c.tw
    if lim < w.get x then (pulses (w.set x lim), some (x, w.get x - lim), true, false)
    else (pulses w, none, false, false)

/-- The voltage vector that ALIGN applies so many Shed clocks after it began, in electrical degrees (R135): the k-th of twelve lasts IPD_T and is
followed by ten times IPD_T with the gates off. -/
def alignVector (c : SpindleCfg) (clocks : Nat) : Option Nat :=
  let t := 400 * c.ipdT
  if clocks < 132 * t ∧ clocks % (11 * t) < t then some (30 * (clocks / (11 * t))) else none

/-! ### The chopper (R142 to R145) -/

/-- Release CHOP_G. -/
def chopRelease (h : Hda) (s : State) : State := s.modScu h (fun u => { u with chopOn := false, chopHold := false })

/-- A chopper fault of R144 is set. -/
def State.chopFault (s : State) (h : Hda) : Bool :=
  s.bitF (Reg.SCU_CHOP h) Fld.SCU_CHOP_OPEN || s.bitF (Reg.SCU_CHOP h) Fld.SCU_CHOP_NOFALL

/-- CHOP_G asserted at 13.8 V and released at 13.4 V, never within 10 µs of asserting (R142). -/
def runChopper (h : Hda) (s : State) : State :=
  let u := s.scu[h]
  if u.chopOn then
    if !u.chopHold && decide (u.vbus ≤ 13400) then chopRelease h s else s
  else if decide (13800 ≤ u.vbus) && !s.chopFault h && s.power.motHi then
    (s.modScu h (fun u => { u with chopOn := true, chopHold := true, chopAt := u.vbus })).incF
      (Reg.SCU_CNT_CHOP h) Fld.SCU_CNT_CHOP_ON
  else s

/-! ### The PWM period -/

/-- TARGET in 1/16 rpm. -/
def State.target16 (s : State) (h : Hda) : Nat := 16 * s.getF (Reg.SCU_CTRL h) Fld.SCU_CTRL_TARGET

/-- |reported speed − TARGET| ≤ SPD_TOL × TARGET (R133). -/
def State.inBand (s : State) (h : Hda) (speed16 : Nat) : Bool :=
  decide (((speed16 : Int) - s.target16 h).natAbs * 10000 ≤ s.cfg.spin[h].spdTol * s.target16 h)

/-- Whether the peak line back-EMF estimate of R132 is below BEMF_MIN: 3 I² (R² + ω²L²) against BEMF_MIN². -/
def shortBelow (c : SpindleCfg) (period peak : Nat) : Bool :=
  -- ω = 2π × 4×10^8 / P; mV² on both sides; R in mΩ, L in µH, I in mA
  -- 3 I² (R² + (2π·400/P)² 10^18·L²·10^-6·...)   with ω L in mΩ = 2π × 4×10^8 × L × 10^-3 / P
  let x := 2 * 400000 * c.lPh
  decide (3 * peak ^ 2 * (c.rPh ^ 2 * period ^ 2 * 10000000 + x ^ 2 * 98696044)
    < (1000 * c.bemfMin) ^ 2 * period ^ 2 * 10000000)

/-- The short-circuit speed in ZVBRAKE (R132). With no crossing for DETECT_TMO the speed is zero, and the back-EMF counts as below BEMF_MIN. -/
def runShort (c : SpindleCfg) (p : PwmSample) (u : Scu) : Scu :=
  if u.state ≠ .zvbrake then u else
  match p.crossing with
  | some (period, peak) =>
    let low := shortBelow c period peak
    { u with shortLow := low, zcPeriods := 0,
             shortSpeed := if low then 0 else 384000000000 / (period * c.polePairs) }
  | none =>
    let n := u.zcPeriods + 1
    if c.detectTmo * 40 ≤ n then { u with zcPeriods := n, shortSpeed := 0, shortLow := true } else { u with zcPeriods := n }

/-- The reported speed (R132). -/
def reportSpeed (warp : Option Nat) (u : Scu) : Scu :=
  match warp with
  | some w => { u with speed16 := w, fromWarp := true }
  | none =>
    let v := if u.state.observes then u.obsSpeed.natAbs
      else if u.state = .zvbrake then u.shortSpeed else u.lastSpeed
    { u with speed16 := v, fromWarp := false, lastSpeed := if u.state = .zvbrake then u.shortSpeed else u.lastSpeed }

/-- One PWM period of the Treadle's speed ramp (R133): the reference and its acceleration move towards the goal within AMAX_SP and JMAX_SP, and come to
rest on it once both are within one period's reach. While the bus current is at IBUS_MAX, the acceleration is reduced. -/
def rampSpeed (c : SpindleCfg) (goal ref acc : Rat) (atBus : Bool) : Rat × Rat :=
  let dt : Rat := 1 / 40000
  let a : Rat := 16 * c.amaxSp
  let j : Rat := 16 * c.jmaxSp
  if goal - ref ≤ a * dt ∧ ref - goal ≤ a * dt ∧ acc ≤ j * dt ∧ -acc ≤ j * dt then (goal, 0)
  else
    let want := Config.speedJerk ref acc goal
    let back := Config.busBack acc
    let rate := if atBus ∧ 0 < acc then -(if 0 < back ∧ back ≤ j then back else j) else ratClamp j want
    let acc' := ratClamp a (acc + rate * dt)
    (ref + acc' * dt, acc')

/-- The open-loop speed in 1/16 rpm: OL_ACC for so many periods of 25 µs (R135). -/
def Scu.olSpeed (u : Scu) (c : SpindleCfg) : Rat := ((c.olAcc * u.olPeriods : Nat) : Rat) / 2500

/-- The speed reference one period on (R133, R141), the rotating vector of OPENLOOP and the clock of ALIGN (R135). -/
def runReference (c : SpindleCfg) (target16 : Nat) (u : Scu) : Scu :=
  match u.state with
  | .accel | .run | .decel =>
    let goal : Rat := if u.state = .decel then 0 else (target16 : Rat)
    let w := issuedWidths u.issued
    let r := rampSpeed c goal u.refSpeed u.refAcc (decide ((c.ibusMax : Int) ≤ Config.busCurrent (w.u, w.v, w.w) u.iPhase))
    { u with refSpeed := r.1, refAcc := r.2 }
  | .openloop =>
    -- 6 electrical degrees per second and rpm, for 25 µs
    { u with olPeriods := u.olPeriods + 1, olAngle := u.olAngle + u.olSpeed c * c.polePairs * (3 / 320000) }
  | .align => { u with alignAt := u.alignAt + pwmT }
  | _ => u

/-- Spindle mirrors refresh at each PWM period (R9); those of PWM_STAT are of the period that ended. -/
def refreshSpinMirrors (h : Hda) (s : State) : State :=
  let u := s.scu[h]
  let s1 := s.setF (Reg.SCU_SPIN h) Fld.SCU_SPIN_STATE u.state.code
  let s2 := s1.setB (Reg.SCU_SPIN h) Fld.SCU_SPIN_DIR u.dirRev
  let s3 := s2.setB (Reg.SCU_SPIN h) Fld.SCU_SPIN_OBS_LOCK u.obsLock
  let s4 := s3.setB (Reg.SCU_SPIN h) Fld.SCU_SPIN_IN_TOL u.inTol
  let s5 := s4.setB (Reg.SCU_SPIN h) Fld.SCU_SPIN_SPD_SRC u.fromWarp
  let s6 := s5.setF (Reg.SCU_SPIN h) Fld.SCU_SPIN_TRIES u.tries
  let s7 := s6.setF (Reg.SCU_SPEED h) Fld.SCU_SPEED_SPEED u.speed16
  let s8 := s7.setF (Reg.SCU_BUS h) Fld.SCU_BUS_VBUS u.vbus
  let s9 := s8.setF (Reg.SCU_BUS h) Fld.SCU_BUS_ICHOP u.ichop
  let s10 := s9.setB (Reg.SCU_BUS h) Fld.SCU_BUS_CHOP_GATE u.chopOn
  let p := u.ended
  let s11 := s10.setF (Reg.SCU_PWM_STAT h) Fld.SCU_PWM_STAT_SHIFTED
    (b2n p.1.shifted + 2 * b2n p.2.1.shifted + 4 * b2n p.2.2.shifted)
  let s12 := s11.setF (Reg.SCU_PWM_STAT h) Fld.SCU_PWM_STAT_MEASURED
    (b2n p.1.measured + 2 * b2n p.2.1.measured + 4 * b2n p.2.2.measured)
  s12.setB (Reg.SCU_PWM_STAT h) Fld.SCU_PWM_STAT_DEFERRED u.endedUnmeas

/-- The state transitions a PWM period checks: the reference reaching TARGET ends ACCEL (R133), the band of IN_TOL,
ZV_RPM and lost regeneration in DECEL (R141, R144), and coasting down to where ZVBRAKE is allowed (R144). -/
def checkSpin (h : Hda) (s : State) : State :=
  let u := s.scu[h]
  let c := s.cfg.spin[h]
  match u.state with
  | .accel =>
    if u.refSpeed = (s.target16 h : Rat) ∧ u.refAcc = 0 then setScuState h .run .on s else s
  | .run =>
    if s.inBand h u.speed16 then s.modScu h (fun u => { u with tolRun := u.tolRun + 1 })
    else driveSpeedWires h (s.modScu h (fun u => { u with tolRun := 0, inTol := false }))
  | .decel =>
    if s.bitF (Reg.SCU_CHOP h) Fld.SCU_CHOP_REGEN_OFF then brakeWithoutRegen h s
    else if u.speed16 < 16 * c.zvRpm then enterZv h .stop s else s
  | .coast =>
    if u.coastToZv && scuShortOk c u.speed16 then enterZv h .stop (s.modScu h (fun u => { u with coastToZv := false })) else s
  | _ => s

/-- No phase counts as measured. -/
def unmeasured (p : Pulse × Pulse × Pulse) : Pulse × Pulse × Pulse :=
  ({ p.1 with measured := false }, { p.2.1 with measured := false }, { p.2.2 with measured := false })

/-- The motor-bus voltage in mV (R119): what is sampled at MBUS_V in µV times the declared divider ratio. -/
def busVolts (c : SpindleCfg) (busIn : Nat) : Nat :=
  let x := busIn * c.divider
  if x % 1000000 = 0 then x / 1000000 else x / 1000000 + b2n (Config.busRoundUp x)

/-- The pulses of a period by the state's gates: the modulator's, or none with the low sides on or every gate off (R120, R131). -/
def Scu.issueNext (u : Scu) (c : SpindleCfg) (w : Widths) : (Pulse × Pulse × Pulse) × Option (Phase × Nat) × Bool × Bool :=
  match u.gates with
  | .on => issue c w u.carry
  | .zero => ((flatPulse true, flatPulse true, flatPulse true), none, false, false)
  | .off | .pulses | .forced => ((flatPulse false, flatPulse false, flatPulse false), none, false, false)

/-- PWM_PERIOD (R119 to R128, R132, R133, R135, R141, R142). -/
def pwmPeriod (h : Hda) (p : PwmSample) (s : State) : State :=
  if !s.scu[h].clocked then s else
  let c := s.cfg.spin[h]
  let warp := s.scu[h].warpSpeed
  let thr := s.resThr h
  let regenOff := s.bitF (Reg.SCU_CHOP h) Fld.SCU_CHOP_REGEN_OFF
  let sampled := s.seqOk (sampleStore h)   -- otherwise the period is unmeasured (R162, R124)
  let computed := s.seqOk (scuStore h)     -- otherwise the widths of the previous period are repeated (R162)
  let ux := { s.scu[h] with vbus := busVolts c p.busIn, ichop := p.ichop }
  let u0 := if sampled then ux else { ux with issued := unmeasured ux.issued }
  let u1 := reportSpeed warp (runShort c p (runObserver c thr warp p u0))
  let w := if computed then u1.next else u1.curW   -- computed a period ago, issued now
  let u2 := if computed then runReference c (s.target16 h) (runCurrentLoops c regenOff (s.dRef h) u1) else u1
  let iss := u2.issueNext c w
  let u3 := { u2 with issued := iss.1, carry := iss.2.1, curW := w, unmeas := u2.carry.isSome && u2.gates == .on
                      ended := u2.issued, endedUnmeas := u2.unmeas }
  let s1 := { s with scu := s.scu.set h u3 }
  let s2 := if iss.2.2.1 then s1.incF (Reg.SCU_CNT_PWM h) Fld.SCU_CNT_PWM_DEFER else s1
  let s3 := if iss.2.2.2 then s2.incF (Reg.SCU_CNT_PWM h) Fld.SCU_CNT_PWM_DROP else s2
  let s4 := checkSpin h (runChopper h s3)
  let v := s4.scu[h]
  let m := XMsg.report v.speed16 v.vbus v.inTol v.rotor
  refreshSpinMirrors h ((s4.send (.scuAcu (lowAct h) true) m).send (.scuAcu (highAct h) true) m)

def execPwmPeriod (h : Hda) (p : PwmSample) (s : State) : Host.Outcome State Fault Refusal :=
  .next (refreshUst (pwmPeriod h p s))

/-! ### Chopper commands -/

/-- CHOP_MIN_ON_END (R142): 10 µs after assertion the release is allowed once the bus has fallen to 13.4 V. -/
def chopMinOnEnd (h : Hda) (vbus : Nat) (s : State) : State :=
  if s.scu[h].chopOn then
    if vbus ≤ 13400 then chopRelease h s else s.modScu h (fun u => { u with chopHold := false })
  else s

def execChopMinOnEnd (h : Hda) (vbus : Nat) (s : State) : Host.Outcome State Fault Refusal := .next (chopMinOnEnd h vbus s)

/-- OPEN or NOFALL is set (R143, R144): CHOP_G released and kept released, regeneration disabled, source 3 raised. -/
def chopFaulted (h : Hda) (f : Fld) (s : State) : State :=
  let s1 := (s.setB (Reg.SCU_CHOP h) f true).setB (Reg.SCU_CHOP h) Fld.SCU_CHOP_REGEN_OFF true
  raiseHda h 3 (chopRelease h s1)

/-- CHOP_OPEN_DETECT (R143). -/
def execChopOpenDetect (h : Hda) (s : State) : Host.Outcome State Fault Refusal :=
  .next (if s.scu[h].chopOn then chopFaulted h Fld.SCU_CHOP_OPEN s else s)

/-- CHOP_NOFALL_DETECT (R143): the bus is not at least 0.1 V below its value at assertion. -/
def execChopNofallDetect (h : Hda) (s : State) : Host.Outcome State Fault Refusal :=
  .next (if s.scu[h].chopOn && decide (s.scu[h].chopAt < s.scu[h].vbus + 100) then chopFaulted h Fld.SCU_CHOP_NOFALL s else s)

/-- CHOP_STUCK_DETECT (R143): changes no braking. -/
def execChopStuckDetect (h : Hda) (s : State) : Host.Outcome State Fault Refusal :=
  .next (if s.scu[h].chopOn then s else raiseHda h 3 (s.setB (Reg.SCU_CHOP h) Fld.SCU_CHOP_STUCK true))

/-- Whether a write of session n reaches SCU[h]'s registers (R7, R385, R424). -/
def State.scuWritable (s : State) (n : Fin 4) (h : Hda) (r : Role) : Bool := s.may n r && s.hasHda h && s.scu[h].clocked

/-- A write of SCU[h]_CHOP: each 1 clears its bit; with OPEN and NOFALL both clear, the chopper and regeneration are
enabled again (R144). -/
def writeChop (h : Hda) (w : Word) (s : State) : State :=
  let k := Reg.SCU_CHOP h
  let s1 := s.setF k ⟨3, 0⟩ (s.getF k ⟨3, 0⟩ &&& (15 - w.toNat % 16))
  if s1.chopFault h then s1 else s1.setB k Fld.SCU_CHOP_REGEN_OFF false

/-- CHOP_FAULT_CLEAR (R144). -/
def execChopFaultClear (n : Fin 4) (h : Hda) (w : Word) (s : State) : Host.Outcome State Fault Refusal :=
  .next (if s.scuWritable n h .operator then writeChop h w s else s)

/-- OVERVOLTAGE_TRIP (R145): gates forced low, OVERV set, HALTED, source 4 raised. -/
def execOvervoltageTrip (h : Hda) (s : State) : Host.Outcome State Fault Refusal :=
  .next (refreshUst (raiseHda h 4 ((haltScu h s).setB (Reg.SCU_CHOP h) Fld.SCU_CHOP_OVERV true)))

/-! ### Observer lock, tolerance, rotor loss -/

/-- OBSERVER_LOCK_CONFIRMED (R127, R140): a catch holds once lock is confirmed. -/
def execObserverLockConfirmed (h : Hda) (s : State) : Host.Outcome State Fault Refusal :=
  .next (if 64 ≤ s.scu[h].goodRun ∧ s.scu[h].state.observes then
    s.modScu h (fun u => { u with obsLock := true, catching := false, catchFails := 0 }) else s)

/-- IN_TOL_SET (R133, R368): four periods in RUN within the band; the SPEED cause clears, and the HDA's stagger place is free. -/
def execInTolSet (h : Hda) (s : State) : Host.Outcome State Fault Refusal :=
  .next (if s.scu[h].state = .run ∧ 4 ≤ s.scu[h].tolRun then
    driveSpeedWires h ((s.modScu h (fun u => { u with inTol := true })).modPower (fun p => { p with placed := p.placed.set h false })) else s)

/-- A catch attempt has failed (R140): counted; after CATCH_TRIES the sequence ends in COAST with ROTOR present and source 2
raised, otherwise it repeats from step 2 of R139. -/
def catchFailed (h : Hda) (s : State) : State :=
  let s1 := (s.modScu h (fun u => { u with catchFails := u.catchFails + 1 })).incF
    (Reg.SCU_CNT_LOSS h) Fld.SCU_CNT_LOSS_CATCH_FAIL
  let s2 := scuCoast h s1
  if s.cfg.spin[h].catchTries ≤ s2.scu[h].catchFails then
    raiseHda h 2 (s2.modScu h (fun u => { u with lossPending := false, catching := false, catchFails := 0 }))
  else s2

/-- ROTOR_LOSS_DECLARED (R128, R139, R140): the rotor-loss wire releases both gates, the channels lose lock, the gates turn
off. A declaration before observer lock is a failed catch attempt. -/
def rotorLoss (h : Hda) (s : State) : State :=
  let u := s.scu[h]
  let watched := match u.state with | .accel | .run | .decel | .bushold => true | _ => false
  if watched && (decide (s.resN h ≤ u.badRes) || decide (s.resN h ≤ u.badSpeed)) then
    let s1 := s.modScu h (fun u => { u with
      rotor := true, lossPending := true, catching := true, tries := if u.catching then u.tries else 0,
      catchFails := if u.catching then u.catchFails else 0, fromBushold := u.state == .bushold })
    let s2 := s1.incF (Reg.SCU_CNT_LOSS h) Fld.SCU_CNT_LOSS_LOSS
    let s3 := driveSpeedWires h s2
    let s4 := loseLock (highAct h) (loseLock (lowAct h) s3)
    let s5 := discardCal (highAct h) (discardCal (lowAct h) s4)
    let s6 := raiseHda h 1 (scuCoast h s5)
    if u.catching then catchFailed h s6 else s6
  else s

def execRotorLossDeclared (h : Hda) (s : State) : Host.Outcome State Fault Refusal :=
  .next (refreshUst (rotorLoss h s))

/-- ROTOR_CURRENT_DECAYED (R139 steps 3 and 4): a catch attempt begins. -/
def execRotorCurrentDecayed (h : Hda) (s : State) : Host.Outcome State Fault Refusal :=
  .next (refreshUst (if s.scu[h].state = .coast ∧ s.scu[h].lossPending then
    enterDetect h (s.modScu h (fun u => { u with tries := u.tries + 1 })) else s))

/-! ### Detection, catching, starting (R134 to R138) -/

/-- DETECT_FORWARD (R134, R136): the catch measurement begins. -/
def execDetectForward (h : Hda) (s : State) : Host.Outcome State Fault Refusal :=
  .next (if s.scu[h].state = .detect then
    let s1 := s.modScu h (fun u => { u with measuring := true, dirRev := false })
    if s.power.buRun[h] then s1.setF (Reg.GLB_BU h) Fld.GLB_BU_SPIN 3 else s1
  else s)

/-- Whether the two measured periods agree and the rotor turns forward (R136). -/
def catchAgrees (m : CatchMeasure) : Bool :=
  m.forward && decide (((m.period1 : Int) - m.period2).natAbs * 10 ≤ m.period1) &&
  Config.lagThird m.lag1 m.period1 && Config.lagThird m.lag2 m.period2

/-- The measured speed in 1/16 rpm, from the two periods together. -/
def catchSpeed16 (m : CatchMeasure) (polePairs : Nat) : Nat :=
  2 * 384000000000 / ((m.period1 + m.period2) * polePairs)

/-- Preset a loop so that its output is a value (R136): the last stage in use stands there. -/
def Loop.preset (l : Loop) (v : Int) : Loop :=
  let l := l.cleared
  if h : 0 < l.nstage ∧ l.nstage ≤ 12 then
    have : l.nstage - 1 < 12 := by omega
    { l with stages := l.stages.set (l.nstage - 1) { l.stages[l.nstage - 1] with y1 := v, y2 := v } }
  else l

/-- A start from DETECT (R138): one more attempt, counted in CNT_START.STARTS. -/
def countStart (h : Hda) (s : State) : State :=
  (s.modScu h (fun u => { u with tries := u.tries + 1 })).incF (Reg.SCU_CNT_START h) Fld.SCU_CNT_START_STARTS

/-- Field-oriented control is restored (R136, R139): the observer takes the measured angle (DEDUCED, log entry 6: at a rising crossing of U–V a
forward rotor's back-EMF stands at 240° and its d-axis at 150°) and speed, the IQ loop is preset, the gates are on, ROTOR clears, and the state is
RUN within SPD_TOL of TARGET, BUSHOLD while PG_MBUS is low (R146), ACCEL otherwise. -/
def catchRotor (h : Hda) (speed : Nat) (s : State) : State :=
  let near := s.inBand h speed
  let e := Config.emfPeak s.cfg.spin[h].ke (speed * s.cfg.spin[h].polePairs)
  let s1 := s.modScu h (fun u => { u with
    obsSpeed := speed, theta := 150, eEst := (-e / 2, -(3 * e) / 2), iLast := (0, 0), iUsed := (0, 0), iPhase := (0, 0, 0)
    loops := u.loops.set 2 (u.loops[2].preset (Config.voltCode e))
    refSpeed := if near then (s.target16 h : Rat) else (speed : Rat), refAcc := 0, measuring := false,
    lossPending := false, rotor := false, dtPeriods := 1, carry := none })
  let st : ScuState := if !s.power.mbusHi then .bushold else if near then .run else .accel
  driveSpeedWires h (setScuState h st .on s1)

/-- CATCH_MEASURED (R136, R137, R140): the speed measured is the latest (R132). -/
def catchMeasured (h : Hda) (m : CatchMeasure) (s : State) : State :=
  let u := s.scu[h]
  if u.state = .detect ∧ u.measuring then
    let v := catchSpeed16 m s.cfg.spin[h].polePairs
    let s1 := s.modScu h (fun u => { u with lastSpeed := v })
    if catchAgrees m then catchRotor h v s1
    else if u.lossPending then catchFailed h s1
    else enterZv h .align (countStart h s1)
  else s

def execCatchMeasured (h : Hda) (m : CatchMeasure) (s : State) : Host.Outcome State Fault Refusal :=
  .next (refreshUst (catchMeasured h m s))

/-- DETECT_REVERSE (R137). Once forward rotation has been seen, R136 goes on. -/
def execDetectReverse (h : Hda) (s : State) : Host.Outcome State Fault Refusal :=
  .next (refreshUst (if s.scu[h].state = .detect ∧ s.scu[h].measuring = false then
    enterZv h .align (countStart h (s.modScu h (fun u => { u with dirRev := true }))) else s))

/-- Start from rest (R135): ALIGN. A start from DETECT is counted here; one that braked first was counted when it left DETECT. -/
def startFromRest (h : Hda) (s : State) : State :=
  let s1 := if s.scu[h].state = .detect then countStart h s else s
  let s2 := s1.modScu h (fun u => { u with waitPlace := false, alignAt := 0 })
  driveSpeedWires h (setScuState h .align .pulses s2)

/-- STAGGER_N as it is taken (R368). -/
def State.staggerN (s : State) : Nat :=
  let n := s.getF Reg.GLB_BU_CFG Fld.GLB_BU_CFG_STAGGER_N
  if n = 0 ∨ 8 < n then 8 else n

/-- HDAs that hold a stagger place: in SPIN with their spindle started from rest (R368). -/
def State.placesUsed (s : State) : Nat := (allHdas.filter (fun h => s.power.placed[h] && !s.scu[h].inTol)).length

/-- The rest outcome in a bring-up takes a stagger place, or waits for one (R368). A retry of a start keeps its place. While PG_MBUS is low no spindle
starts (R364): the SCU stays in DETECT, or enters COAST from ZVBRAKE (R146). -/
def takePlace (h : Hda) (s : State) : State :=
  if !s.power.mbusHi then (if s.scu[h].state = .zvbrake then scuCoast h s else s)
  else if s.power.placed[h] then startFromRest h (s.setF (Reg.GLB_BU h) Fld.GLB_BU_SPIN 2)
  else if s.power.buRun[h] then
    if s.placesUsed < s.staggerN && !allHdas.any (fun k => k != h && s.scu[k].waitPlace) then
      let s1 := s.modPower (fun p => { p with placed := p.placed.set h true })
      startFromRest h (s1.setF (Reg.GLB_BU h) Fld.GLB_BU_SPIN 2)
    else (s.modScu h (fun u => { u with waitPlace := true })).setF (Reg.GLB_BU h) Fld.GLB_BU_SPIN 1
  else startFromRest h s

/-- DETECT_TIMEOUT (R134, R140): the rest outcome; within a catch sequence, a failed attempt. Once forward rotation has been seen, R136 goes on. -/
def detectTimeout (h : Hda) (s : State) : State :=
  if s.scu[h].state = .detect ∧ s.scu[h].measuring = false then
    if s.scu[h].lossPending then catchFailed h s else takePlace h s
  else s

def execDetectTimeout (h : Hda) (s : State) : Host.Outcome State Fault Refusal :=
  .next (refreshUst (detectTimeout h s))

/-- The position of the largest peak current, the first of equals. -/
def argmaxFrom : Nat → Nat → Nat → List Nat → Nat
  | _, best, _, [] => best
  | i, best, v, x :: t => if v < x then argmaxFrom (i + 1) i x t else argmaxFrom (i + 1) best v t

/-- ALIGN_DONE (R135): the vector with the largest peak marks the d-axis (30° steps), and OPENLOOP begins. -/
def execAlignDone (h : Hda) (peaks : List Nat) (s : State) : Host.Outcome State Fault Refusal :=
  .next (if s.scu[h].state = .align then
    setScuState h .openloop .on (s.modScu h (fun u => { u with
      theta := (30 * argmaxFrom 0 0 0 peaks : Nat), olAngle := (30 * argmaxFrom 0 0 0 peaks : Nat), olPeriods := 0, goodRun := 0, obsLock := false, dtPeriods := 1, carry := none })) else s)

/-- The open-loop speed, OL_ACC for so many periods of 25 µs, has reached a speed in rpm. -/
def openReached (c : SpindleCfg) (periods rpm : Nat) : Bool := decide (rpm * 40000 ≤ c.olAcc * periods)

/-- OPENLOOP_HANDOVER (R134, R135): ACCEL from the open-loop speed. Field-oriented control is restored: ROTOR clears and no loss is pending. -/
def execOpenloopHandover (h : Hda) (s : State) : Host.Outcome State Fault Refusal :=
  .next (let u := s.scu[h]
    if u.state = .openloop ∧ u.obsLock ∧ openReached s.cfg.spin[h] u.olPeriods s.cfg.spin[h].handover then
      driveSpeedWires h (setScuState h .accel .on (s.modScu h (fun u => { u with
        rotor := false, lossPending := false, catching := false, catchFails := 0, refSpeed := u.olSpeed s.cfg.spin[h], refAcc := 0 })))
    else s)

/-- A start has failed (R138): COAST for RETRY_WAIT, or after START_TRIES for good with source 0 raised. -/
def startFailed (h : Hda) (s : State) : State :=
  let s1 := ((scuCoast h s).modScu h (fun u => { u with startFails := u.startFails + 1 })).incF (Reg.SCU_CNT_START h) Fld.SCU_CNT_START_FAIL
  if s.cfg.spin[h].startTries ≤ s1.scu[h].startFails then
    let s2 := s1.modPower (fun p => { p with placed := p.placed.set h false })
    raiseHda h 0 (s2.modScu h (fun u => { u with tryWait := false }))
  else s1.modScu h (fun u => { u with tryWait := true })

/-- START_FAILURE (R137, R138): no observer lock by 2 × HANDOVER, or omega reverses in OPENLOOP. -/
def execStartFailure (h : Hda) (s : State) : Host.Outcome State Fault Refusal :=
  .next (refreshUst (let u := s.scu[h]
    if u.state = .openloop ∧
      ((!u.obsLock ∧ openReached s.cfg.spin[h] u.olPeriods (2 * s.cfg.spin[h].handover)) ∨ u.obsSpeed < 0)
    then startFailed h s else s))

/-- START_RETRY_WAIT_END (R138). While PG_MBUS is low the SCU stays in COAST (R146, R364). -/
def execStartRetryWaitEnd (h : Hda) (s : State) : Host.Outcome State Fault Refusal :=
  .next (refreshUst (if s.scu[h].state = .coast ∧ s.scu[h].tryWait then
    let s1 := s.modScu h (fun u => { u with tryWait := false })
    if s.power.mbusHi then enterDetect h s1 else s1
  else s))

/-- ZVBRAKE_STILL_END (R137, R141): the back-EMF is below BEMF_MIN and STILL_T has passed. -/
def execZvbrakeStillEnd (h : Hda) (s : State) : Host.Outcome State Fault Refusal :=
  .next (refreshUst (if s.scu[h].state = .zvbrake ∧ s.scu[h].shortLow = true then
    match s.scu[h].afterZv with
    | .align => takePlace h s
    | .stop => driveSpeedWires h (setScuState h .stopped .off s)
    | .stopThenRun => enterDetect h (s.modScu h (fun u => { u with tries := 0, startFails := 0 }))
    else s))

/-- BRAKE_TIMEOUT (R137): a ZVBRAKE before a start in which the back-EMF has not fallen below BEMF_MIN in time fails the start. -/
def execBrakeTimeout (h : Hda) (s : State) : Host.Outcome State Fault Refusal :=
  .next (refreshUst (if s.scu[h].state = .zvbrake ∧ s.scu[h].afterZv = .align ∧ s.scu[h].shortLow = false then startFailed h s else s))

/-! ### Commands through SCU[h]_CTRL (R133, R134, R141, R395) -/

/-- CTRL.CMD is taken in Maintenance of the HDA only (R395), in an Operator session. -/
def State.cmdAllowed (s : State) (n : Fin 4) (h : Hda) : Bool :=
  s.scuWritable n h .operator && s.getF (Reg.UST_HDA h) Fld.UST_HDA_ADM == 3

/-- SCU_RUN (R134). No spindle is started while PG_MBUS is low (R364). -/
def execScuRun (n : Fin 4) (h : Hda) (s : State) : Host.Outcome State Fault Refusal :=
  .next (refreshUst (if s.cmdAllowed n h && s.power.mbusHi then scuRun h s else s))

/-- SCU_STOP (R141). -/
def execScuStop (n : Fin 4) (h : Hda) (s : State) : Host.Outcome State Fault Refusal :=
  .next (refreshUst (if s.cmdAllowed n h then scuStop h s else s))

/-- A coast command (R141): gates off, COAST; HALTED is not left this way (R145). -/
def scuCoastCmd (h : Hda) (s : State) : State :=
  if s.scu[h].state = .halted then s else scuCoast h (s.modScu h (fun u => { u with tryWait := false, coastToZv := false }))

/-- SCU_COAST (R141). -/
def execScuCoast (n : Fin 4) (h : Hda) (s : State) : Host.Outcome State Fault Refusal :=
  .next (refreshUst (if s.cmdAllowed n h then scuCoastCmd h s else s))

/-- A new TARGET (R133): from 3,600 rpm to SPD_MAX; in RUN the SCU returns to ACCEL. -/
def writeTarget (h : Hda) (v : Nat) (s : State) : State :=
  if v < 3600 ∨ s.cfg.spin[h].spdMax < v then s
  else
    let s1 := s.setF (Reg.SCU_CTRL h) Fld.SCU_CTRL_TARGET v
    if s1.scu[h].state = .run ∧ s.target16 h ≠ 16 * v then driveSpeedWires h (setScuState h .accel .on s1) else s1

/-- SCU_TARGET_WRITE (R133, R385): a Keeper session. -/
def execScuTargetWrite (n : Fin 4) (h : Hda) (w : Word) (s : State) : Host.Outcome State Fault Refusal :=
  .next (if s.scuWritable n h .keeper then writeTarget h (Fld.SCU_CTRL_TARGET.get w) s else s)

/-- BUSHOLD_END (R148): both actuators down. -/
def execBusholdEnd (h : Hda) (s : State) : Host.Outcome State Fault Refusal :=
  .next (if s.scu[h].state = .bushold ∧ s.bothDown h then scuCoast h s else s)

end Sys2Proof.Machine
end

