-- ==== Sys2Proof/Machine/Channel.lean ====
section
/-! DEFINITION. The commands of chapters 2 to 4: sector boundaries, framing, in-line and retry decoding, warp marks and
lock, the preamplifier link. -/

namespace Sys2Proof.Machine

/-! ### Settings per head and zone -/

/-- The key of a head's entry in a recording zone, in the skew table and the precompensation window. -/
def headZone (s z : Nat) : Nat := s * 64 + z

/-- Angular slot start on a track: slot n begins at stream byte n × 4,626 (R35). -/
def slotStart (n : Nat) : Nat := n * 4626

/-- Payload bytes of a frame, slots of a track, unwritten bytes (R21, R36). -/
def framePayload (z : ZoneCfg) : Nat := z.fz - z.sv - 12
def slotsPerTrack (w : Nat) (z : ZoneCfg) : Nat := w * framePayload z / 4626

/-- The i-th slot in logical order on cylinder c (R37). -/
def logicalSlot (z : ZoneCfg) (c i : Nat) : Nat := (i + c * z.kz) % z.nz

/-- A slot is split when its bytes run past the end of its first frame's payload (R35). -/
def slotSplit (z : ZoneCfg) (n : Nat) : Bool := slotStart n / framePayload z != (slotStart n + 4625) / framePayload z

def zoneCfg (s : State) (a : Act) (z : Nat) : Option ZoneCfg := s.cfg.acts[a].zones[z]?

/-- The skew entry of head s in zone z, and its VALID bit (R27). -/
def Chan.skewOf (c : Chan) (hd z : Nat) : Word := sget 0#32 c.skew (headZone hd z)
def skewValid (w : Word) : Bool := Fld.ACU_SKEW_DATA_VALID.get w == 1
def skewRadial (w : Word) : Int := signed 8 (Fld.ACU_SKEW_DATA_RADIAL.get w)

/-! ### Marks (R73 to R82) -/

/-- The offset of the first window position: −⌊WIN/2⌋ (R74). -/
def firstOffset (win : Nat) : Int := -((win / 2 : Nat) : Int)

/-- The 48 mark bits of R30 in the order of R31. -/
def markBits : List Bool := bitsOfBytes [0x4E#8, 0x2F#8, 0xB1#8, 0x96#8, 0x3A#8, 0xD5#8]

/-- D(p) (R75): the Hamming distance of the decisions (R73: 1 when the ratio is negative) at sector bits 64 + p to 111 + p from the mark; none
while they have not all been received. `llrs` holds the detector's ratios from sector bit 0 on. -/
def markDist (llrs : List Int) (p : Int) : Option Nat :=
  let w := (llrs.drop (64 + p).toNat).take 48
  if w.length = 48 then some ((w.zip markBits).countP (fun e => decide (e.1 < 0) != e.2)) else none

/-- The qualifying offsets of a window with their distances, in ascending order (R75). -/
def qualifying (win thr : Nat) (llrs : List Int) : List (Int × Nat) :=
  (List.range win).filterMap (fun (i : Nat) =>
    let p := firstOffset win + (i : Int)
    match markDist llrs p with
    | some d => if d ≤ thr then some (p, d) else none
    | none => none)

/-- The order of BEST (R77): lower distance, then lower |p|, then the positive one. -/
def bestBefore (x y : Int × Nat) : Bool :=
  decide (x.2 < y.2) || (x.2 == y.2 && (decide (x.1.natAbs < y.1.natAbs) || (x.1.natAbs == y.1.natAbs && decide (y.1 < x.1))))

def insertBest (x : Int × Nat) : List (Int × Nat) → List (Int × Nat)
  | [] => [x]
  | y :: t => if bestBefore x y then x :: y :: t else y :: insertBest x t

def sortBest : List (Int × Nat) → List (Int × Nat)
  | [] => []
  | x :: t => insertBest x (sortBest t)

/-- The candidate record of a window (R78). -/
def candRecord (best : Bool) (q : List (Int × Nat)) : CandRecord :=
  let o := if best then sortBest q else q
  { cands := (o.take 4).map (·.1), best := best, overflow := decide (4 < q.length) }

/-- The 32 bits of a candidate record (R78). -/
def CandRecord.bits (r : CandRecord) : Nat :=
  let c (i : Nat) : Nat := match r.cands[i]? with | some p => twos 5 p | none => 0
  c 0 + 2 ^ 5 * c 1 + 2 ^ 10 * c 2 + 2 ^ 15 * c 3 + 2 ^ 20 * r.cands.length + 2 ^ 23 * b2n r.best + 2 ^ 24 * b2n r.overflow

/-- Add an offset to a re-framing list unless it is in it, or the list holds five. -/
def addOffset (step : Nat) (l : List (Int × Nat)) (p : Int) : List (Int × Nat) :=
  if l.length < 5 && !l.any (fun e => e.1 == p) then l ++ [(p, step)] else l

/-- The re-framing list of R82, each offset with the step at which it entered. -/
def reframeList (p0 : Int) (r : CandRecord) : List (Int × Nat) :=
  let l1 := (r.cands.filter (· != p0)).foldl (addOffset 1) []
  let l2 := if p0 = 0 then l1 else addOffset 2 l1 0
  let l3 := addOffset 3 l2 p0
  [-1, 1, -2, 2, -3, 3, -4, 4].foldl (addOffset 4) l3

/-! ### Mirrors and outcomes (R9, R85, R86) -/

/-- FR_LAST of an outcome that has become final: SEL_OFS and SEL_DIST are those of the in-line cut. -/
def frLast (outcome : Nat) (k : ReedSlot) (listIdx : Nat) : Word :=
  BitVec.ofNat 32 (outcome + 2 ^ 3 * k.record.cands.length + 2 ^ 6 * twos 5 k.framedAt + 2 ^ 11 * k.framedDist + 2 ^ 17 * listIdx
    + 2 ^ 20 * b2n k.record.best + 2 ^ 21 * b2n k.record.overflow + 2 ^ 23 * (k.slot % 512))

/-- An outcome becomes final. -/
def finish (a : Act) (w : Word) (s : State) : State := s.modChan a (fun c => { c with finalOutcome := w })

/-- The channel and framer mirrors refresh at a sector boundary (R9). -/
def refreshChanMirrors (a : Act) (s : State) : State :=
  let c := s.chan[a]
  let k := Reg.ACU_CH_STAT a
  let s1 := s.setB k Fld.ACU_CH_STAT_LOCK c.locked
  let s2 := s1.setB k Fld.ACU_CH_STAT_HOLDOVER c.holdover
  let s3 := s2.setB k Fld.ACU_CH_STAT_WRITING c.lastWrite
  let s4 := s3.setB k Fld.ACU_CH_STAT_PA_FAULT c.paFault
  let s5 := s4.setF k Fld.ACU_CH_STAT_HEAD (match c.head with | some x => x.val | none => 15)
  let s6 := s5.setF k Fld.ACU_CH_STAT_RZONE c.zone
  let s7 := s6.setF k Fld.ACU_CH_STAT_AT_BOUND c.atBound.toNat
  let s8 := s7.setF k Fld.ACU_CH_STAT_LAST_ITER c.lastIter
  let s9 := s8.setReg (Reg.ACU_FR_LAST a) c.finalOutcome
  s9.modChan a (fun c => { c with skewShown := c.skew })

/-- A sector ends as a revolution retry (R69, R85 code 7): its slot is read again on a later revolution. -/
def revolutionRetry (a : Act) (k : ReedSlot) (counted : Bool) (s : State) : State :=
  let s1 := s.modChan a (fun c => { c with
    failed := c.failed ++ [⟨k.slot, 7, 7, k.marks⟩], retryReq := c.retryReq.filter (· != k.seq) })
  let s2 := if counted then countChan a 2 (Reg.ACU_CNT_REV a) Fld.ACU_CNT_REV_NOGRANT s1 else s1
  finish a (frLast 7 k 7) s2

/-- A sector is reported unrecoverable (R70, R34). -/
def unrecoverable (a : Act) (k : ReedSlot) (s : State) : State :=
  let s1 := s.modChan a (fun c => { c with failed := c.failed ++ [⟨k.slot, 6, 6, k.marks⟩] })
  finish a (frLast 6 k 7) (countChan a 2 (Reg.ACU_CNT_REV a) Fld.ACU_CNT_REV_UNREC s1)

/-! ### The sector boundary (R9, R13, R28, R57, R60, R61, R68, R72, R84, R87, R88, R89, R221, R406, R440) -/

/-- The samples of a newly framed slot push out those of the slot two before (R68); a request that was not granted by then is
a revolution retry (R69). -/
def storeSamples (a : Act) (k : ReedSlot) (s : State) : State :=
  let c := s.chan[a]
  let out := if 2 ≤ c.reed.length then c.reed.take (c.reed.length - 1) else []
  let s1 := s.modChan a (fun c => { c with reed := c.reed.drop out.length ++ [k] })
  out.foldl (fun s o => if s.chan[a].retryReq.contains o.seq then revolutionRetry a o true s else s) s1

/-- The calibrated front-end values of a head in a zone (R61, R72). -/
def State.calFront (s : State) (a : Act) (hd z : Nat) : FrontEnd :=
  match s.cfg.heads[a].find? (fun e => e.head == hd && e.zone == z) with
  | some e => e.front
  | none => frontNone

/-- The calibrated values for the active head and zone of channel a. -/
def State.calNow (s : State) (a : Act) : FrontEnd :=
  match s.chan[a].head with
  | some hd => s.calFront a hd.val s.chan[a].zone
  | none => frontNone

/-- One step of a loop, which holds at the ends of its range: the value, and whether the update was held. -/
def stepIn (lo hi v d : Int) : Int × Bool := if v + d < lo ∨ hi < v + d then (v, true) else (v + d, false)

def upDown (up : Bool) : Int := if up then 1 else -1

/-- One update of R60 from the calibrated values `cal`: the values after it, its loop's bit of AT_BOUND (in the row order of R60), whether the loop
stands at a bound after it, and whether it was held there. -/
def adaptUpdate (cal v : FrontEnd) : AdaptUpdate → FrontEnd × Nat × Bool × Bool
  | .gain up =>
    let r := stepIn 0 640 v.gain (upDown up)
    ({ v with gain := r.1.toNat }, 0, r.1 == 0 || r.1 == 640, r.2)
  | .baseline up =>
    let r := stepIn (-256) 256 v.baseline (upDown up)
    ({ v with baseline := r.1 }, 1, r.1.natAbs == 256, r.2)
  | .asym up =>
    let r := stepIn 192 320 v.asym (upDown up)
    ({ v with asym := r.1.toNat }, 2, r.1 == 192 || r.1 == 320, r.2)
  | .fir signs =>
    let r := (List.range v.fir.length).map (fun i =>
      let c := cal.fir.getD i 0
      let x := stepIn (c - 512) (c + 512) (v.fir.getD i 0) (signs.getD i 0).sign
      (x.1, (x.1 - c).natAbs == 512, x.2))
    ({ v with fir := r.map (·.1) }, 3, r.any (·.2.1), r.any (·.2.2))
  | .timing up =>
    let r := stepIn (-4) 4 v.timing (upDown up)
    ({ v with timing := r.1 }, 4, r.1.natAbs == 4, r.2)

/-- The updates of a sector in order: values, AT_BOUND, and how many updates were held (R60). -/
def adaptRun (cal : FrontEnd) : List AdaptUpdate → FrontEnd → BitVec 5 → FrontEnd × BitVec 5 × Nat
  | [], v, b => (v, b, 0)
  | u :: t, v, b =>
    let r := adaptUpdate cal v u
    let b' := if r.2.2.1 then b ||| (1#5 <<< r.2.1) else b &&& ~~~(1#5 <<< r.2.1)
    let rest := adaptRun cal t r.1 b'
    (rest.1, rest.2.1, rest.2.2 + b2n r.2.2.2)

/-- The adaptation of channel a over a read sector (R60). -/
def adaptSector (a : Act) (l : List AdaptUpdate) (s : State) : State :=
  let c := s.chan[a]
  let r := adaptRun (s.calNow a) l c.adapt c.atBound
  (s.modChan a (fun c => { c with adapt := r.1, atBound := r.2.1 })).addF (Reg.ACU_CNT_ADAPT a) Fld.ACU_CNT_ADAPT_COUNT r.2.2

/-- The slot that the Reed buffer holds for a sector in progress. -/
def reedOf (r : SectorRun) (adapted calibrated : FrontEnd) (samples : List (BitVec 6)) : ReedSlot :=
  let sel := r.selected.getD (0, 0x3F)
  { seq := r.seq, slot := r.slot, zone := r.zone, iterMax := r.iterMax, iterRetry := r.iterRetry, adapted := adapted, calibrated := calibrated
    samples := samples, framedAt := sel.1, framedDist := sel.2, record := r.record.getD ⟨[], r.best, false⟩, marks := r.marks }

/-- A written sector ends with its pad: the gate is released and the sector reported (R58, R201). -/
def endWrite (a : Act) (r : SectorRun) (s : State) : State :=
  sectorWritten a r.slot (s.modChan a (fun c => { c with
    gate := false, lastGate := s.now, cur := none, lastWrite := true, adaptCal := true
    stage := c.stage.filter (fun f => f.slot != r.slot)
    pass := c.pass.map (fun p => { p with slots := p.slots.drop 1 }) }))

/-- End the media pass of a channel where it stands. -/
def endPass (a : Act) (s : State) : State := s.modChan a (fun c => { c with pass := none })

/-- A write is cut short: its slot is left part-written and its pass ends there (R55, R57). -/
def cutWrite (a : Act) (r : SectorRun) (s : State) : State :=
  endPass a ((noteEnd a r.slot true s).modChan a (fun c => { c with gate := false, cur := none }))

/-- The sector in progress ends with its pad: a written one is reported, unless its second part was never written; a read one goes to the in-line
decoder with its samples and the front-end values it was read with. -/
def endSector (a : Act) (rd : SectorRead) (s : State) : State :=
  match s.chan[a].cur with
  | none => s
  | some r =>
    if r.write then (if s.chan[a].gate then endWrite a r s else cutWrite a r s)
    else
      s.modChan a (fun c =>
        let k := reedOf r c.adapt (s.calNow a) rd.samples
        { c with
          cur := none, lastWrite := false, decoding := c.decoding ++ [k]
          reed := c.reed.map (fun o => if o.seq = k.seq then k else o) })

/-- Every condition of R57 but the staged field. -/
def State.writeAllowed (s : State) (a : Act) : Bool :=
  let c := s.chan[a]
  match c.head with
  | none => false
  | some hd => c.locked && !c.holdover && decide (2 ≤ c.goodMarks) && skewValid (c.skewOf hd.val c.zone) && !c.paFault && s.acu[a].wrOk

/-- An iteration limit: 0 or a value above the greatest is taken as the greatest. -/
def iterLimit (most n : Nat) : Nat := if n = 0 ∨ most < n then most else n

/-- ITER_MAX and ITER_MAX_RETRY of a recording zone (R66, R70, R72). -/
def State.iterMax (s : State) (a : Act) (z : Nat) : Nat := iterLimit 16 (s.getF (bank z (Reg.ACU_CH_CTRL a)) Fld.ACU_CH_CTRL_ITER_MAX)
def State.iterRetry (s : State) (a : Act) (z : Nat) : Nat := iterLimit 64 (s.getF (bank z (Reg.ACU_CH_CTRL a)) Fld.ACU_CH_CTRL_ITER_MAX_RETRY)

/-- The settings latched at a preamble (R28, R72, R87). -/
def latch (a : Act) (slot : Nat) (write : Bool) (s : State) : SectorRun :=
  let c := s.chan[a]
  let hd := match c.head with | some x => x.val | none => 15
  let fr := s.reg (bank c.zone (Reg.ACU_FR_CFG a))
  { seq := c.nextSeq, slot := slot, write := write, zone := c.zone, iterMax := s.iterMax a c.zone, iterRetry := s.iterRetry a c.zone, part := 0
    skew := c.skewOf hd c.zone
    precomp := s.reg (bank (headZone hd c.zone) (Reg.ACU_PRECOMP_DATA a))
    best := Fld.ACU_FR_CFG_MODE.get fr == 1, win := max 2 (min 24 (Fld.ACU_FR_CFG_WIN.get fr)), thr := min 12 (Fld.ACU_FR_CFG_THR.get fr)
    selected := none, record := none, marks := ⟨false, false, c.holdover⟩ }

/-- The parts of a slot on its track: the stream's bytes in the payloads of their frames, with the resume field where a payload begins and the
tail where one ends (R21, R22, R35, R36, R58), shifted by ANGLE (R27, R56). -/
def layout (z : ZoneCfg) (angle : Int) (n : Nat) (l : List Byte) : List FrameBytes :=
  let p := framePayload z
  let f := slotStart n / p
  let o := slotStart n % p
  let part (f o : Nat) (l : List Byte) : FrameBytes :=
    ⟨f, 64 * ((if o = 0 then z.sv else z.sv + 8 + o : Nat) : Int) + angle,
      (if o = 0 then List.replicate 8 0xCC#8 else []) ++ l ++ (if o + l.length = p then List.replicate 4 0xCC#8 else [])⟩
  part f o (l.take (p - o)) :: (if (l.drop (p - o)).isEmpty then [] else [part (f + 1) 0 (l.drop (p - o))])

/-- Write precompensation (R59), bit by bit in recording order (R31): `t1` and `t2` say whether the cell before and the one before that held a
transition. The cells before the first bit hold none (log entry 43). -/
def precompDelays (pc : Nat × Nat × Nat) : Bool → Bool → Bool → List Bool → List Nat
  | _, _, _, [] => []
  | last, t1, t2, b :: rest =>
    let t := b != last
    (if t && t1 && t2 then pc.2.2 else if t && t1 then pc.1 else if t && t2 then pc.2.1 else 0) :: precompDelays pc b t t1 rest

/-- What the write path puts on the medium for a slot, with the settings latched for it (R28, R57 to R59). -/
def putOnTrack (z : Option ZoneCfg) (r : SectorRun) (l : List Byte) : Written :=
  let parts := match z with | some z => layout z (signed 16 (Fld.ACU_SKEW_DATA_ANGLE.get r.skew)) (r.slot % 2048) l | none => []
  let pc := (Fld.ACU_PRECOMP_DATA_PC1.get r.precomp, Fld.ACU_PRECOMP_DATA_PC2.get r.precomp, Fld.ACU_PRECOMP_DATA_PC3.get r.precomp)
  ⟨r.slot, parts, parts.map (fun q => let b := bitsOfBytes q.bytes; precompDelays pc (b.headD false) false false b)⟩

/-- A write slot comes up (R13, R57): the gate is asserted when every condition holds; otherwise the pass ends there. A staged
field without bytes stands for the overwrite of R298. -/
def startWrite (a : Act) (slot : Nat) (s : State) : State :=
  let c := s.chan[a]
  let field := c.stage.find? (fun f => f.slot == slot && f.complete)
  match field with
  | none => endPass a (noteEnd a slot false (s.incF (Reg.ACU_CNT_STARVE a) Fld.ACU_CNT_STARVE_WRITE))
  | some f =>
    if s.writeAllowed a && c.writing && s.seqOk (framerStore a) then
      let r := latch a slot true s
      s.modChan a (fun c => { c with
        gate := true, lastGate := s.now, cur := some r, nextSeq := c.nextSeq + 1
        written := some (putOnTrack (zoneCfg s a c.zone) r (if f.field.isEmpty then List.replicate 4626 0xCC#8 else sectorBytes f.field)) })
    else endPass a (noteEnd a slot false s)

/-- A read slot comes up (R13, R89): framed unless the output buffer is full, which defers it and the rest of the transfer, or
framing is held. -/
def startRead (a : Act) (slot : Nat) (s : State) : State :=
  let c := s.chan[a]
  if 2 ≤ c.out.length then endPass a (s.incF (Reg.ACU_CNT_STARVE a) Fld.ACU_CNT_STARVE_READ)
  else if !c.locked || c.framingHeld || c.paHeld || c.gate || c.writing || c.head.isNone || !s.seqOk (framerStore a) then s
  else
    let r := latch a slot false s
    let s1 := if c.adaptCal then s.modChan a (fun c => { c with adapt := s.calNow a, atBound := 0#5 }) else s
    storeSamples a (reedOf r s1.chan[a].adapt (s.calNow a) []) (s1.modChan a (fun c => { c with
      cur := some r, adaptCal := false, nextSeq := c.nextSeq + 1
      pass := c.pass.map (fun p => { p with slots := p.slots.filter (· != slot) }) }))

/-- Whether a pass takes a slot that comes up: a write pass, and a read pass that has not begun its track, take the first slot they name; a read
pass that has begun takes any slot left to it (R88, R221). -/
def ChanPass.takes (p : ChanPass) (tag : Nat) : Bool :=
  if p.write || !p.begun then p.slots.head? == some tag else p.slots.contains tag

/-- The first slot of a pass comes up: where it comes half a revolution or more after the time the access cost gave it, its settle was late and
the pass begins one passage later (R221; log entry 45). -/
def noteBegin (a : Act) (s : State) : State :=
  match s.sch[a].pass, s.chan[a].pass with
  | some p, some q =>
    let rev : Rat := s.frameNs a * (s.cfg.spin[hdaOf a].wedges : Rat)
    let late : Rat := ((1000 * s.now : Nat) : Rat) - ((1000 * p.at_ + p.access : Nat) : Rat)
    let s1 := s.modChan a (fun c => { c with pass := some { q with begun := true } })
    if q.begun || p.track ≠ 0 || decide (2 * late < rev) || decide (rev = 0) then s1 else s1.incF (Reg.SCH_ACT_CNT a) Fld.SCH_ACT_CNT_ROT_MISS
  | _, _ => s

/-- SECTOR_BOUNDARY (R9): the last sector ends and its adaptation settles (R60, R61), mirrors refresh, what was written at run time takes
effect (R72), and the slot that begins is written, framed or left. -/
def sectorBoundary (a : Act) (slot : Nat) (rd : SectorRead) (s : State) : State :=
  if !s.chan[a].clocked then s else
  let freeze := s.bitF (Reg.ACU_CH_CTRL a) Fld.ACU_CH_CTRL_ADAPT_FREEZE && s.acu[a].calWin.isNone
  let read := match s.chan[a].cur with | some r => !r.write | none => false
  let s1 := if read && !freeze then adaptSector a rd.updates s else s
  let s2 := endSector a rd s1
  let s3 := refreshChanMirrors a (s2.modChan a (fun c => { c with
    adaptCal := c.adaptCal || c.adaptReset || freeze, adaptReset := false
    retryEn := s.bitF (Reg.ACU_CH_CTRL a) Fld.ACU_CH_CTRL_RETRY_EN }))
  let c := s3.chan[a]
  if c.link != .free || c.settling || !c.due.isEmpty then s3
  else match c.pass with
    | none => s3
    | some p =>
      let tag := p.track * 2048 + slot
      if p.takes tag then (let s4 := noteBegin a s3; if p.write then startWrite a tag s4 else startRead a tag s4) else s3

/-- The track of a pass has run out and the pass goes on to another: the seek is commanded. -/
def nextTrack (a : Act) (s : State) : State :=
  match s.sch[a].pass, s.chan[a].pass with
  | some p, some q =>
    match p.tracks[p.track + 1]? with
    | none => s
    | some t =>
      if !p.onTrack || !q.slots.isEmpty || s.chan[a].cur.isSome then s
      else
        let s1 := s.modSch a (fun h => { h with pass := some { p with track := p.track + 1, onTrack := false } })
        sendSeek a ⟨t.1, Fin.ofNat 15 p.head, if p.write then .write else .read⟩ (s1.modChan a (fun c => { c with pass := none }))
  | _, _ => s

/-! ### Framing (R76 to R80, R84, R440) -/

/-- FRAMER_MARK_FIRST (R76): in mode FIRST the lowest qualifying offset is selected as its distance becomes known. -/
def framerMarkFirst (a : Act) (llrs : List Int) (s : State) : State :=
  match s.chan[a].cur with
  | some r =>
    if r.write || r.best || r.selected.isSome || r.record.isSome then s
    else match qualifying r.win r.thr llrs with
      | [] => s
      | q :: _ => s.modChan a (fun c => { c with cur := some { r with selected := some q } })
  | none => s

def execFramerMarkFirst (a : Act) (llrs : List Int) (s : State) : Host.Outcome State Fault Refusal :=
  .next (framerMarkFirst a llrs s)

/-- FRAMER_WINDOW_CLOSE (R77 to R80, R85): the record is written; BEST selects; with no mark the sector is framed at T. -/
def framerWindowClose (a : Act) (llrs : List Int) (s : State) : State :=
  match s.chan[a].cur with
  | some r =>
    if r.write || r.record.isSome then s
    else
      let q := qualifying r.win r.thr llrs
      let rc := candRecord r.best q
      let sel := r.selected.getD ((if r.best then sortBest q else q).headD (0, 0x3F))
      let s1 := s.modChan a (fun c => { c with cur := some { r with selected := some sel, record := some rc } })
      let s2 := if q.isEmpty then countChan a 3 (Reg.ACU_CNT_FR_NOMARK a) Fld.ACU_CNT_FR_NOMARK_COUNT s1 else s1
      let s3 := if 1 < q.length then s2.incF (Reg.ACU_CNT_FR_MULTI a) Fld.ACU_CNT_FR_MULTI_MULTI else s2
      if rc.overflow then s3.incF (Reg.ACU_CNT_FR_MULTI a) Fld.ACU_CNT_FR_MULTI_OVERFLOW else s3
  | none => s

def execFramerWindowClose (a : Act) (llrs : List Int) (s : State) : Host.Outcome State Fault Refusal :=
  .next (framerWindowClose a llrs s)

/-! ### Decoding (R66 to R71, R82 to R85) -/

/-- What an attempt comes to (R66, R67, R34): decoded, malformed, miscorrected, or checks unsatisfied within the iteration limit. -/
inductive Verdict | decoded | malformed | miscorrected | failed
  deriving DecidableEq, Repr

def verdict (limit : Nat) (r : DecodeResult) : Verdict :=
  if !r.checksOk || decide (limit < r.iterations) then .failed
  else if !fieldCrcOk r.field then .miscorrected
  else if malformed r.field then .malformed
  else .decoded

/-- A sector that failed in line asks for a retry decoder, or is a revolution retry with RETRY_EN 0 (R69, R82). -/
def askRetry (a : Act) (k : ReedSlot) (s : State) : State :=
  if s.chan[a].retryEn then
    let s1 := s.incF (Reg.ACU_CNT_RETRY a) Fld.ACU_CNT_RETRY_COUNT
    if s1.chan[a].reed.any (fun o => o.seq == k.seq) then
      s1.modChan a (fun c => { c with retryReq := c.retryReq ++ [k.seq] })
    else revolutionRetry a k true s1
  else revolutionRetry a k false s

/-- What the in-line decoder makes of a sector from the ratios of its detector (R66, R80). -/
def ReedSlot.decode (k : ReedSlot) (llrs : List Int) : DecodeResult := ldpcDecode k.iterMax (cutAt k.framedAt 1 llrs)

/-- INLINE_DECODE_DONE (R66, R67, R85). `llrs` are the detector's ratios from sector bit 0 on. -/
def inlineDecodeDone (a : Act) (llrs : List Int) (s : State) : State :=
  match s.chan[a].decoding with
  | [] => s
  | k :: rest =>
    let s0 := s.modChan a (fun c => { c with decoding := rest })
    let r := k.decode llrs
    match verdict k.iterMax r with
    | .decoded =>
      let outcome := if k.record.cands.isEmpty then 1 else 0
      let s1 := s0.modChan a (fun c => { c with
        out := c.out ++ [⟨k.slot, r.field, outcome, k.marks, false⟩], lastIter := r.iterations - 1 })
      let s2 := countChan a 0 (Reg.ACU_CNT_SECT a) Fld.ACU_CNT_SECT_COUNT s1
      finish a (frLast outcome k 7) (sample 5 a r.iterations s2)
    | .malformed => unrecoverable a k s0
    | .miscorrected => askRetry a k (s0.incF (Reg.ACU_CNT_MISCORR a) Fld.ACU_CNT_MISCORR_COUNT)
    | .failed => askRetry a k s0

def execInlineDecodeDone (a : Act) (llrs : List Int) (s : State) : Host.Outcome State Fault Refusal :=
  .next (inlineDecodeDone a llrs s)

/-- The next requesting actuator in round-robin order after the last one granted (R69). -/
def State.nextRetry (s : State) : Option Act :=
  ((List.range 16).map (fun i => Fin.ofNat 16 (s.retryTurn + 1 + i))).find? (fun a => !s.chan[a].retryReq.isEmpty)

/-- RETRY_DECODER_GRANT (R69): a free decoder, the actuator whose turn it is; samples that are being overwritten make the
sector a revolution retry. -/
def retryGrant (a : Act) (k : Fin 4) (s : State) : State :=
  if s.retry[k].isSome ∨ s.nextRetry ≠ some a then s else
  match s.chan[a].retryReq with
  | [] => s
  | seq :: rest =>
    match s.chan[a].reed.find? (fun o => o.seq == seq) with
    | none => s.modChan a (fun c => { c with retryReq := rest })
    | some o =>
      let j : RetryJob := ⟨a, o, reframeList o.framedAt o.record, false, 0⟩
      let s1 := s.modChan a (fun c => { c with retryReq := rest })
      { s1 with retry := s1.retry.set k (some j), retryTurn := a.val }

def execRetryDecoderGrant (a : Act) (k : Fin 4) (s : State) : Host.Outcome State Fault Refusal := .next (retryGrant a k s)

/-- RETRY_COPY_DONE (R69, R79). -/
def execRetryCopyDone (k : Fin 4) (s : State) : Host.Outcome State Fault Refusal :=
  .next (match s.retry[k] with
    | some j => { s with retry := s.retry.set k (some { j with copied := true }) }
    | none => s)

/-- The outcome code of the step of R82 at which the decoding offset entered (R85). -/
def retryOutcome (step : Nat) : Nat := match step with | 1 => 2 | 2 => 3 | 3 => 4 | _ => 5

/-- Count a retry outcome and the shift of its offset (R85). -/
def countRetry (a : Act) (step : Nat) (p p0 : Int) (s : State) : State :=
  let s1 := match step with
    | 1 => s.incF (Reg.ACU_CNT_FR_ALT a) Fld.ACU_CNT_FR_ALT_CAND
    | 2 => s.incF (Reg.ACU_CNT_FR_ALT a) Fld.ACU_CNT_FR_ALT_CLOCK
    | 3 => s.incF (Reg.ACU_CNT_FR_NEAR a) Fld.ACU_CNT_FR_NEAR_SAME
    | _ => s.incF (Reg.ACU_CNT_FR_NEAR a) Fld.ACU_CNT_FR_NEAR_NEAR
  if p0 < p then s1.incF (Reg.ACU_CNT_FR_SHIFT a) Fld.ACU_CNT_FR_SHIFT_EARLY
  else if p < p0 then s1.incF (Reg.ACU_CNT_FR_SHIFT a) Fld.ACU_CNT_FR_SHIFT_LATE
  else s1

/-- The offset of the attempt in hand, with the step at which it entered the list (R82, R83). -/
def RetryJob.offset (j : RetryJob) : Int × Nat := j.offsets.getD (j.attempts % 5) (0, 4)

/-- The front-end values that the attempt in hand starts from: the adapted ones in the first pass, the calibrated ones in the second (R70). -/
def RetryJob.front (j : RetryJob) : FrontEnd := if j.attempts < 5 then j.slot.adapted else j.slot.calibrated

/-- What an attempt makes of the ratios that it re-detected from the samples with `front`: the cut at its offset, scaled by 0.75 in the second pass
(R70, R83). -/
def RetryJob.decode (j : RetryJob) (llrs : List Int) : DecodeResult :=
  ldpcDecode j.slot.iterRetry (cutAt j.offset.1 (if j.attempts < 5 then 1 else 3 / 4) llrs)

/-- RETRY_ATTEMPT_DONE (R70, R83, R85): decoded and handed on, malformed, or on to the next of ten attempts. `llrs` are the ratios that the
decoder's detector gave from sector bit 0 on. -/
def retryAttemptDone (k : Fin 4) (llrs : List Int) (s : State) : State :=
  match s.retry[k] with
  | none => s
  | some j =>
    if !j.copied then s else
    let a := j.act
    let o := j.offset
    let r := j.decode llrs
    let freed := { s with retry := s.retry.set k none }
    let onward (s : State) : State :=
      if j.attempts + 1 < 10 then { s with retry := s.retry.set k (some { j with attempts := j.attempts + 1 }) }
      else unrecoverable a j.slot { s with retry := s.retry.set k none }
    match verdict j.slot.iterRetry r with
    | .decoded =>
      let out := retryOutcome o.2
      let s1 := freed.modChan a (fun c => { c with out := c.out ++ [⟨j.slot.slot, r.field, out, j.slot.marks, decide (5 ≤ j.attempts)⟩] })
      let s2 := countChan a 1 (Reg.ACU_CNT_RETRY_OK a) Fld.ACU_CNT_RETRY_OK_COUNT s1
      let s3 := countRetry a o.2 o.1 j.slot.framedAt s2
      finish a (frLast out j.slot (j.attempts % 5)) (sample 6 a (j.attempts + 1 : Nat) s3)
    | .malformed => unrecoverable a j.slot freed
    | .miscorrected => onward (s.incF (Reg.ACU_CNT_MISCORR a) Fld.ACU_CNT_MISCORR_COUNT)
    | .failed => onward s

def execRetryAttemptDone (k : Fin 4) (llrs : List Int) (s : State) : Host.Outcome State Fault Refusal :=
  .next (retryAttemptDone k llrs s)

/-! ### Warp marks and lock (R51 to R55, R132) -/

/-- Bits lo to lo + n − 1 of a mark's symbols, least significant first (R25). -/
def symField (w : BitVec 32) (lo n : Nat) : Nat := w.toNat / 2 ^ lo % 2 ^ n

/-- Symbols 0 to 7 that differ from the prefix 1, 1, 1, 0, 0, 1, 0, 0 (R25). -/
def prefixErrors (m : WarpMark) : Nat :=
  ([true, true, true, false, false, true, false, false].zipIdx).countP (fun e => m.symbols.getLsbD e.2 != e.1)
/-- The frame number of symbols 8 to 17, the Gray code of symbols 18 to 29, the end symbol 31 (R25). -/
def markFrame (m : WarpMark) : Nat := symField m.symbols 8 10
def markGray (m : WarpMark) : Nat := symField m.symbols 18 12
def endSymbol (m : WarpMark) : Bool := m.symbols.getLsbD 31
/-- Symbols 8 to 30 hold an even number of 1s (R25). -/
def parityEven (m : WarpMark) : Bool := evenOnes 23 (symField m.symbols 8 23)

/-- The outcomes of R52. -/
inductive MarkOutcome | good | missing | badpar | slip | offtrack
  deriving DecidableEq, Repr

/-- Judge a warp mark against the frame counter and the expected warp cylinder, in the order of R52. -/
def judgeMark (m : WarpMark) (frame expectedCyl : Nat) : MarkOutcome :=
  let code := grayDecode (markGray m) % 4096
  let d := (code + 4096 - expectedCyl % 4096) % 4096
  if 1 < prefixErrors m then .missing
  else if endSymbol m || !parityEven m then .badpar
  else if markFrame m ≠ frame then .slip
  else if d = 0 ∨ d = 1 ∨ d = 4095 then .good
  else .offtrack

/-- The loop's constants (R51): bandwidth 1/400 of the warp frequency, damping factor 0.8. -/
def pllBandwidth : Rat := 1 / 400
def pllDamping : Rat := 4 / 5

/-- One warp cycle of the PLL (R51, R54): the detector multiplies the phase error by the decided polarity; the second-order loop steers phase and
integrator by it; and the runs of cycles within ±1/16 and beyond ±1/8 go on or end. -/
def WarpPll.cycle (p : WarpPll) (c : WarpCycle) : WarpPll :=
  let e : Rat := c.error * (if c.inverted then -1 else 1)
  let wn := Config.pllNatural pllBandwidth
  let run := if ratAbs e ≤ 1 / 16 then min 64 (p.tolRun + 1) else 0
  { phase := p.phase + p.freq + 2 * pllDamping * wn * e, freq := p.freq + wn * wn * e, tolRun := run
    tolMet := p.tolMet || run == 64, lockMarks := p.lockMarks, badRun := if 1 / 8 < ratAbs e then min 256 (p.badRun + 1) else 0 }

/-- The cycles since the last mark (R51). -/
def pllCycles (a : Act) (l : List WarpCycle) (s : State) : State :=
  s.modChan a (fun c => { c with pll := l.foldl WarpPll.cycle c.pll })

/-- A frame with no GOOD mark: the last two marks are no longer GOOD, so a write in progress is cut (R54, R57). -/
def noGood (a : Act) (s : State) : State :=
  releaseGate a (s.modChan a (fun c => { c with goodMarks := 0, badFrames := c.badFrames + 1, pll := { c.pll with lockMarks := 0 } }))

/-- A GOOD mark (R52, R54, R57, R88). -/
def goodMark (a : Act) (s : State) : State :=
  s.modChan a (fun c => { c with
    goodMarks := min 2 (c.goodMarks + 1), badFrames := 0, framingHeld := false, slipFrame := none
    pll := { c.pll with lockMarks := if c.pll.tolMet then min 2 (c.pll.lockMarks + 1) else 0 } })

/-- A frame begins under the heads (R22, R35, R58): a written sector that lies within the frame before has ended with its pad; one that is split has
its gate released over the servo span. -/
def frameEdge (a : Act) (s : State) : State :=
  match s.chan[a].cur with
  | none => s
  | some r =>
    let split := match zoneCfg s a r.zone with | some z => slotSplit z (r.slot % 2048) | none => false
    if split then
      if r.part = 0 then s.modChan a (fun c => { c with gate := false, cur := some { r with part := 1 } }) else s
    else if r.write && s.chan[a].gate then endWrite a r s
    else s

/-- The resume field of a split sector's second part (R57): the gate is asserted again when every condition still holds; otherwise the slot is left
part-written. A read goes on. -/
def resumeSector (a : Act) (s : State) : State :=
  match s.chan[a].cur with
  | none => s
  | some r =>
    if r.part ≠ 1 then s
    else if !r.write then s.modChan a (fun c => { c with cur := some { r with part := 2 } })
    else if s.writeAllowed a && s.chan[a].writing && s.seqOk (framerStore a) then
      s.modChan a (fun c => { c with gate := true, lastGate := s.now, cur := some { r with part := 2 } })
    else cutWrite a r s

/-- A SLIP or OFFTRACK (R53, R88, R109 bit 7): the gate is released and a write's pass ends, a read sector in progress is marked
WARPERR, framing waits for a GOOD mark, and the ACU withdraws the permit until the next wedge. -/
def positionDoubt (a : Act) (s : State) : State :=
  let s1 := releaseGate a s
  let s2 := s1.modChan a (fun c => { c with
    framingHeld := true
    pass := match c.pass with | some p => if p.write then none else some p | none => none
    cur := c.cur.map (fun r => { r with marks := { r.marks with warpErr := true } }) })
  s2.carry (.acuChan a false) .doubt (warpDoubt a)

/-- The warp cylinder the head is expected over: the servo's cylinder plus RADIAL of the active head's entry (R27, R52). -/
def State.warpCyl (s : State) (a : Act) : Nat :=
  let c := s.chan[a]
  let rad := match c.head with | some hd => skewRadial (c.skewOf hd.val c.zone) | none => 0
  (s.acu[a].posCyl + rad + 4194304).toNat % 4194304

/-- The SCU is told the lock state (R12), at each change and at each index. -/
def tellLock (a : Act) (s : State) : State := s.send (.chanScu a) (.lock s.chan[a].locked)

/-- A mark is judged (R52, R53). The frame counter has advanced. -/
def markOutcome (a : Act) (m : WarpMark) (frame w : Nat) (s : State) : State :=
  let s0 := s.modChan a (fun c => { c with slipFrame := none })
  match judgeMark m frame (s.warpCyl a) with
  | .missing => noGood a s0
  | .badpar => noGood a (s0.incF (Reg.ACU_CNT_WARP a) Fld.ACU_CNT_WARP_BADMARK)
  | .good =>
    let s1 := goodMark a s
    if frame = 0 then (tellLock a s1).send (.chanScu a) (.index m.count) else s1
  | .offtrack => positionDoubt a (noGood a (s0.incF (Reg.ACU_CNT_WARP a) Fld.ACU_CNT_WARP_OFFTRK))
  | .slip =>
    let agree : Bool := match s.chan[a].slipFrame with | some f => markFrame m == (f + 1) % w | none => false
    let s1 : State := bif agree then (s0.modChan a (fun c => { c with frame := markFrame m })).incF (Reg.ACU_CNT_WARP a) Fld.ACU_CNT_WARP_SLIP
      else s0.modChan a (fun c => { c with slipFrame := some (markFrame m) })
    positionDoubt a (noGood a s1)

/-- WARP_MARK (R51 to R53): the PLL has tracked the cycles up to the mark; the frame counter advances, on a mark that is MISSING too (log entry 45);
the mark is judged against it; and a split sector goes on once its servo wedge has passed as well. -/
def warpMark (a : Act) (m : WarpMark) (s : State) : State :=
  if !s.chan[a].clocked then s else
  let w := max 1 s.cfg.spin[hdaOf a].wedges
  let frame := (s.chan[a].frame + 1) % w
  let s1 := (frameEdge a (pllCycles a m.cycles s)).modChan a (fun c => { c with frame := frame })
  let s2 := markOutcome a m frame w s1
  if s2.acu[a].wedge = s2.chan[a].frame then resumeSector a s2 else s2

/-- WEDGE_RECORD (R11, R94): the channel reads the servo span and sends its wedge record over the crossing to the ACU. A frame's payload begins under
the permit of the wedge before (R109), so that a split sector goes on first. -/
def wedgeArrives (a : Act) (r : WedgeRead) (s : State) : State :=
  if s.acu[a].clocked then
    let w := readWedge r
    (resumeSector a s).carry (.acuChan a false) (.wedge w) (wedgeRecord a w)
  else s

def execWedgeRecord (a : Act) (r : WedgeRead) (s : State) : Host.Outcome State Fault Refusal := .next (wedgeArrives a r s)

def execWarpMark (a : Act) (m : WarpMark) (s : State) : Host.Outcome State Fault Refusal := .next (warpMark a m s)

/-- The PLL is locked (R54): 64 consecutive cycles within ±1/16, followed by two consecutive GOOD marks. -/
def WarpPll.acquired (p : WarpPll) : Bool := p.tolMet && decide (2 ≤ p.lockMarks)

/-- The PLL has lost lock (R54): four consecutive frames with no GOOD mark, or 256 consecutive cycles beyond ±1/8. -/
def Chan.slipped (c : Chan) : Bool := decide (4 ≤ c.badFrames) || decide (256 ≤ c.pll.badRun)

/-- WARP_LOCK_ACQUIRED (R15, R54): the island returns to the warp clock. -/
def execWarpLockAcquired (a : Act) (s : State) : Host.Outcome State Fault Refusal :=
  .next (let c := s.chan[a]
    if c.clocked && !c.locked && c.pll.acquired then
      tellLock a (showWarpLock a (s.modChan a (fun c => { c with locked := true, holdover := false })))
    else s)

/-- WARP_LOCK_LOST (R54, R55): with the cycles since the last mark, the PLL has lost lock. -/
def warpLockLost (a : Act) (cycles : List WarpCycle) (s : State) : State :=
  if s.chan[a].clocked then
    let s1 := pllCycles a cycles s
    if s1.chan[a].slipped then loseLock a s1 else s1
  else s

def execWarpLockLost (a : LockLoss) (s : State) : Host.Outcome State Fault Refusal := .next (warpLockLost a.act a.cycles s)

/-- WARP_ZONE_CHANGE (R54, R61): the PLL retunes and counts as unlocked until it locks again: the island runs on holdover, a read in progress carries
the mark HOLDOVER, and the change is no loss of lock for CNT_WARP (log entry 45). -/
def execWarpZoneChange (a : Act) (zone : Fin 64) (s : State) : Host.Outcome State Fault Refusal :=
  .next (if s.chan[a].clocked ∧ s.chan[a].zone ≠ zone.val then
    tellLock a (showWarpLock a ((unlocked a (releaseGate a s)).modChan a (fun c => { c with zone := zone.val, adaptCal := true })))
  else s)

/-! ### The preamplifier (R47 to R50) -/

/-- PREAMP_FAULT (R50): a write is cut; a read sector is finished with the mark PAFAULT and nothing more is framed. -/
def preampFault (a : Act) (s : State) : State :=
  if !s.chan[a].clocked || s.chan[a].paFault then s else
  let writing := s.chan[a].gate
  let s1 := s.modChan a (fun c => { c with
    paFault := true, paHeld := !writing
    cur := c.cur.map (fun r => { r with marks := { r.marks with paFault := true } }) })
  raiseAct a 0 (releaseGate a s1)

def execPreampFault (a : Act) (s : State) : Host.Outcome State Fault Refusal := .next (preampFault a s)

/-- PREAMP_FAULT_CLEAR (R50). -/
def execPreampFaultClear (a : Act) (s : State) : Host.Outcome State Fault Refusal :=
  .next (s.modChan a (fun c => { c with paFault := false, paHeld := false }))

/-- Between sectors with the gate released. -/
def Chan.quiet (c : Chan) : Bool := !c.gate && c.cur.isNone

/-- The frames of a script, as the image supplies them (R47). -/
def scriptFrames (c : PreampCfg) : ScriptKind → List (BitVec 16)
  | .headSelect x => c.select.getD x.val []
  | .writeEntry => c.writeEntry
  | .readEntry => c.readEntry
  | .idle => c.idle

/-- A link frame (R47): bit 15 read, bits 14 to 8 the address, bits 7 to 0 the data. -/
def linkFrame (read : Bool) (addr data : Nat) : BitVec 16 := BitVec.ofNat 16 (2 ^ 15 * b2n read + 2 ^ 8 * (addr % 2 ^ 7) + data % 2 ^ 8)

/-- PREAMP_SCRIPT_START (R47, R48): the script's frames go out. -/
def execPreampScriptStart (a : Act) (s : State) : Host.Outcome State Fault Refusal :=
  .next (let c := s.chan[a]
    match c.due with
    | k :: rest =>
      if c.quiet && c.link == .free then s.modChan a (fun c => { c with due := rest, link := .script k (scriptFrames s.cfg.preamp[a] k) }) else s
    | [] => s)

/-- PREAMP_SCRIPT_DONE (R48, R61): the head or mode has changed, and HEADSETTLE begins. -/
def execPreampScriptDone (a : Act) (s : State) : Host.Outcome State Fault Refusal :=
  .next (match s.chan[a].link with
    | .script k _ =>
      s.modChan a (fun c =>
        let c1 := { c with link := .free, settling := true }
        match k with
        | .headSelect x => { c1 with head := some x, adaptCal := true }
        | .writeEntry => { c1 with writing := true }
        | .readEntry => { c1 with writing := false }
        | .idle => c1)
    | _ => s)

/-- HEAD_SETTLE_END (R48). -/
def execHeadSettleEnd (a : Act) (s : State) : Host.Outcome State Fault Refusal :=
  .next (s.modChan a (fun c => { c with settling := false }))

/-- A write of PA_ACC (R49): ignored while BUSY; GO queues one frame. -/
def writePaAcc (a : Act) (w : Word) (s : State) : State :=
  let k := Reg.ACU_PA_ACC a
  if s.bitF k Fld.ACU_PA_ACC_BUSY then s
  else
    let s1 := s.setF k ⟨15, 0⟩ (w.toNat % 2 ^ 16)
    if Fld.ACU_PA_ACC_GO.get w = 1 then (s1.setB k Fld.ACU_PA_ACC_BUSY true).modChan a (fun c => { c with paWaiting := true }) else s1

/-- Whether a write of session n reaches channel a's registers (R7, R385, R424). -/
def State.chanWritable (s : State) (n : Fin 4) (a : Act) : Bool := s.may n .operator && s.hasAct a && s.chan[a].clocked

/-- PA_ACC_GO (R49). -/
def execPaAccGo (n : Fin 4) (a : Act) (w : Word) (s : State) : Host.Outcome State Fault Refusal :=
  .next (if s.chanWritable n a then writePaAcc a w s else s)

/-- The frame that PA_ACC asks for (R47, R49). -/
def State.paFrame (s : State) (a : Act) : BitVec 16 :=
  let k := Reg.ACU_PA_ACC a
  linkFrame (s.bitF k Fld.ACU_PA_ACC_READ) (s.getF k Fld.ACU_PA_ACC_ADDR) (s.getF k Fld.ACU_PA_ACC_DATA)

/-- PA_ACC_SEND (R49): after any script that waits at the same moment. -/
def execPaAccSend (a : Act) (s : State) : Host.Outcome State Fault Refusal :=
  .next (let c := s.chan[a]
    if c.paWaiting && c.quiet && c.link == .free && c.due.isEmpty then
      s.modChan a (fun c => { c with paWaiting := false, link := .management (s.paFrame a) }) else s)

/-- PA_ACC_FRAME_DONE (R47): a read frame's data lands in DATA. -/
def execPaAccFrameDone (a : Act) (data : Byte) (s : State) : Host.Outcome State Fault Refusal :=
  .next (match s.chan[a].link with
    | .management f =>
      let k := Reg.ACU_PA_ACC a
      let s1 := (s.modChan a (fun c => { c with link := .free })).setB k Fld.ACU_PA_ACC_BUSY false
      if f.getLsbD 15 then s1.setF k Fld.ACU_PA_ACC_DATA data.toNat else s1
    | _ => s)

/-- ADAPT_RESET (R61): takes effect at the next sector boundary. -/
def execAdaptReset (n : Fin 4) (a : Act) (s : State) : Host.Outcome State Fault Refusal :=
  .next (if s.chanWritable n a then s.modChan a (fun c => { c with adaptReset := true }) else s)

end Sys2Proof.Machine
end

