-- ==== Sys2Proof/Machine/Sha.lean ====
section
/-! DEFINITION. SHA-384, which the spec names for the digests of R157, R350 and R383 and leaves to its publication (PRESUMED, log entry 47). -/

namespace Sys2Proof.Machine

/-! ### Constants: of the cube roots of the first 80 primes and the square roots of the ninth to the sixteenth -/

def shaK0 : List Nat := [
  0x428A2F98D728AE22, 0x7137449123EF65CD, 0xB5C0FBCFEC4D3B2F, 0xE9B5DBA58189DBBC,
  0x3956C25BF348B538, 0x59F111F1B605D019, 0x923F82A4AF194F9B, 0xAB1C5ED5DA6D8118,
  0xD807AA98A3030242, 0x12835B0145706FBE, 0x243185BE4EE4B28C, 0x550C7DC3D5FFB4E2,
  0x72BE5D74F27B896F, 0x80DEB1FE3B1696B1, 0x9BDC06A725C71235, 0xC19BF174CF692694]

def shaK1 : List Nat := [
  0xE49B69C19EF14AD2, 0xEFBE4786384F25E3, 0x0FC19DC68B8CD5B5, 0x240CA1CC77AC9C65,
  0x2DE92C6F592B0275, 0x4A7484AA6EA6E483, 0x5CB0A9DCBD41FBD4, 0x76F988DA831153B5,
  0x983E5152EE66DFAB, 0xA831C66D2DB43210, 0xB00327C898FB213F, 0xBF597FC7BEEF0EE4,
  0xC6E00BF33DA88FC2, 0xD5A79147930AA725, 0x06CA6351E003826F, 0x142929670A0E6E70]

def shaK2 : List Nat := [
  0x27B70A8546D22FFC, 0x2E1B21385C26C926, 0x4D2C6DFC5AC42AED, 0x53380D139D95B3DF,
  0x650A73548BAF63DE, 0x766A0ABB3C77B2A8, 0x81C2C92E47EDAEE6, 0x92722C851482353B,
  0xA2BFE8A14CF10364, 0xA81A664BBC423001, 0xC24B8B70D0F89791, 0xC76C51A30654BE30,
  0xD192E819D6EF5218, 0xD69906245565A910, 0xF40E35855771202A, 0x106AA07032BBD1B8]

def shaK3 : List Nat := [
  0x19A4C116B8D2D0C8, 0x1E376C085141AB53, 0x2748774CDF8EEB99, 0x34B0BCB5E19B48A8,
  0x391C0CB3C5C95A63, 0x4ED8AA4AE3418ACB, 0x5B9CCA4F7763E373, 0x682E6FF3D6B2B8A3,
  0x748F82EE5DEFB2FC, 0x78A5636F43172F60, 0x84C87814A1F0AB72, 0x8CC702081A6439EC,
  0x90BEFFFA23631E28, 0xA4506CEBDE82BDE9, 0xBEF9A3F7B2C67915, 0xC67178F2E372532B]

def shaK4 : List Nat := [
  0xCA273ECEEA26619C, 0xD186B8C721C0C207, 0xEADA7DD6CDE0EB1E, 0xF57D4F7FEE6ED178,
  0x06F067AA72176FBA, 0x0A637DC5A2C898A6, 0x113F9804BEF90DAE, 0x1B710B35131C471B,
  0x28DB77F523047D84, 0x32CAAB7B40C72493, 0x3C9EBE0A15C9BEBC, 0x431D67C49C100D4C,
  0x4CC5D4BECB3E42B6, 0x597F299CFC657E2A, 0x5FCB6FAB3AD6FAEC, 0x6C44198C4A475817]

def shaInit : List Nat := [
  0xCBBB9D5DC1059ED8, 0x629A292A367CD507, 0x9159015A3070DD17, 0x152FECD8F70E5939,
  0x67332667FFC00B31, 0x8EB44A8768581511, 0xDB0C2E0D64F98FA7, 0x47B5481DBEFA4FA4]

def shaK : List Nat := shaK0 ++ shaK1 ++ shaK2 ++ shaK3 ++ shaK4

/-! ### The compression -/

def shaM : Nat := 0xFFFFFFFFFFFFFFFF

def shaRot (x n : Nat) : Nat := (x >>> n) ||| ((x <<< (64 - n)) &&& shaM)
def shaAdd (x y : Nat) : Nat := (x + y) &&& shaM

/-- One further word of the message schedule; the sixteen words before it stand oldest first. -/
def shaNext (w : List Nat) : Nat :=
  let x := w.getD 1 0
  let y := w.getD 14 0
  let s0 := shaRot x 1 ^^^ shaRot x 8 ^^^ (x >>> 7)
  let s1 := shaRot y 19 ^^^ shaRot y 61 ^^^ (y >>> 6)
  (w.getD 0 0 + s0 + w.getD 9 0 + s1) &&& shaM

/-- The eight working words. -/
structure ShaVars where
  a : Nat
  b : Nat
  c : Nat
  d : Nat
  e : Nat
  f : Nat
  g : Nat
  h : Nat

def shaRound (v : ShaVars) (k w : Nat) : ShaVars :=
  let s1 := shaRot v.e 14 ^^^ shaRot v.e 18 ^^^ shaRot v.e 41
  let ch := (v.e &&& v.f) ^^^ ((v.e ^^^ shaM) &&& v.g)
  let t1 := (v.h + s1 + ch + k + w) &&& shaM
  let s0 := shaRot v.a 28 ^^^ shaRot v.a 34 ^^^ shaRot v.a 39
  let mj := (v.a &&& v.b) ^^^ (v.a &&& v.c) ^^^ (v.b &&& v.c)
  ⟨shaAdd t1 (s0 + mj), v.a, v.b, v.c, shaAdd v.d t1, v.e, v.f, v.g⟩

/-- Rounds over the constants, with a window of sixteen words of the schedule. -/
def shaRounds : List Nat → List Nat → ShaVars → ShaVars
  | [], _, v => v
  | k :: t, w, v => shaRounds t (w.drop 1 ++ [shaNext w]) (shaRound v k (w.getD 0 0))

def shaBlock (s : List Nat) (w : List Nat) : List Nat :=
  let g (i : Nat) : Nat := s.getD i 0
  let v := shaRounds shaK w ⟨g 0, g 1, g 2, g 3, g 4, g 5, g 6, g 7⟩
  [shaAdd (g 0) v.a, shaAdd (g 1) v.b, shaAdd (g 2) v.c, shaAdd (g 3) v.d, shaAdd (g 4) v.e, shaAdd (g 5) v.f, shaAdd (g 6) v.g, shaAdd (g 7) v.h]

/-! ### The digest of a byte string -/

/-- The first n 64-bit words of a byte string. -/
def shaWords : Nat → List Byte → List Nat
  | 0, _ => []
  | n + 1, l => beNat (l.take 8) :: shaWords n (l.drop 8)

def shaBlocks : Nat → List Byte → List Nat → List Nat
  | 0, _, s => s
  | n + 1, l, s => shaBlocks n (l.drop 128) (shaBlock s (shaWords 16 l))

/-- The padded message: a one bit, zeros, and the length in bits. -/
def shaPad (l : List Byte) : List Byte :=
  l ++ [0x80#8] ++ List.replicate ((239 - l.length % 128) % 128) 0#8 ++ beBytes 16 (8 * l.length)

/-- SHA-384, in the octet order that the algorithm outputs. -/
def sha384 (l : List Byte) : List Byte :=
  let p := shaPad l
  ((shaBlocks (p.length / 128) p shaInit).take 6).flatMap (beBytes 8)

end Sys2Proof.Machine
end

