-- ==== Sys2Proof/Machine/Microcode.lean ====
section
/-! DEFINITION. Microcode words and banks: the SECDED code of the stores (R149, R161, R162), a JACQUARD record's payload (R157, R354), the check of a
bank that has been written (R159), and its shadow in HBM3 (R160, R164, R234). -/

namespace Sys2Proof.Machine

/-! ### The extended Hamming code (R149) -/

/-- The code positions of the data bits: those of 1 to 136 that are no power of two, in ascending order (DESIGN CHOICE, log entry 47: R149 names the code
and not its columns; nothing shows the check bits). -/
def hamPlaces : List Nat := (List.range 137).filter (fun x => x != 0 && x &&& (x - 1) != 0)

/-- Bits in a word of the two kinds: 96 with eight check bits, 128 with nine. -/
def wordBits (pick : Bool) : Nat := if pick then 96 else 128

/-- The Hamming bits of a word: the sum of the places of the bits that are 1. -/
def hamSum (pick : Bool) (w : BitVec 128) : Nat :=
  ((hamPlaces.take (wordBits pick)).zipIdx).foldl (fun n e => if w.getLsbD e.2 then n ^^^ e.1 else n) 0

/-- Whether a number of up to 128 bits has an odd number of ones. -/
def oddOnes (x : Nat) : Bool := !evenOnes 128 x

/-- The check bits of a word (R149): the Hamming bits, and above them the parity of the whole codeword. -/
def secdedCheck (pick : Bool) (w : BitVec 128) : BitVec 9 :=
  let h := hamSum pick w
  BitVec.ofNat 9 (h + (if pick then 128 else 256) * b2n (oddOnes w.toNat ^^ oddOnes h))

/-- What the check of a word as read finds (R161, R162). -/
inductive WordRead
  | clean (w : BitVec 128)
  | corrected (w : BitVec 128)
  | uncorrectable
  deriving DecidableEq, Repr

/-- The check of a word with its check bits as read: a zero syndrome with even parity is clean, odd parity is one wrong bit, anything else is
uncorrectable. -/
def secdedRead (pick : Bool) (w : BitVec 128) (c : BitVec 9) : WordRead :=
  let m := if pick then 128 else 256
  let stored := c.toNat % m
  let syn := hamSum pick w ^^^ stored
  let odd := oddOnes w.toNat ^^ oddOnes stored ^^ c.getLsbD (if pick then 7 else 8)
  if syn = 0 then (if odd then .corrected w else .clean w)
  else if !odd then .uncorrectable
  else if syn &&& (syn - 1) = 0 then .corrected w
  else
    let i := (hamPlaces.take (wordBits pick)).idxOf syn
    if i < wordBits pick then .corrected (w ^^^ (1#128 <<< i)) else .uncorrectable

/-- A stored codeword as it is read: the bits that read wrong, data bits first, then check bits. -/
def codeAsRead (e : FetchErr) (pick : Bool) (w : BitVec 128) (c : BitVec 9) : BitVec 128 × BitVec 9 :=
  e.flips.foldl (fun p i =>
    if i < wordBits pick then (p.1 ^^^ (1#128 <<< i), p.2) else (p.1, p.2 ^^^ (1#9 <<< (i - wordBits pick)))) (w, c)

/-! ### Banks -/

/-- The bytes of a word (R354): 12 or 16, bits [7:0] in the first. -/
def wordSize (pick : Bool) : Nat := if pick then 12 else 16
def mcodeBytes (pick : Bool) (l : List (BitVec 128)) : List Byte := l.flatMap (fun w => leBytes (wordSize pick) w.toNat)

def mcodeWords (pick : Bool) : Nat → List Byte → List (BitVec 128)
  | 0, _ => []
  | n + 1, l => BitVec.ofNat 128 (leNat (l.take (wordSize pick))) :: mcodeWords pick n (l.drop (wordSize pick))

/-- A JACQUARD record's payload (R354); none where its length does not follow from NWORDS or a reserved byte is not zero. -/
def jqParse (pick : Bool) (l : List Byte) : Option JqRec :=
  let n := leNat ((l.drop 16).take 4)
  if l.length = 80 + wordSize pick * n ∧ (l.drop 14).take 2 = zeros 2 ∧ (l.drop 20).take 12 = zeros 12 ∧ (pick = false ∨ l.getD 13 0 = 0#8) then
    some { mask := BitVec.ofNat 64 (leNat (l.take 8)), ver := BitVec.ofNat 32 (leNat ((l.drop 8).take 4))
           iface := (l.getD 12 0).toNat, layout := (l.getD 13 0).toNat, words := mcodeWords pick n (l.drop 32)
           digest := (l.drop (32 + wordSize pick * n)).take 48 }
  else none

/-- The payload that spells a record (R354). -/
def jqPayload (pick : Bool) (j : JqRec) : List Byte :=
  leBytes 8 j.mask.toNat ++ leBytes 4 j.ver.toNat ++ leBytes 1 j.iface ++ leBytes 1 j.layout ++ zeros 2 ++ leBytes 4 j.words.length ++ zeros 12
    ++ mcodeBytes pick j.words ++ j.digest

/-- What a bank holds once the loader has written a record into it, with the check bits it generates (R149). -/
def bankOf (pick : Bool) (j : JqRec) : Prog :=
  { ver := j.ver, iface := j.iface, layout := j.layout, words := j.words, checks := j.words.map (secdedCheck pick), digest := j.digest }

/-- A word of a bank as a fetch reads it; none past the word count (R160). -/
def Prog.read (p : Prog) (pick : Bool) (i : Nat) (e : FetchErr) : Option WordRead :=
  match p.words[i]?, p.checks[i]? with
  | some w, some c => let r := codeAsRead e pick w c; some (secdedRead pick r.1 r.2)
  | _, _ => none

/-- The read-back of a bank (R159): no word needs correction, and SHA-384 over the words as read is the record's digest. `wrong` lists the words in
which bits read wrong. -/
def Prog.verifies (p : Prog) (pick : Bool) (wrong : List (Nat × FetchErr)) : Bool :=
  let l := (List.range p.words.length).map (fun i => p.read pick i ((aget wrong i).getD .clean))
  l.all (fun r => match r with | some (.clean _) => true | _ => false) &&
    sha384 (mcodeBytes pick (l.map (fun r => match r with | some (.clean w) => w | _ => 0#128))) == p.digest

/-- A bank is written, checked, and once more where it fails (R159): whether it passes. -/
def bankPasses (fills : List BankCheck) (q : Fin 64) (pick : Bool) (p : Prog) : Bool :=
  let c := (fills.find? (fun c => c.store == q)).getD ⟨q, [], []⟩
  p.verifies pick c.first || p.verifies pick c.second

/-! ### Shadows (R160, R162, R164, R234) -/

/-- The HBM3 address of a block of 64 words of store q in a shadow slot, and of its CRC (DESIGN CHOICE, log entry 47: R234 gives the two slots of 8 MiB;
each store has an equal part of one, words first). -/
def shadowAddr (slot : Bool) (q : Fin 64) (blk : Nat) : Nat := (if slot then 0x08800000 else 0x08000000) + 0x20000 * q.val + 1024 * blk
def shadowCrcAddr (slot : Bool) (q : Fin 64) (blk : Nat) : Nat := (if slot then 0x08800000 else 0x08000000) + 0x20000 * q.val + 0x10000 + 4 * blk

/-- The bytes of a block; words past the count are zero. -/
def blockBytes (pick : Bool) (p : Prog) (blk : Nat) : List Byte :=
  mcodeBytes pick ((List.range 64).map (fun i => p.words.getD (64 * blk + i) 0#128))

/-- A bank's shadow is written, block by block, each with its CRC-32C. -/
def writeShadow (slot : Bool) (q : Fin 64) (pick : Bool) (p : Prog) (s : State) : State :=
  (List.range ((p.words.length + 63) / 64)).foldl (fun s k =>
    let b := blockBytes pick p k
    (s.hbmWrite (shadowAddr slot q k) b).hbmWrite (shadowCrcAddr slot q k) (leBytes 4 (crc32c b).toNat)) s

/-- Bytes as they are read, with the bits that read wrong. -/
def bytesAsRead (e : FetchErr) (l : List Byte) : List Byte :=
  e.flips.foldl (fun l i => l.set (i / 8) (l.getD (i / 8) 0#8 ^^^ (1#8 <<< (i % 8)))) l

/-- A word of a shadow, from its 64-word block; none where the block as read fails its CRC-32C. -/
def State.shadowWord (s : State) (slot : Bool) (q : Fin 64) (pick : Bool) (i : Nat) (e : FetchErr) : Option (BitVec 128) :=
  let b := bytesAsRead e (s.hbmRead (shadowAddr slot q (i / 64)) (64 * wordSize pick))
  if leNat (s.hbmRead (shadowCrcAddr slot q (i / 64)) 4) = (crc32c b).toNat then
    some (BitVec.ofNat 128 (leNat ((b.drop (wordSize pick * (i % 64))).take (wordSize pick))))
  else none

/-- A word is rewritten from its shadow and read again (R162): the bank with the word, where the block and the word check out. -/
def State.repaired (s : State) (slot : Bool) (q : Fin 64) (pick : Bool) (p : Prog) (i : Nat) (rp : ShadowRead) : Option Prog :=
  match s.shadowWord slot q pick i rp.block with
  | none => none
  | some w =>
    let p' := { p with words := p.words.set i w, checks := p.checks.set i (secdedCheck pick w) }
    match p'.read pick i rp.again with
    | some (.clean _) => some p'
    | _ => none

end Sys2Proof.Machine
end

