-- ==== Sys2Proof/Machine/Jacquard.lean ====
section
/-! DEFINITION. The commands of chapter 7: the microwords of the Pick sequencers and of the Shed engines, errors at
run time, staging and activation. -/

namespace Sys2Proof.Machine

/-! ### Stores (R149) -/

def State.modStore (s : State) (q : Fin 64) (f : Store → Store) : State := { s with jq := s.jq.set q (f s.jq[q]) }

/-- Whether store q holds Pick microwords. -/
def isPick (q : Fin 64) : Bool := decide (q.val < 32) || (decide (48 ≤ q.val) && decide (q.val < 56))

/-- The unit of a store's group (R330). -/
def storeUnit (q : Fin 64) : FUnit :=
  if q.val < 48 then .act (Fin.ofNat 16 q.val) else .hda (Fin.ofNat 8 q.val)

/-- The control-law store of a Shed unit. -/
def shedStore : ShedUnit → Fin 64
  | .acu a => acuStore a
  | .scu h => scuStore h

/-- The Shed unit in whose group a store is. -/
def storeGroup (q : Fin 64) : ShedUnit := if q.val < 48 then .acu (Fin.ofNat 16 q.val) else .scu (Fin.ofNat 8 q.val)

/-- The stores of a Shed unit's group. -/
def groupStores : ShedUnit → List (Fin 64)
  | .acu a => [framerStore a, wedgeStore a, acuStore a]
  | .scu h => [sampleStore h, scuStore h]

def setFailed (q : Fin 64) (b : Bool) (s : State) : State :=
  if q.val < 32 then s.setBit Reg.JQ_FAIL_LO q.val b else s.setBit Reg.JQ_FAIL_HI (q.val - 32) b

def setSwapped (q : Fin 64) (s : State) : State :=
  if q.val < 32 then s.setBit Reg.JQ_SWAP_LO q.val true else s.setBit Reg.JQ_SWAP_HI (q.val - 32) true

/-! ### Errors (R161 to R163) -/

/-- JQ_ECC_LAST of an error. -/
def eccLast (q : Fin 64) (bank : Bool) (word : Nat) (uncorr : Bool) (s : State) : State :=
  s.setReg Reg.JQ_ECC_LAST (BitVec.ofNat 32 (q.val + 2 ^ 6 * b2n bank + 2 ^ 7 * (word % 4096) + 2 ^ 19 * b2n uncorr))

/-- A corrected word (R161): counted, recorded, raised; its write-back leaves the stored word right. -/
def jqCorrect (q : Fin 64) (bank : Bool) (word : Nat) (s : State) : State :=
  raise 0xA8 (storeUnit q) (eccLast q bank word false (s.incF Reg.JQ_ECC Fld.JQ_ECC_CE))

/-- What a hold does to the framer's channel (R162). -/
def framerHold (a : Act) (s : State) : State :=
  match s.chan[a].cur with
  | none => s
  | some r =>
    if r.write then releaseGate a s
    else
      revolutionRetry a (reedOf r s.chan[a].adapt (s.calNow a) []) (s.bitF (Reg.ACU_CH_CTRL a) Fld.ACU_CH_CTRL_RETRY_EN) (s.modChan a (fun c => { c with cur := none }))

/-- The sequencer of store q holds. -/
def holdStore (q : Fin 64) (s : State) : State :=
  let s1 := s.modStore q (fun t => { t with held := true })
  if h : q.val < 16 then framerHold ⟨q.val, h⟩ s1 else s1

/-- A fall-back begins (R162). -/
def fallBack (q : Fin 64) (bank : Bool) (word : Nat) (s : State) : State :=
  raise 0xA9 (storeUnit q) (eccLast q bank word true ((holdStore q s).incF Reg.JQ_ECC Fld.JQ_ECC_UE))

/-- A store becomes FAILED (R163). -/
def failStore (q : Fin 64) (s : State) : State := raise 0xAA (storeUnit q) (setFailed q true (holdStore q s))

/-! ### Swapping (R165 to R168) -/

/-- Every armed store has swapped or left the activation: BUSY clears, and DONE or PARTIAL tells of this activation, the last one. -/
def swapCheck (s : State) : State :=
  if s.bitF Reg.JQ_ACT Fld.JQ_ACT_BUSY && s.jq.toList.all (fun t => !t.armed) then
    ((s.setB Reg.JQ_ACT Fld.JQ_ACT_BUSY false).setB Reg.JQ_ACT Fld.JQ_ACT_PARTIAL s.jqLeft).setB Reg.JQ_ACT Fld.JQ_ACT_DONE (!s.jqLeft)
  else s

/-- The swap of a store (R165): banks and shadows exchange, the old active bank becomes a staging bank that is not valid, the
next word is word 0 of the new bank, the loop counter and flags clear. A FAILED store returns to service. DESIGN CHOICE (log entry 47): the accumulator
and the note of saturation, of which R165 says nothing, are kept with the register file. -/
def swapStore (q : Fin 64) (s : State) : State :=
  let s1 := s.modStore q (fun t => { t with
    active := t.staging, staging := t.active, stgValid := false, slot := !t.slot,
    pc := 0, lcnt := 0, flags := 0#4, armed := false, waitIdle := false, running := true,
    held := t.held && !s.storeFailed q.val })
  swapCheck (setSwapped q (setFailed q false s1))

/-- The staged store differs in IFACE, or for a Shed kind in LAYOUT, from the active one (R166). -/
def Store.needsIdle (t : Store) (pick : Bool) : Bool :=
  match t.active, t.staging with
  | some x, some y => x.iface != y.iface || (!pick && x.layout != y.layout)
  | _, _ => false

/-- A staged store of the group is one of R166, so that all staged stores of the group wait for idle. -/
def State.groupWaits (s : State) (u : ShedUnit) : Bool :=
  (groupStores u).any (fun q => s.jq[q].stgValid && s.jq[q].needsIdle (isPick q))

/-- Arm every staged store (R165): those of a group of R166 wait for idle; another store that is not running swaps at once (R163). DESIGN CHOICE (log
entry 47): an ARM while BUSY is 1 starts the activation anew over the stores still staged. -/
def armStores (s : State) : State :=
  let s1 := { s with jqLeft := false, jq := s.jq.mapFinIdx (fun i t h =>
    if t.stgValid then { t with armed := true, waitIdle := s.groupWaits (storeGroup ⟨i, h⟩) } else t) }
  let s2 := ((s1.setB Reg.JQ_ACT Fld.JQ_ACT_BUSY true).setReg Reg.JQ_SWAP_LO 0).setReg Reg.JQ_SWAP_HI 0
  let s3 := (List.finRange 64).foldl (fun s q =>
    if s.jq[q].armed && !s.jq[q].waitIdle && (!s.jq[q].running || s.storeFailed q.val) then swapStore q s else s) s2
  swapCheck s3

/-- JQ_ARM (R165): only in a Keeper session. -/
def execJqArm (n : Fin 4) (s : State) : Host.Outcome State Fault Refusal :=
  .next (if s.may n .keeper then armStores s else s)

/-- Stores that are still armed leave the activation with STG_VALID kept (R167). -/
def disarm (s : State) : State :=
  let left := s.jq.toList.any (fun t => t.armed)
  swapCheck { s with jqLeft := s.jqLeft || left, jq := s.jq.map (fun t => { t with armed := false, waitIdle := false }) }

/-- JQ_ABORT (R167). -/
def execJqAbort (n : Fin 4) (s : State) : Host.Outcome State Fault Refusal :=
  .next (if s.may n .keeper then disarm s else s)

/-- Whether a group is idle (R166). -/
def State.groupIdle (s : State) : ShedUnit → Bool
  | .acu a => s.acu[a].state == .ramp && s.chan[a].cur.isNone
  | .scu h => s.scu[h].state == .stopped || s.scu[h].state == .coast

/-- After a PARTIAL activation intake arms again when a unit whose stores were left staged becomes idle (R212), until none remain. -/
def rearm (u : ShedUnit) (s : State) : State :=
  if s.intake.armAgain && !s.bitF Reg.JQ_ACT Fld.JQ_ACT_BUSY && (groupStores u).any (fun q => s.jq[q].stgValid) then armStores s else s

/-- No store is left staged. -/
def rearmed (s : State) : State :=
  if s.jq.toList.any (fun t => t.stgValid) then s else { s with intake := { s.intake with armAgain := false } }

/-- A store of the group holds for its repair; it swaps after that (R168). -/
def State.groupHeld (s : State) (u : ShedUnit) : Bool :=
  (groupStores u).any (fun q => s.jq[q].armed && s.jq[q].held && !s.storeFailed q.val)

/-- JQ_SWAP_IDLE (R166, R212): every staged store of an idle group in which one waits swaps. -/
def swapIdle (u : ShedUnit) (s : State) : State :=
  if s.groupIdle u then
    let s1 := rearm u s
    if (groupStores u).any (fun q => s1.jq[q].waitIdle) && !s1.groupHeld u then
      rearmed ((groupStores u).foldl (fun s q => if s.jq[q].armed then swapStore q s else s) s1)
    else rearmed s1
  else s

def execJqSwapIdle (u : ShedUnit) (s : State) : Host.Outcome State Fault Refusal := .next (swapIdle u s)

/-- JQ_SWAP_TIMEOUT (R167). -/
def execJqSwapTimeout (s : State) : Host.Outcome State Fault Refusal := .next (disarm s)

/-- JQ_FALLBACK_REPAIR (R162, R163): the shadow block is read and checked, the word rewritten and fetched again. -/
def jqRepair (q : Fin 64) (rp : ShadowRead) (s : State) : State :=
  if s.jq[q].held && !s.storeFailed q.val then
    match s.jq[q].active with
    | none => s
    | some p => match s.repaired s.jq[q].slot q (isPick q) p s.jq[q].pc rp with
      | some p' => s.modStore q (fun t => { t with active := some p', held := false })
      | none => failStore q s
  else s

def execJqFallbackRepair (q : Fin 64) (block again : FetchErr) (s : State) : Host.Outcome State Fault Refusal := .next (jqRepair q ⟨block, again⟩ s)

/-! ### Fetching a word (R149, R163) -/

/-- The field [hi:lo] of a microword. -/
def wf (w : BitVec 128) (hi lo : Nat) : Nat := w.toNat / 2 ^ lo % 2 ^ (hi + 1 - lo)

/-- A Shed engine receives an event (R150). -/
def noteEvent (q : Fin 64) (s : State) : State := s.modStore q (fun t => { t with irqs := t.irqs + 1 })

/-- A Pick word's IRQ (R150): the framer's crosses to the ACU; the others stand in their Shed unit's island. -/
def pickEvent (q : Fin 64) (s : State) : State :=
  match storeGroup q with
  | .acu a => if q.val < 16 then s.carry (.acuChan a false) (.irq q) (noteEvent (acuStore a)) else noteEvent (acuStore a) s
  | .scu h => noteEvent (scuStore h) s

/-- Fetch the word at the sequencer's address and run it, if the word is one that `want` accepts: a wild fetch fails the
store (R160, R163), an uncorrectable word begins a fall-back, a corrected one is counted and runs. -/
def fetchRun (q : Fin 64) (e : FetchErr) (want : BitVec 128 → Bool) (run : BitVec 128 → State → State) (s : State) : State :=
  let t := s.jq[q]
  if !t.running || t.held || s.storeFailed q.val then s else
  match t.active with
  | none => s
  | some p =>
    match p.words[t.pc]? with
    | none => failStore q s
    | some w =>
      if want w then
        match p.read (isPick q) t.pc e with
        | none => failStore q s
        | some (.clean x) => run x s
        | some (.corrected x) => run x (jqCorrect q false t.pc s)
        | some .uncorrectable => fallBack q false t.pc s
      else s

/-- At the end of a word with SP = 1 an armed store swaps, unless it waits for idle (R165, R166); otherwise the sequencer goes
to `next`. -/
def advance (q : Fin 64) (sp : Bool) (next : Nat) (s : State) : State :=
  if sp && s.jq[q].armed && s.jq[q].stgValid && !s.jq[q].waitIdle then swapStore q s
  else s.modStore q (fun t => { t with pc := next })

/-! ### The Pick microword (R150 to R153) -/

/-- What a Pick word does from its first clock: the outputs, the loop counter, the event. -/
def pickStart (q : Fin 64) (w : BitVec 128) (s : State) : State :=
  let s1 := s.modStore q (fun t => { t with
    out := BitVec.ofNat 45 (wf w 95 51)
    lcnt := if wf w 49 49 = 1 then wf w 48 38 else t.lcnt })
  if wf w 50 50 = 1 then pickEvent q s1 else s1

/-- The condition that a code names and the state of the unit fixes (R152): for the framer, that the slot may be written and that the holdover clock
runs; for the servo wedge sequencer, RAMP or HALTED; for the commutation sample sequencer, an unmeasured period, gates safe or off, and a state with
gates off. The others pass within a sector, a wedge or a period, and are given. -/
def State.unitCond (s : State) (q : Fin 64) (code : Nat) (given : Bool) : Bool :=
  match storeGroup q with
  | .acu a =>
    if q.val < 16 then (if code = 7 then s.writeAllowed a else if code = 8 then s.chan[a].holdover else given)
    else if code = 8 then s.acu[a].down else given
  | .scu h =>
    let u := s.scu[h]
    if code = 5 then u.unmeas else if code = 6 then u.gates == .off || u.gates == .forced else if code = 8 then u.gates == .off else given

/-- The unit's state fixes this code. -/
def unitFixes (q : Fin 64) (code : Nat) : Bool :=
  if q.val < 16 then code == 7 || code == 8 else if q.val < 32 then code == 8 else code == 5 || code == 6 || code == 8

/-- The condition of a Pick word (R152): 0, 1 and 63 from the sequencer, the others from its unit. -/
def State.pickCond (s : State) (q : Fin 64) (w : BitVec 128) (given : Bool) : Bool :=
  match wf w 33 28 with
  | 0 => false
  | 1 => s.jq[q].lcnt == 0
  | 63 => true
  | c => s.unitCond q c given

def pickSelect (q : Fin 64) (e : FetchErr) (cond : Bool) (s : State) : State :=
  if !isPick q then s else
  fetchRun q e (fun w => wf w 36 35 == 0) (fun w s =>
    let s1 := pickStart q w s
    let c := s1.pickCond q w cond ^^ (wf w 34 34 == 1)
    advance q (wf w 37 37 == 1) (if c then wf w 27 17 else wf w 16 6) s1) s

/-- PICK_SELECT (R151). -/
def execPickSelect (q : Fin 64) (e : FetchErr) (cond : Bool) (s : State) : Host.Outcome State Fault Refusal :=
  .next (pickSelect q e cond s)

/-- In EXIT mode `hit` says whether the condition the unit gives, inverted by POL where it is, was true at some clock of the hold. -/
def pickExit (q : Fin 64) (e : FetchErr) (hit : Bool) (s : State) : State :=
  if !isPick q then s else
  fetchRun q e (fun w => wf w 36 35 == 1) (fun w s =>
    let s1 := pickStart q w s
    let pol := wf w 34 34 == 1
    let c := match wf w 33 28 with
      | 0 => pol
      | 1 => (s1.jq[q].lcnt == 0) ^^ pol
      | 63 => !pol
      | k => if unitFixes q k then s1.unitCond q k false ^^ pol else hit
    advance q (wf w 37 37 == 1) (if c then wf w 27 17 else wf w 16 6) s1) s

/-- PICK_EXIT (R151). -/
def execPickExit (q : Fin 64) (e : FetchErr) (hit : Bool) (s : State) : Host.Outcome State Fault Refusal :=
  .next (pickExit q e hit s)

def pickLoop (q : Fin 64) (e : FetchErr) (s : State) : State :=
  if !isPick q then s else
  fetchRun q e (fun w => wf w 36 35 == 2) (fun w s =>
    let s1 := pickStart q w s
    if s1.jq[q].lcnt = 0 then advance q (wf w 37 37 == 1) (wf w 16 6) s1
    else advance q (wf w 37 37 == 1) (wf w 27 17) (s1.modStore q (fun t => { t with lcnt := t.lcnt - 1 }))) s

/-- PICK_LOOP (R151). -/
def execPickLoop (q : Fin 64) (e : FetchErr) (s : State) : Host.Outcome State Fault Refusal := .next (pickLoop q e s)

/-! ### The Shed microword (R154 to R156) -/

/-- The loops of a Shed unit's engine. -/
def State.loopsOf (s : State) : ShedUnit → Vector Loop 4
  | .acu a => s.acu[a].loops
  | .scu h => s.scu[h].loops

def State.modLoop (s : State) (u : ShedUnit) (l : Fin 4) (f : Loop → Loop) : State :=
  match u with
  | .acu a => s.modAcu a (fun x => { x with loops := x.loops.set l (f x.loops[l]) })
  | .scu h => s.modScu h (fun x => { x with loops := x.loops.set l (f x.loops[l]) })

/-- The coefficient at CADDR of the engine (R154, log entry 7). -/
def State.coef (s : State) (u : ShedUnit) (layout addr : Nat) : Int :=
  let k := Config.coefItem layout addr
  let st := (s.loopsOf u)[k.1].stages[k.2.1]
  match k.2.2.val with
  | 0 => st.b0 | 1 => st.b1 | 2 => st.b2 | 3 => st.a1 | 4 => st.a2 | _ => st.ex

def Store.rd (t : Store) (i : Nat) : Int := sget 0 t.file (i % 256)
def Store.wr (t : Store) (i : Nat) (v : Int) : Store := { t with file := sset 0 t.file (i % 256) v }

/-- The crossings whose words arrive in a Shed unit's island (R12). -/
def arrivesAt : ShedUnit → List Crossing
  | .acu a => [.loomShed (.acu a) true, .harnessShed (.acu a) true, .acuChan a false, .scuAcu a true]
  | .scu h => [.loomShed (.scu h) true, .harnessShed (.scu h) true, .scuAcu (lowAct h) false, .scuAcu (highAct h) false,
      .chanScu (lowAct h), .chanScu (highAct h)]

/-- A crossing message waits for the unit. -/
def State.msgWaits (s : State) (u : ShedUnit) : Bool := (arrivesAt u).any (fun x => !(xget x s.cross).fifo.isEmpty)

/-- The condition of a Shed word (R156): from flags, accumulator, saturation, a waiting crossing message and pending CLE writes; 7 and 8 pass within a
wedge or a period, and are given. -/
def shedCond (t : Store) (waits pending : Bool) (w : BitVec 128) (cond : Bool) : Bool :=
  match wf w 29 24 with
  | 0 => false
  | 1 => t.flags.getLsbD 0
  | 2 => t.flags.getLsbD 1
  | 3 => t.flags.getLsbD 2
  | 4 => t.flags.getLsbD 3
  | 5 => decide (t.acc < 0)
  | 6 => t.sat
  | 9 => waits
  | 10 => pending
  | 63 => true
  | _ => cond

/-- One Shed word: the operation on the engine, then flags, message and next address (R154). FCLR and FSET act at the end of the clock, after the
operation: DESIGN CHOICE (log entry 47) for BYPCK's setting of F3 against an FCLR of F3 in one word (R155). -/
def shedWord (op : Nat) (u : ShedUnit) (e : FetchErr) (cond : Bool) (act : BitVec 128 → Store → State → Store × State) (s : State) : State :=
  let q := shedStore u
  fetchRun q e (fun w => wf w 37 32 == op) (fun w s =>
    let t := s.jq[q]
    let pending := (s.loopsOf u).toList.any (fun l => !l.waiting.isEmpty)
    let c := shedCond t (s.msgWaits u) pending w cond ^^ (wf w 30 30 == 1)
    let r := act w t s
    let flags := (r.1.flags &&& ~~~ BitVec.ofNat 4 (wf w 79 76)) ||| BitVec.ofNat 4 (wf w 75 72)
    let s1 := r.2.modStore q (fun _ => { r.1 with flags := flags })
    let s2 := if wf w 80 80 = 1 then s1.send (.harnessShed u false) (.irq q) else s1
    advance q (wf w 31 31 == 1) (if c then wf w 23 12 else wf w 11 0) s2) s

/-- The three register fields. -/
def fSA (w : BitVec 128) : Nat := wf w 45 38
def fSB (w : BitVec 128) : Nat := wf w 53 46
def fDST (w : BitVec 128) : Nat := wf w 61 54
def layoutOf (t : Store) : Nat := match t.active with | some p => p.layout | none => 0

/-- SHED_NOP (R155). -/
def execShedNop (u : ShedUnit) (e : FetchErr) (cond : Bool) (s : State) : Host.Outcome State Fault Refusal :=
  .next (shedWord 0x00 u e cond (fun _ t s => (t, s)) s)

/-- SHED_CLRA (R155). -/
def execShedClra (u : ShedUnit) (e : FetchErr) (cond : Bool) (s : State) : Host.Outcome State Fault Refusal :=
  .next (shedWord 0x01 u e cond (fun _ t s => ({ t with acc := 0 }, s)) s)

/-- SHED_MAC (R155): exact. -/
def execShedMac (u : ShedUnit) (e : FetchErr) (cond : Bool) (s : State) : Host.Outcome State Fault Refusal :=
  .next (shedWord 0x02 u e cond (fun w t s =>
    ({ t with acc := t.acc + t.rd (fSA w) * s.coef u (layoutOf t) (wf w 71 62) }, s)) s)

/-- SHED_MSC (R155): exact. -/
def execShedMsc (u : ShedUnit) (e : FetchErr) (cond : Bool) (s : State) : Host.Outcome State Fault Refusal :=
  .next (shedWord 0x03 u e cond (fun w t s =>
    ({ t with acc := t.acc - t.rd (fSA w) * s.coef u (layoutOf t) (wf w 71 62) }, s)) s)

/-- SHED_RND (R155, R101, R102). -/
def execShedRnd (u : ShedUnit) (e : FetchErr) (cond : Bool) (s : State) : Host.Outcome State Fault Refusal :=
  .next (shedWord 0x04 u e cond (fun w t s =>
    let y := sat24 (scaleAcc t.acc (s.coef u (layoutOf t) (wf w 71 62)))
    ({ t.wr (fDST w) y.1 with sat := y.2 }, s)) s)

/-- SHED_MOV (R155). -/
def execShedMov (u : ShedUnit) (e : FetchErr) (cond : Bool) (s : State) : Host.Outcome State Fault Refusal :=
  .next (shedWord 0x05 u e cond (fun w t s => (t.wr (fDST w) (t.rd (fSA w)), s)) s)

/-- SHED_LDI (R155). -/
def execShedLdi (u : ShedUnit) (e : FetchErr) (cond : Bool) (s : State) : Host.Outcome State Fault Refusal :=
  .next (shedWord 0x06 u e cond (fun w t s => (t.wr (fDST w) (signed 24 (wf w 119 96)), s)) s)

/-- SHED_ADDS (R155, R102). -/
def execShedAdds (u : ShedUnit) (e : FetchErr) (cond : Bool) (s : State) : Host.Outcome State Fault Refusal :=
  .next (shedWord 0x07 u e cond (fun w t s =>
    let y := sat24 (t.rd (fSA w) + t.rd (fSB w))
    ({ t.wr (fDST w) y.1 with sat := y.2 }, s)) s)

/-- SHED_SUBS (R155, R102). -/
def execShedSubs (u : ShedUnit) (e : FetchErr) (cond : Bool) (s : State) : Host.Outcome State Fault Refusal :=
  .next (shedWord 0x08 u e cond (fun w t s =>
    let y := sat24 (t.rd (fSA w) - t.rd (fSB w))
    ({ t.wr (fDST w) y.1 with sat := y.2 }, s)) s)

/-- SHED_IN (R155): the value the input port shows. -/
def execShedIn (u : ShedUnit) (e : FetchErr) (cond : Bool) (port : BitVec 24) (s : State) : Host.Outcome State Fault Refusal :=
  .next (shedWord 0x09 u e cond (fun w t s => (t.wr (fDST w) port.toInt, s)) s)

/-- SHED_OUTP (R155). -/
def execShedOutp (u : ShedUnit) (e : FetchErr) (cond : Bool) (s : State) : Host.Outcome State Fault Refusal :=
  .next (shedWord 0x0A u e cond (fun w t s => ({ t with ports := sset 0 t.ports (fDST w) (t.rd (fSA w)) }, s)) s)

/-- SHED_BYPCK (R155): F3 where the stage's BYPASS bit is 1. -/
def execShedBypck (u : ShedUnit) (e : FetchErr) (cond : Bool) (s : State) : Host.Outcome State Fault Refusal :=
  .next (shedWord 0x0B u e cond (fun w t s =>
    let l := (s.loopsOf u)[Config.wordLoop (shedStore u).val t.pc]
    (if l.bypass.getLsbD (wf w 99 96) then { t with flags := t.flags ||| 8#4 } else t, s)) s)

/-- SHED_DLY (R155, R101, R103; log entry 7): the lines x[n−1], x[n−2], y[n−1], y[n−2] from DST on take the input at SA
and the output at SB; with F3 set, all four take the input. -/
def execShedDly (u : ShedUnit) (e : FetchErr) (cond : Bool) (s : State) : Host.Outcome State Fault Refusal :=
  .next (shedWord 0x0C u e cond (fun w t s =>
    let d := fDST w
    let x := t.rd (fSA w)
    let y := t.rd (fSB w)
    (if t.flags.getLsbD 3 then (((t.wr d x).wr (d + 1) x).wr (d + 2) x).wr (d + 3) x
     else (((t.wr (d + 1) (t.rd d)).wr d x).wr (d + 3) (t.rd (d + 2))).wr (d + 2) y, s)) s)

/-- SHED_SAT (R155): a saturation bit of CLE_SAT. -/
def execShedSat (u : ShedUnit) (e : FetchErr) (cond : Bool) (s : State) : Host.Outcome State Fault Refusal :=
  .next (shedWord 0x0D u e cond (fun w t s =>
    (t, s.modLoop u (Config.wordLoop (shedStore u).val t.pc) (fun l =>
      if wf w 100 100 = 1 then { l with outSat := true }
      else { l with stageSat := l.stageSat ||| BitVec.ofNat 12 (2 ^ wf w 99 96) }))) s)

end Sys2Proof.Machine
end

