-- ==== Sys2Proof/Machine/Crossing.lean ====
section
/-! DEFINITION. The arrival of a word over an island crossing (R3, R11, R12, R14). -/

namespace Sys2Proof.Machine

/-- The words of a partial message with one more: the first word of a message discards what was there, and so does a word that does not
follow. -/
def joinWord (p : List XWord) (w : XWord) : List XWord :=
  if w.idx = 0 then [w]
  else if p.length = w.idx ∧ p.all (fun v => v.msg == w.msg && v.total == w.total) = true then p ++ [w]
  else []

/-- The word at the head of the FIFO leaves it for the destination, and the source fills the slot. A message whose last word this is has
been taken. -/
def XFifo.deliver (depth : Nat) (f : XFifo) : XFifo × Option XMsg :=
  match f.fifo with
  | [] => (f, none)
  | w :: t =>
    let p := joinWord f.partial_ w
    let g := XFifo.fill depth { f with fifo := t }
    if p.length = w.total then ({ g with partial_ := [], last := some w.msg }, some w.msg) else ({ g with partial_ := p }, none)

/-- The warp speed in 1/16 rpm from the REFCLK counts of two successive indexes (R132); an interval of none gives no new one. -/
def indexSpeed (prev : Option Nat) (count : Nat) (old : Option Nat) : Option Nat :=
  match prev with
  | some p => if p < count then some (96000000000 / (count - p)) else old
  | none => old

/-- The SCU takes what the channel of actuator a tells it (R12, R132). -/
def Scu.hear (a : Act) (m : XMsg) (u : Scu) : Scu :=
  match m with
  | .lock l => if a.val % 2 = 0 then { u with lockLow := l } else { u with lockHigh := l }
  | .index n =>
    if a.val % 2 = 0 then { u with warpLow := indexSpeed u.idxLow n u.warpLow, idxLow := some n }
    else { u with warpHigh := indexSpeed u.idxHigh n u.warpHigh, idxHigh := some n }
  | _ => u

/-- What a destination does with a message. The IN_TOL and ROTOR states of a report have reached the ACU over their own path (R17). An actuator's
motion state tells the SCU when both are down (R334). -/
def takeMsg (x : Crossing) (m : XMsg) (s : State) : State :=
  match x, m with
  | .scuAcu a true, .report speed vbus _ _ => s.modAcu a (fun u => { u with speed16 := speed, vbus := vbus })
  | .scuAcu a false, .motion _ => hdaStopCheck (hdaOf a) s
  | .chanScu a, m => s.modScu (hdaOf a) (Scu.hear a m)
  | .acuChan a false, .wedge r => wedgeRecord a r s
  | .acuChan a false, .doubt => warpDoubt a s
  | .acuChan a false, .irq _ => noteEvent (acuStore a) s
  | .harnessShed (.acu a) true, .seek c => acuSeek a c s
  | .harnessShed (.acu a) false, .seekDone c => seekDone a c s
  | _, _ => s

/-- CROSSING_WORD (R3, R11 to R14): one word leaves the FIFO. -/
def crossingWord (x : Crossing) (s : State) : State :=
  if s.takesWords x then
    let r := (xget x s.cross).deliver (crossDepth x)
    let s1 := { s with cross := xset x r.1 s.cross }
    match r.2 with
    | some m => takeMsg x m s1
    | none => s1
  else s

def execCrossingWord (x : Crossing) (s : State) : Host.Outcome State Fault Refusal := .next (crossingWord x s)

end Sys2Proof.Machine
end

