-- ==== Sys2Proof/Machine/Intake.lean ====
section
/-! DEFINITION. Intake (R189 to R193, R196, R197, R200): the checks of a COMMAND frame, admission and the admission queue. -/

namespace Sys2Proof.Machine

/-! ### Which command a frame is -/

/-- The declared LU a frame addresses. -/
def State.frameCfg (s : State) (f : CmdFrame) : Option LuCfg := if lunWf f.lun then s.luCfg (frameLu f) else none

/-- Commands that check 3 lets through a pending unit attention (R189). -/
def noAttention (op : Nat) : Bool := op == 0x12 || op == 0xA0 || op == 0x03
/-- Commands that are served whatever the unit's state (R399, R336, R443). -/
def alwaysServed (op : Nat) : Bool :=
  op == 0x12 || op == 0xA0 || op == 0x03 || op == 0x1A || op == 0x5A || op == 0x4D || op == 0x3C

/-- Operation codes and service actions of R178's table. -/
def opSupported (f : CmdFrame) : Bool :=
  let sa := fc f 1 % 32
  match fc f 0 with
  | 0x48 => sa == 3
  | 0x94 => decide (1 ≤ sa) && decide (sa ≤ 4)
  | 0x95 => sa == 0
  | 0x9E => sa == 0x10
  | op => [0x00, 0x03, 0x04, 0x07, 0x12, 0x15, 0x55, 0x1A, 0x5A, 0x1C, 0x1D, 0x3B, 0x3C, 0x4D, 0x88, 0x8A, 0x8F, 0x91, 0xA0].contains op

/-! ### Checks 5 to 7 (R189) -/

/-- Media commands for check 6 (R306), and for Device Stop (R336). -/
def mediaOp (op : Nat) : Bool := op == 0x88 || op == 0x8A || op == 0x8F || op == 0x07 || op == 0x04 || op == 0x94

/-- Actuators and heads that a command addresses. -/
def State.addressed (s : State) (l : LuCfg) (x : Ctx) : List Nat × List (Nat × Nat) :=
  if x.op = 0x04 ∨ x.op = 0x48 ∨ (x.op = 0x94 ∧ x.allZones = true) then (l.acts, [])
  else if x.op = 0x94 then
    let d := s.desc (l.gz (x.lba / 65536))
    ([d.act], [])
  else ((x.segs.map (·.act)).eraseDups, x.segs.map (fun g => (g.act, g.head)))

def State.checks56 (s : State) (l : LuCfg) (x : Ctx) : Option Sense :=
  if alwaysServed x.op then none
  else if s.bitF Reg.FLT_STOP Fld.FLT_STOP_DEVICE && (mediaOp x.op || x.op == 0x48) then some (sense keyHardware 0x44 0x00)
  else
    let a := s.addressed l x
    match s.check5 l.lu a.1 a.2 with
    | some e => some e
    | none =>
      if mediaOp x.op && (s.luLocked l.lu || s.bitF (bank l.lu Reg.CIP_KEY_STAT) Fld.CIP_KEY_STAT_CLEARING) then
        some (sense keyProtect 0x80 0x00)
      else none

/-- Admitted writes to a conventional zone that have not taken a counter value (R273). -/
def State.untaken (s : State) (l : LuCfg) (g : Nat) : Nat :=
  s.intake.ctxs.countP (fun e => e.2.cls == 1 && e.2.state != .linger && e.2.lu == l.lu
    && (List.range e.2.segs.length).any (fun i => match e.2.segs[i]? with
      | some q => l.gz q.zone == g && (aget e.2.taken i).isNone
      | none => false))

/-- Check 7 of one segment. `awp` is the admitted write pointer that the command is compared with. -/
def State.check7Seg (s : State) (l : LuCfg) (x : Ctx) (g : Seg) (awp : Nat) : Option Sense :=
  let z := l.gz g.zone
  let d := s.desc z
  if d.cond = 0xF then some (sense keyProtect 0x2C 0x0E)
  else if x.cls = 1 then
    if d.ztype then
      if g.start ≠ awp then some (sense keyIllegal 0x21 0x04)
      else if x.segs.head? = some g ∧ 65536 < g.start + x.nblk then some (sense keyIllegal 0x21 0x05)
      else if d.limit then some (sense keyProtect 0x80 0x01)
      else if (d.cond = 1 ∨ d.cond = 4) ∧ s.roomToOpen l = false then some (sense keyProtect 0x0C 0x12)
      else none
    else if d.stamp + s.untaken l z ≥ 0xFFFFFFFF then some (sense keyProtect 0x80 0x01)
    else none
  else if x.isRead then
    if d.ztype ∧ awp < g.start + g.count then some (sense keyIllegal 0x21 0x06) else none
  else none

/-- Blocks that a waiting write has placed in a zone's AWP (R200). -/
def State.waitBlocks (s : State) (l : LuCfg) (w : Waiting) (z : Nat) : Nat :=
  if w.counted ∧ frameLu w.frame = l.lu then
    ((s.segsOf l (fbe w.frame 2 8) (fbe w.frame 10 4)).filter (fun g => l.gz g.zone == z)).foldl (fun n g => n + g.count) 0
  else 0

/-- Check 7 of a command: `later` are the waiting commands whose blocks AWP holds and that come after it, itself included. -/
def State.check7 (s : State) (l : LuCfg) (x : Ctx) (later : List Waiting) : Option Sense :=
  if x.op = 0x94 ∧ x.allZones = false ∧ (s.desc (l.gz (x.lba / 65536))).noZoneOp then some fieldErr
  else
    x.segs.findSome? (fun g =>
      let z := l.gz g.zone
      s.check7Seg l x g (s.awpOf z - later.foldl (fun n w => n + s.waitBlocks l w z) 0))

/-- LIMIT is set at the first refusal for an exhausted counter (R273). -/
def noteLimit (l : LuCfg) (x : Ctx) (e : Sense) (s : State) : State :=
  if e.asc = 0x80 ∧ e.ascq = 0x01 ∧ x.cls = 1 then
    x.segs.foldl (fun s g =>
      let d := s.desc (l.gz g.zone)
      if !d.ztype && !d.limit then updateDesc (l.gz g.zone) (fun d => { d with limit := true }) s else s) s
  else s

/-- Passing check 7 advances AWP by a write's blocks (R200); leaving the queue takes them back. -/
def moveAwp (l : LuCfg) (segs : List Seg) (up : Bool) (s : State) : State :=
  segs.foldl (fun s g =>
    let z := l.gz g.zone
    if (s.desc z).ztype then setAwp z (if up then s.awpOf z + g.count else s.awpOf z - g.count) s else s) s

/-! ### Resources (R190 to R193) -/

def State.waitsOf (s : State) (u : Nat) : List Waiting := s.intake.admq.filter (fun w => frameLu w.frame == u)

/-- The oldest waiting command of each LU. -/
def heads : List Waiting → List Nat → List Waiting
  | [], _ => []
  | w :: t, seen => if seen.contains (frameLu w.frame) then heads t seen else w :: heads t (frameLu w.frame :: seen)

/-- B of a waiting command. -/
def State.bobsOf (s : State) (f : CmdFrame) : Nat :=
  match s.frameCfg f with
  | some l => (match s.check4 l f with | .ok a => a.bobbins | .error _ => 0)
  | none => (match s.check4Undeclared f with | .ok a => a.bobbins | .error _ => 0)

/-- An older head of another LU, which fails only the second condition of R191, waits for the shared part of the pool (R192). -/
def State.sharedBlocked (s : State) (u : Nat) (older : List Waiting) : Bool :=
  (heads older []).any (fun w =>
    let v := frameLu w.frame
    v != u && (s.luCfg v).isSome && s.poolOf v == s.poolOf u && s.ctxFits (some v)
      && s.creelAnswer v (s.bobsOf w.frame) == .empty && decide (0 < s.bobsOf w.frame))

/-- The claim of one context and b bobbins for an LU, all or nothing: the new state, or none with what the Creel counted. -/
def claim (u : Nat) (b : Nat) (older : List Waiting) (s : State) : Bool × State :=
  if !s.ctxFits (some u) then (false, s)
  else if b = 0 then (true, s)
  else if s.sharedBlocked u older && decide (s.unusedMin u < b) then (false, s)
  else
    let r := creelRequest u b s
    (r.1 == .grant, r.2)

/-! ### Effective order (R196, R197) -/

/-- The place a task takes, and the state with room made for it. HEAD OF QUEUE goes after every task of its LU that has begun and every HEAD OF
QUEUE task before it, and before the rest: the positions that the LU's tasks hold, and one more, are given out anew in that order. -/
def placeSeq (u : Nat) (attr : TaskAttr) (s : State) : Nat × State :=
  let n := s.intake.nextSeq
  let s1 := s.modIntake (fun i => { i with nextSeq := n + 1 })
  if attr = .headOfQueue then
    let mine := (s.intake.ctxs.filter (fun e => e.2.lu == u)).mergeSort (fun a b => decide (a.2.seq ≤ b.2.seq))
    let first (e : Nat × Ctx) : Bool := e.2.state.begun || e.2.attr == .headOfQueue
    let order := ((mine.filter (fun e => e.2.state.begun)) ++ mine.filter (fun e => !e.2.state.begun && e.2.attr == .headOfQueue)).map (·.1)
      ++ [ctxCount] ++ (mine.filter (fun e => !first e)).map (·.1)
    let given := order.zip (mine.map (·.2.seq) ++ [n])
    ((aget given ctxCount).getD n,
     s1.modIntake (fun i => { i with ctxs := i.ctxs.map (fun e => (e.1, match aget given e.1 with | some q => { e.2 with seq := q } | none => e.2)) }))
  else (n, s1)

/-- Dependencies of a new task: on what stands before it, and, for HEAD OF QUEUE, of what stands behind it; a queued task that comes to depend on it
waits (R195). -/
def linkOrder (c : Nat) (s : State) : State :=
  match s.ctx? c with
  | none => s
  | some x =>
    let before := (s.intake.ctxs.filter (fun e => e.1 != c && ((decide (e.2.seq < x.seq) && dependsOn s e.2 x) || syncWaits e.2 x))).map (·.1)
    s.modIntake (fun i => { i with ctxs := i.ctxs.map (fun e =>
      if e.1 = c then (e.1, { e.2 with preds := before })
      else if x.seq < e.2.seq ∧ e.2.state.begun = false ∧ dependsOn s x e.2 = true then
        (e.1, { e.2 with preds := e.2.preds ++ [c], state := if e.2.state = .queued then .waiting else e.2.state })
      else e) })

/-! ### Admission -/

def State.activating (s : State) : Bool :=
  let p := s.getF Reg.INT_ACT_STAT Fld.INT_ACT_STAT_PHASE
  p == 1 || p == 2 || p == 3

/-- A write is admitted: EMPTY and CLOSED zones open (R268). -/
def openForWrite (l : LuCfg) (segs : List Seg) (s : State) : State :=
  segs.foldl (fun s g =>
    let z := l.gz g.zone
    let s1 := { s with zones := { s.zones with lastW := aset s.zones.lastW z s.now } }
    if (s1.desc z).ztype then openZone l z 2 s1 else s1) s

/-- A command that has its resources becomes a task. -/
def takeIn (f : CmdFrame) (l : Option LuCfg) (a : Ask) (bob : Option Nat) (s : State) : State :=
  match s.freeCtx (Config.ctxStart s.free) with
  | none => s
  | some c =>
    let u := frameLu f
    let p := placeSeq u f.attr { s with free := s.free + 1 }
    let x0 := { p.2.mkCtx f l a p.1 with adm := s.intake.nextSeq }
    let x : Ctx := match bob with | some b => { x0 with bobs := [b], credits := 0 } | none => { x0 with credits := if l.isNone then 0 else x0.credits }
    let s1 := (putCtx c { x with heldFlag := s.activating } p.2).setF Reg.INT_STAT Fld.INT_STAT_CTX_FREE (p.2.ctxFree - 1)
    let s2 := if l.isSome then s1.incF (bank u Reg.INT_LU_USE_CTX) Fld.INT_LU_USE_CTX_USED else s1
    let s3 := match l with | some l => if a.cls = 1 then openForWrite l x.segs s2 else s2 | none => s2
    settleAll [.go c] (linkOrder c (s3.incF Reg.INT_CNT_ADMIT Fld.INT_CNT_ADMIT_COUNT))

/-- The image that is being activated declares another Context Store format: what arrives until the swap is admitted after it (R214). -/
def State.newFormat (s : State) : Bool :=
  s.getF Reg.INT_ACT_STAT Fld.INT_ACT_STAT_PHASE == 3
    && (match s.cand with | some f => f.ctxFmt != s.getF Reg.INT_CTX_FMT Fld.INT_CTX_FMT_FMT | none => false)

/-- Try to admit; false when the command does not fit. -/
def tryAdmit (f : CmdFrame) (l : Option LuCfg) (a : Ask) (older : List Waiting) (s : State) : Bool × State :=
  if s.newFormat then (false, s) else
  match l with
  | some l' =>
    let r := claim l'.lu a.bobbins older s
    if r.1 then (true, takeIn f l a none r.2) else (false, r.2)
  | none =>
    if !s.ctxFits none then (false, s)
    else if a.bobbins = 0 then (true, takeIn f l a none s)
    else match takeReserve 0xFFFF s with
      | some (b, s1) => (true, takeIn f l a (some b) s1)
      | none => (false, s)

/-! ### The admission queue (R192) -/

def showAdmq (s : State) : State :=
  let s1 := s.setF Reg.INT_STAT Fld.INT_STAT_ADMQ s.intake.admq.length
  s.cfg.lus.foldl (fun s l => s.setF (bank l.lu Reg.INT_LU_USE_CTX) Fld.INT_LU_USE_CTX_WAITING (s.waitsOf l.lu).length) s1

/-- Whether a nexus has a task in an LU. -/
def State.nexusHas (s : State) (init u : Nat) : Bool :=
  s.intake.ctxs.any (fun e => e.2.init == init && e.2.lu == u && e.2.port < 2 && e.2.state != .linger)

/-- TASK SET FULL, or BUSY (R192). -/
def refuseFull (f : CmdFrame) (s : State) : State :=
  let u := frameLu f
  if s.nexusHas f.init.val u then
    respond f.port.val f.init.val f.tag.toNat u (.status stTaskSetFull) (s.incF Reg.INT_CNT_REFUSE Fld.INT_CNT_REFUSE_TSF)
  else respond f.port.val f.init.val f.tag.toNat u (.status stBusy) (s.incF Reg.INT_CNT_REFUSE Fld.INT_CNT_REFUSE_BUSY)

def respondTo (f : CmdFrame) (how : How) (s : State) : State := respond f.port.val f.init.val f.tag.toNat (frameLu f) how s

/-- Waiting writes of the same zones behind a write that gives up its place end with 0x21/0x04 (R200). -/
def dropLater (l : LuCfg) (zs : List Nat) : List Waiting → State → State
  | [], s => s
  | w :: t, s =>
    let segs := s.segsOf l (fbe w.frame 2 8) (fbe w.frame 10 4)
    if w.counted && frameLu w.frame == l.lu && segs.any (fun g => zs.contains (l.gz g.zone) && (s.desc (l.gz g.zone)).ztype) then
      let s1 := moveAwp l segs false (s.modIntake (fun i => { i with admq := i.admq.erase w }))
      dropLater l zs t (respondTo w.frame (.check (sense keyIllegal 0x21 0x04)) s1)
    else dropLater l zs t s

/-- A waiting command leaves the queue without being admitted. -/
def leaveQueue (w : Waiting) (s : State) : State :=
  let later := (s.intake.admq.dropWhile (· != w)).drop 1
  let s1 := s.modIntake (fun i => { i with admq := i.admq.erase w })
  match s1.frameCfg w.frame with
  | some l =>
    if w.counted then
      let segs := s1.segsOf l (fbe w.frame 2 8) (fbe w.frame 10 4)
      dropLater l (segs.map (fun g => l.gz g.zone)) later (moveAwp l segs false s1)
    else s1
  | none => s1

/-- A waiting command has been admitted. -/
def admittedLate (w : Waiting) (s : State) : State :=
  sample 2 (frameLu w.frame) ((s.now - w.arrived : Nat) : Int)
    ((s.modIntake (fun i => { i with admq := i.admq.erase w })).incF Reg.INT_CNT_WAIT Fld.INT_CNT_WAIT_WAITED)

/-- A waiting write has passed check 7: AWP holds its blocks from now on (R200). -/
def countWaiting (l : LuCfg) (x : Ctx) (w : Waiting) (s : State) : Waiting × State :=
  if x.cls = 1 ∧ w.counted = false then
    ({ w with counted := true }, moveAwp l x.segs true (s.modIntake (fun i => { i with
      admq := i.admq.map (fun v => if v = w then { v with counted := true } else v) })))
  else (w, s)

/-- One waiting command is reconsidered (R192): checks 5 to 7 again for a head, then its resources. -/
def reconsider (w0 : Waiting) (s : State) : State :=
  match s.intake.admq.find? (fun v => v.frame == w0.frame && v.arrived == w0.arrived) with
  | none => s
  | some w =>
    let older := s.intake.admq.takeWhile (· != w)
    if older.any (fun o => frameLu o.frame == frameLu w.frame) then s
    else match s.frameCfg w.frame with
      | some l =>
        match s.check4 l w.frame with
        | .error e => respondTo w.frame (.check e) (leaveQueue w s)
        | .ok a =>
          let x := s.mkCtx w.frame (some l) a 0
          match s.checks56 l x with
          | some e => respondTo w.frame (.check e) (leaveQueue w s)
          | none =>
            match s.check7 l x ((s.intake.admq.dropWhile (· != w))) with
            | some e => respondTo w.frame (.check e) (leaveQueue w (noteLimit l x e s))
            | none =>
              let n := countWaiting l x w s
              let r := tryAdmit w.frame (some l) a older n.2
              if r.1 then admittedLate n.1 r.2
              else r.2
      | none =>
        match s.check4Undeclared w.frame with
        | .error e => respondTo w.frame (.check e) (leaveQueue w s)
        | .ok a =>
          let r := tryAdmit w.frame none a older s
          if r.1 then admittedLate w r.2
          else r.2

/-- ADMISSION_RETRY (R192): every waiting command in arrival order. -/
def execAdmissionRetry (s : State) : Host.Outcome State Fault Refusal :=
  .next (if s.power.phase != .run then s else showAdmq (s.intake.admq.foldl (fun s w => reconsider w s) s))

/-- ADMISSION_TIMEOUT (R192): the k-th waiting command is refused. -/
def execAdmissionTimeout (k : Fin 4096) (s : State) : Host.Outcome State Fault Refusal :=
  .next (match s.intake.admq[k.val]? with
    | some w => showAdmq (refuseFull w.frame (leaveQueue w s))
    | none => s)

/-! ### A COMMAND frame (R175, R189, R240) -/

/-- The nexus of a frame is in the initiator table. -/
def State.known (s : State) (port init : Nat) : Bool :=
  match aget s.intake.initTab init with | some e => e.port.val == port | none => false

/-- The task of a nexus with a tag. -/
def State.taskOf (s : State) (port init tag : Nat) : Option Nat :=
  (s.intake.ctxs.find? (fun e => e.2.state != .linger && e.2.port == port && e.2.init == init && e.2.tag == tag)).map (·.1)
def State.waitOf (s : State) (port init tag : Nat) : Option Waiting :=
  s.intake.admq.find? (fun w => w.frame.port.val == port && w.frame.init.val == init && w.frame.tag.toNat == tag)

/-- Checks 5 to 8 for a declared LU. -/
def intakeDeclared (f : CmdFrame) (l : LuCfg) (a : Ask) (s : State) : State :=
  let x := s.mkCtx f (some l) a 0
  match s.checks56 l x with
  | some e => respondTo f (.check e) s
  | none =>
    match s.check7 l x [] with
    | some e => respondTo f (.check e) (noteLimit l x e s)
    | none =>
      let s1 := if a.cls = 1 then moveAwp l x.segs true s else s
      let r := if (s1.waitsOf l.lu).isEmpty then tryAdmit f (some l) a s1.intake.admq s1 else (false, s1)
      if r.1 then sample 2 l.lu 0 r.2
      else if (s1.getF Reg.INT_CFG Fld.INT_CFG_ADMIT_WAIT = 0 ∧ s1.newFormat = false) ∨ 4096 ≤ s1.intake.admq.length then
        refuseFull f (if a.cls = 1 then moveAwp l x.segs false r.2 else r.2)
      else r.2.modIntake (fun i => { i with admq := i.admq ++ [⟨f, s.now, a.cls == 1⟩] })

/-- Checks 4 and 8 for an LU that the image does not declare (R190). -/
def intakeUndeclared (f : CmdFrame) (s : State) : State :=
  match s.check4Undeclared f with
  | .error e => respondTo f (.check e) s
  | .ok a =>
    let r := if (s.waitsOf (frameLu f)).isEmpty then tryAdmit f none a s.intake.admq s else (false, s)
    if r.1 then sample 2 (frameLu f) 0 r.2
    else if (s.getF Reg.INT_CFG Fld.INT_CFG_ADMIT_WAIT = 0 ∧ s.newFormat = false) ∨ 4096 ≤ s.intake.admq.length then refuseFull f r.2
    else r.2.modIntake (fun i => { i with admq := i.admq ++ [⟨f, s.now, false⟩] })

/-- The checks of R189, in order. -/
def commandFrame (f : CmdFrame) (s : State) : State :=
  if !s.known f.port.val f.init.val || s.power.phase != .run then s
  else if f.addLen ≠ 0 ∨ frameNaca f = true then respondTo f (.check fieldErr) s
  else
    let cfg := s.frameCfg f
    if cfg.isNone && !noAttention (fc f 0) then respondTo f (.check luErr) s
    else match s.taskOf f.port.val f.init.val f.tag.toNat, s.waitOf f.port.val f.init.val f.tag.toNat with
      | some c, _ =>
        respondTo f (.check (sense keyAborted 0x4E 0x00)) (settleAll [.abort c] s)
      | none, some w => showAdmq (respondTo f (.check (sense keyAborted 0x4E 0x00)) (leaveQueue w s))
      | none, none =>
        let att := if noAttention (fc f 0) then none else
          s.intake.uas.find? (fun u => u.init == f.init.val && u.lu == frameLu f)
        match att with
        | some u =>
          respondTo f (.check (sense keyAttention u.asc u.ascq)) (s.modIntake (fun i => { i with uas := i.uas.erase u }))
        | none =>
          match cfg with
          | none => showAdmq (intakeUndeclared f s)
          | some l =>
            match s.check4 l f with
            | .error e => respondTo f (.check e) s
            | .ok a => showAdmq (intakeDeclared f l a s)

/-- A row's command: a COMMAND frame whose CDB is the row's. -/
def scsiRow (is : Bool) (f : CmdFrame) (s : State) : State := if is then commandFrame f s else s

def isOp (f : CmdFrame) (op : Nat) : Bool := fc f 0 == op
def isOpSa (f : CmdFrame) (op sa : Nat) : Bool := fc f 0 == op && fc f 1 % 32 == sa

def execTestUnitReady (f : CmdFrame) (s : State) : Host.Outcome State Fault Refusal := .next (scsiRow (isOp f 0x00) f s)
def execRequestSense (f : CmdFrame) (s : State) : Host.Outcome State Fault Refusal := .next (scsiRow (isOp f 0x03) f s)
def execFormatUnit (f : CmdFrame) (s : State) : Host.Outcome State Fault Refusal := .next (scsiRow (isOp f 0x04) f s)
def execReassignBlocks (f : CmdFrame) (s : State) : Host.Outcome State Fault Refusal := .next (scsiRow (isOp f 0x07) f s)
def execInquiry (f : CmdFrame) (s : State) : Host.Outcome State Fault Refusal := .next (scsiRow (isOp f 0x12) f s)
def execModeSelect6 (f : CmdFrame) (s : State) : Host.Outcome State Fault Refusal := .next (scsiRow (isOp f 0x15) f s)
def execModeSelect10 (f : CmdFrame) (s : State) : Host.Outcome State Fault Refusal := .next (scsiRow (isOp f 0x55) f s)
def execModeSense6 (f : CmdFrame) (s : State) : Host.Outcome State Fault Refusal := .next (scsiRow (isOp f 0x1A) f s)
def execModeSense10 (f : CmdFrame) (s : State) : Host.Outcome State Fault Refusal := .next (scsiRow (isOp f 0x5A) f s)
def execReceiveDiagnosticResults (f : CmdFrame) (s : State) : Host.Outcome State Fault Refusal := .next (scsiRow (isOp f 0x1C) f s)
def execSendDiagnostic (f : CmdFrame) (s : State) : Host.Outcome State Fault Refusal := .next (scsiRow (isOp f 0x1D) f s)
/-- WRITE BUFFER with any mode but 0x0F: a mode other than 0x0D ends at check 4. -/
def execWriteBufferDownload (f : CmdFrame) (s : State) : Host.Outcome State Fault Refusal :=
  .next (scsiRow (isOp f 0x3B && fc f 1 % 32 != 0x0F) f s)
def execWriteBufferActivate (f : CmdFrame) (s : State) : Host.Outcome State Fault Refusal := .next (scsiRow (isOpSa f 0x3B 0x0F) f s)
def execReadBuffer (f : CmdFrame) (s : State) : Host.Outcome State Fault Refusal := .next (scsiRow (isOp f 0x3C) f s)
def execSanitize (f : CmdFrame) (s : State) : Host.Outcome State Fault Refusal := .next (scsiRow (isOpSa f 0x48 3) f s)
def execLogSense (f : CmdFrame) (s : State) : Host.Outcome State Fault Refusal := .next (scsiRow (isOp f 0x4D) f s)
def execRead16 (f : CmdFrame) (s : State) : Host.Outcome State Fault Refusal := .next (scsiRow (isOp f 0x88) f s)
def execWrite16 (f : CmdFrame) (s : State) : Host.Outcome State Fault Refusal := .next (scsiRow (isOp f 0x8A) f s)
def execVerify16 (f : CmdFrame) (s : State) : Host.Outcome State Fault Refusal := .next (scsiRow (isOp f 0x8F) f s)
def execSynchronizeCache16 (f : CmdFrame) (s : State) : Host.Outcome State Fault Refusal := .next (scsiRow (isOp f 0x91) f s)
def execCloseZone (f : CmdFrame) (s : State) : Host.Outcome State Fault Refusal := .next (scsiRow (isOpSa f 0x94 1) f s)
def execFinishZone (f : CmdFrame) (s : State) : Host.Outcome State Fault Refusal := .next (scsiRow (isOpSa f 0x94 2) f s)
def execOpenZone (f : CmdFrame) (s : State) : Host.Outcome State Fault Refusal := .next (scsiRow (isOpSa f 0x94 3) f s)
def execResetWritePointer (f : CmdFrame) (s : State) : Host.Outcome State Fault Refusal := .next (scsiRow (isOpSa f 0x94 4) f s)
def execReportZones (f : CmdFrame) (s : State) : Host.Outcome State Fault Refusal := .next (scsiRow (isOpSa f 0x95 0) f s)
def execReadCapacity16 (f : CmdFrame) (s : State) : Host.Outcome State Fault Refusal := .next (scsiRow (isOpSa f 0x9E 0x10) f s)
def execReportLuns (f : CmdFrame) (s : State) : Host.Outcome State Fault Refusal := .next (scsiRow (isOp f 0xA0) f s)
def execUnsupportedOpcode (f : CmdFrame) (s : State) : Host.Outcome State Fault Refusal := .next (scsiRow (!opSupported f) f s)

/-! ### Task management (R176, R210, R211) -/

def tmfComplete : Nat := 0x00
def tmfNotSupported : Nat := 0x04
def tmfSucceeded : Nat := 0x08
def tmfBadLun : Nat := 0x09

def tmfLu (t : TmfFrame) : Nat := luNum t.lun
def tmfLunOk (t : TmfFrame) : Bool := lunWf t.lun

def tmfAnswer (t : TmfFrame) (code : Nat) (s : State) : State := sendMsg t.port.val (.tmf t.init.val t.tag.toNat code) s

/-- Whether a function reaches a declared LU through a nexus of the table. -/
def tmfGuard (t : TmfFrame) (needLu : Bool) (s : State) (k : State → State) : State :=
  if !s.known t.port.val t.init.val then s
  else if needLu && !(tmfLunOk t && (s.luCfg (tmfLu t)).isSome) then tmfAnswer t tmfBadLun s
  else k s

/-- Abort every task that `p` accepts and every waiting command that `q` accepts; those writing a sector go on to its pad. -/
def abortWhere (p : Ctx → Bool) (q : Waiting → Bool) (s : State) : State :=
  let cs := (s.inOrder.filter (fun e => e.2.state != .linger && p e.2)).map (·.1)
  let s1 := (s.intake.admq.filter q).foldl (fun s w => if s.intake.admq.contains w then leaveQueue w s else s) s
  showAdmq (cs.foldl (fun s c => match s.ctx? c with
    | some _ => settleAll [.abort c] s
    | none => s) (markAbort cs s1))

/-- Tasks that still stop (R211). -/
def State.stopping (s : State) (p : Ctx → Bool) : List Nat :=
  (s.intake.ctxs.filter (fun e => e.2.state == .stopping && p e.2)).map (·.1)

/-- The function's response, now or when the tasks it stops have stopped. -/
def tmfFinish (t : TmfFrame) (p : Ctx → Bool) (s : State) : State :=
  let l := s.stopping p
  if l.isEmpty then tmfAnswer t tmfComplete s
  else s.modIntake (fun i => { i with tmfs := i.tmfs ++ [⟨t.port.val, t.init.val, t.tag.toNat, l⟩] })

def ofNexus (t : TmfFrame) (x : Ctx) : Bool := x.init == t.init.val && x.port == t.port.val
def waitNexus (t : TmfFrame) (w : Waiting) : Bool := w.frame.init == t.init && w.frame.port == t.port

/-- ABORT TASK. -/
def execAbortTask (t : TmfFrame) (s : State) : Host.Outcome State Fault Refusal :=
  let p (x : Ctx) : Bool := ofNexus t x && x.lu == tmfLu t && x.tag == t.managed.toNat
  .next (tmfGuard t true s (fun s =>
    tmfFinish t p (abortWhere p (fun w => waitNexus t w && frameLu w.frame == tmfLu t && w.frame.tag == t.managed) s)))

/-- ABORT TASK SET. -/
def execAbortTaskSet (t : TmfFrame) (s : State) : Host.Outcome State Fault Refusal :=
  let p (x : Ctx) : Bool := ofNexus t x && x.lu == tmfLu t
  .next (tmfGuard t true s (fun s => tmfFinish t p (abortWhere p (fun w => waitNexus t w && frameLu w.frame == tmfLu t) s)))

/-- Nexuses that have a task or a waiting command in an LU. -/
def State.losers (s : State) (u : Nat) : List Nat :=
  (((s.intake.ctxs.filter (fun e => e.2.lu == u && e.2.state != .linger && decide (e.2.port < 2))).map (·.2.init))
    ++ ((s.waitsOf u).map (·.frame.init.val))).eraseDups

/-- CLEAR TASK SET. Internal reassignments and re-keys are no tasks of the LU (R203, R307). -/
def execClearTaskSet (t : TmfFrame) (s : State) : Host.Outcome State Fault Refusal :=
  let u := tmfLu t
  .next (tmfGuard t true s (fun s =>
    let p (x : Ctx) : Bool := x.lu == u && decide (x.port < 2)
    let s1 := (s.losers u).foldl (fun s i => if i = t.init.val then s else addUa i u 0x2F 0x00 s) s
    tmfFinish t p (abortWhere p (fun w => frameLu w.frame == u) s1)))

/-- LOGICAL UNIT RESET. -/
def execLogicalUnitReset (t : TmfFrame) (s : State) : Host.Outcome State Fault Refusal :=
  let u := tmfLu t
  .next (tmfGuard t true s (fun s =>
    let p (x : Ctx) : Bool := x.lu == u && decide (x.port < 2)
    tmfFinish t p (addUaAll (fun _ => true) u 0x29 0x03 (abortWhere p (fun w => frameLu w.frame == u) s))))

/-- A unit attention of one nexus for every declared LU (R366). -/
def uaEveryLu (init asc ascq : Nat) (s : State) : State := s.cfg.lus.foldl (fun s l => addUa init l.lu asc ascq s) s

/-- What a nexus loses (I_T NEXUS RESET, I_T nexus loss). -/
def loseNexus (init : Nat) (s : State) : State :=
  let s1 := abortWhere (fun x => x.init == init && decide (x.port < 2)) (fun w => w.frame.init.val == init) s
  uaEveryLu init 0x29 0x07 s1

/-- I_T NEXUS RESET. -/
def execITNexusReset (t : TmfFrame) (s : State) : Host.Outcome State Fault Refusal :=
  .next (tmfGuard t false s (fun s => tmfFinish t (ofNexus t) (loseNexus t.init.val s)))

/-- QUERY TASK: FUNCTION SUCCEEDED where the task is present. -/
def execQueryTask (t : TmfFrame) (s : State) : Host.Outcome State Fault Refusal :=
  .next (tmfGuard t true s (fun s =>
    let there := s.intake.ctxs.any (fun e => e.2.state != .linger && ofNexus t e.2 && e.2.lu == tmfLu t && e.2.tag == t.managed.toNat)
      || s.intake.admq.any (fun w => waitNexus t w && frameLu w.frame == tmfLu t && w.frame.tag == t.managed)
    tmfAnswer t (if there then tmfSucceeded else tmfComplete) s))

/-- QUERY TASK SET: FUNCTION SUCCEEDED where the nexus has a task in the LU. -/
def execQueryTaskSet (t : TmfFrame) (s : State) : Host.Outcome State Fault Refusal :=
  .next (tmfGuard t true s (fun s =>
    let there := s.intake.ctxs.any (fun e => e.2.state != .linger && ofNexus t e.2 && e.2.lu == tmfLu t)
      || s.intake.admq.any (fun w => waitNexus t w && frameLu w.frame == tmfLu t)
    tmfAnswer t (if there then tmfSucceeded else tmfComplete) s))

/-- Any other function (R176). -/
def execTmfUnsupported (t : TmfFrame) (s : State) : Host.Outcome State Fault Refusal :=
  .next (tmfGuard t false s (tmfAnswer t tmfNotSupported))

/-- ABORT_STOP_COMPLETE (R211): functions whose tasks have all stopped are answered. -/
def execAbortStopComplete (s : State) : Host.Outcome State Fault Refusal :=
  let done (s : State) (w : TmfWait) : Bool :=
    !w.tasks.any (fun c => match s.ctx? c with | some x => x.state == .stopping | none => false)
  .next ((s.intake.tmfs.filter (done s)).foldl (fun s w =>
    sendMsg w.port (.tmf w.init w.tag tmfComplete) (s.modIntake (fun i => { i with tmfs := i.tmfs.erase w }))) s)

end Sys2Proof.Machine
end

