-- ==== Sys2Proof/Machine/CheckValue.lean ====
section
/-! DEFINITION. Check-value units (R309 to R315, R319): the computation of R310, the guards of R315 and the internal CRC, and the
commands on an unbound unit. -/

namespace Sys2Proof.Machine

/-! ### The computation (R309, R310) -/

/-- The parameters of R309. -/
structure CvParams where
  w : Nat
  poly : BitVec 64
  init : BitVec 64
  refin : Bool
  refout : Bool
  xorout : BitVec 64
  deriving DecidableEq, Repr

def lowMask (w : Nat) : BitVec 64 := BitVec.allOnes 64 >>> (64 - w)

/-- The low w bits in reversed order. -/
def reflect (w : Nat) (x : BitVec 64) : BitVec 64 :=
  (List.range w).foldl (fun (r : BitVec 64) i => if x.getLsbD i then r ||| (1#64 <<< (w - 1 - i)) else r) 0#64

/-- The start of a computation. -/
def CvParams.start (p : CvParams) : BitVec 64 :=
  let i := p.init &&& lowMask p.w
  if p.refin then reflect p.w i else i

def CvParams.bit (p : CvParams) (r : BitVec 64) : BitVec 64 :=
  if p.refin then
    (if r.getLsbD 0 then (r >>> 1) ^^^ reflect p.w p.poly else r >>> 1)
  else
    (if r.getLsbD (p.w - 1) then (((r <<< 1) ^^^ p.poly) &&& lowMask p.w) else ((r <<< 1) &&& lowMask p.w))

/-- One input byte. -/
def CvParams.byte (p : CvParams) (r : BitVec 64) (b : Byte) : BitVec 64 :=
  let x := if p.refin then r ^^^ b.setWidth 64 else r ^^^ (b.setWidth 64 <<< (p.w - 8))
  (List.range 8).foldl (fun r _ => p.bit r) x

def CvParams.feed (p : CvParams) (r : BitVec 64) (l : List Byte) : BitVec 64 := l.foldl p.byte r

/-- The result for a raw state. -/
def CvParams.result (p : CvParams) (r : BitVec 64) : BitVec 64 :=
  ((if p.refin != p.refout then reflect p.w r else r) ^^^ p.xorout) &&& lowMask p.w

/-- The parameters of unit v as its registers hold them; WIDTH is taken between 8 and 64 (R319). -/
def State.cvParams (s : State) (v : Nat) : CvParams :=
  let pair (lo hi : Nat) : BitVec 64 := (s.reg hi).setWidth 64 <<< 32 ||| (s.reg lo).setWidth 64
  { w := max 8 (min 64 (s.getF (Reg.CV_CFG v) Fld.CV_CFG_WIDTH))
    poly := pair (Reg.CV_POLY_LO v) (Reg.CV_POLY_HI v), init := pair (Reg.CV_INIT_LO v) (Reg.CV_INIT_HI v)
    refin := s.bitF (Reg.CV_CFG v) Fld.CV_CFG_REFIN, refout := s.bitF (Reg.CV_CFG v) Fld.CV_CFG_REFOUT
    xorout := pair (Reg.CV_XOR_LO v) (Reg.CV_XOR_HI v) }

/-- The generators of R315. -/
def guard16 : CvParams := ⟨16, 0x8BB7#64, 0#64, false, false, 0#64⟩
def guard64 : CvParams := ⟨64, 0xAD93D23594C93659#64, BitVec.allOnes 64, true, true, BitVec.allOnes 64⟩

def guardOf (pifmt : Nat) (data : List Byte) : Nat :=
  let p := if pifmt = 2 then guard64 else guard16
  (p.result (p.feed p.start data)).toNat

/-! ### Protection information (R34, R181 to R183, R442) -/

def piLen (pifmt : Nat) : Nat := match pifmt with | 1 => 8 | 2 => 16 | _ => 0
def refBits (pifmt : Nat) : Nat := if pifmt = 2 then 48 else 32

/-- Protection information in its published order: guard, application tag, reference tag, most significant byte first. -/
def mkPi (pifmt guard app ref : Nat) : List Byte :=
  match pifmt with
  | 1 => beBytes 2 guard ++ beBytes 2 app ++ beBytes 4 ref
  | 2 => beBytes 8 guard ++ beBytes 2 app ++ beBytes 6 ref
  | _ => []

/-- What R442 generates. -/
def genPi (pifmt ptype lba : Nat) (data : List Byte) : List Byte :=
  mkPi pifmt (guardOf pifmt data) 0xFFFF (if ptype = 3 then 2 ^ refBits pifmt - 1 else lba % 2 ^ refBits pifmt)

/-- The reference tag expected of a block of a command whose first LBA is `first` (R182): on a type 2 LU it counts from bits [31:0] of that. -/
def expectedRef (pifmt ptype first lba : Nat) : Nat :=
  (if ptype = 2 then first % 2 ^ 32 + (lba - first) else lba) % 2 ^ refBits pifmt

/-- The check of R183 for a protect field: nothing wrong, or the ASCQ of 0x10. The escapes of R182 disable it. With protect field 000b a type 2 LU
may hold any reference tag (R182), so there it is not checked (DEDUCED, log entry 48). -/
def piCheck (pifmt ptype prot first lba : Nat) (data pi : List Byte) : Option Nat :=
  let gl := if pifmt = 2 then 8 else 2
  let app := beNat ((pi.drop gl).take 2)
  let ref := beNat ((pi.drop (gl + 2)).take (refBits pifmt / 8))
  let escape := app == 0xFFFF && (ptype != 3 || ref == 2 ^ refBits pifmt - 1)
  if pifmt = 0 ∨ escape = true then none
  else if (prot = 0 ∨ prot = 1 ∨ prot = 4 ∨ prot = 5) ∧ beNat (pi.take gl) ≠ guardOf pifmt data then some 0x01
  else if ((prot = 0 ∧ ptype ≠ 2) ∨ prot = 1 ∨ prot = 2 ∨ prot = 5) ∧ ptype ≠ 3 ∧ ref ≠ expectedRef pifmt ptype first lba then some 0x03
  else none

/-! ### Commands on an unbound unit (R311, R319) -/

def State.cvBound (s : State) (v : Nat) : Bool := s.bitF (Reg.CV_CFG v) Fld.CV_CFG_BOUND

def State.cvRaw (s : State) (v : Nat) : BitVec 64 :=
  (s.reg (Reg.CV_RUN_HI v)).setWidth 64 <<< 32 ||| (s.reg (Reg.CV_RUN_LO v)).setWidth 64

/-- R, and the result its registers show for it. -/
def setCvRaw (v : Nat) (r : BitVec 64) (s : State) : State :=
  let o := (s.cvParams v).result r
  let s1 := (s.setReg (Reg.CV_RUN_LO v) (r.setWidth 32)).setReg (Reg.CV_RUN_HI v) ((r >>> 32).setWidth 32)
  (s1.setReg (Reg.CV_RESULT_LO v) (o.setWidth 32)).setReg (Reg.CV_RESULT_HI v) ((o >>> 32).setWidth 32)

/-- The result registers follow the parameters of an unbound unit. -/
def refreshCv (v : Nat) (s : State) : State := if s.cvBound v then s else setCvRaw v (s.cvRaw v) s

/-- A write of CTRL: NBYTES is kept; START begins a computation and clears COUNT. -/
def cvCtrl (v : Nat) (w : Word) (s : State) : State :=
  if s.cvBound v then s
  else
    let s1 := s.setF (Reg.CV_CTRL v) Fld.CV_CTRL_NBYTES (Fld.CV_CTRL_NBYTES.get w)
    if Fld.CV_CTRL_START.get w = 1 then setCvRaw v (s1.cvParams v).start (s1.setReg (Reg.CV_COUNT v) 0#32) else s1

/-- A write of FEED: the low NBYTES + 1 bytes, least significant first. -/
def cvFeed (v : Nat) (w : Word) (s : State) : State :=
  if s.cvBound v then s
  else
    let n := s.getF (Reg.CV_CTRL v) Fld.CV_CTRL_NBYTES + 1
    let l := (leBytes 4 w.toNat).take n
    setCvRaw v ((s.cvParams v).feed (s.cvRaw v) l) (s.addF (Reg.CV_COUNT v) Fld.CV_COUNT_BYTES n)

/-- Where a written RUN_LO waits for RUN_HI. -/
def cvHeld (v : Nat) : Nat := bank 8 (Reg.CV_RUN_LO v)

def cvRunLo (v : Nat) (w : Word) (s : State) : State := if s.cvBound v then s else s.setReg (cvHeld v) w

/-- A write of RUN_HI: the halves load R together. -/
def cvRunHi (v : Nat) (w : Word) (s : State) : State :=
  if s.cvBound v then s else setCvRaw v (w.setWidth 64 <<< 32 ||| (s.reg (cvHeld v)).setWidth 64) s

/-- A register write needs a session with at least Operator permissions (R385). -/
def asOperator (n : Fin 4) (s : State) (f : State → State) : Host.Outcome State Fault Refusal :=
  .next (if s.may n .operator then f s else s)

/-- CV_START (R310, R319): a write of CTRL with START. -/
def execCvStart (n : Fin 4) (v : Fin 8) (w : Word) (s : State) : Host.Outcome State Fault Refusal :=
  asOperator n s (cvCtrl v.val (w ||| 1#32))

/-- CV_FEED (R310, R319). -/
def execCvFeed (n : Fin 4) (v : Fin 8) (w : Word) (s : State) : Host.Outcome State Fault Refusal := asOperator n s (cvFeed v.val w)

/-- CV_RUN_LOAD (R319). -/
def execCvRunLoad (n : Fin 4) (v : Fin 8) (w : Word) (s : State) : Host.Outcome State Fault Refusal := asOperator n s (cvRunHi v.val w)

end Sys2Proof.Machine
end

