-- ==== Sys2Proof/Machine/Sas.lean ====
section
/-! DEFINITION. The ports (chapter 8): links, OPEN address frames, the initiator table, resets, XFER_RDY pacing, DATA frames in both
directions, pins that expire, and quota writes (R170 to R177, R180, R207, R215). -/

namespace Sys2Proof.Machine

/-! ### Links (R170, R171, R365) -/

def laneOf (p : Fin 2) (l : Fin 4) : Fin 8 := ⟨4 * p.val + l.val, by omega⟩

def State.linkUp (s : State) (p : Fin 2) (l : Fin 4) : Bool := s.getF (Reg.SAS_PHY_STAT p l) Fld.SAS_PHY_STAT_RATE != 0

/-- WIDE of each lane of a port: another lane that is up reports the same attached address. -/
def showWide (p : Fin 2) (s : State) : State :=
  (List.finRange 4).foldl (fun s (l : Fin 4) =>
    s.setB (Reg.SAS_PHY_STAT p l) Fld.SAS_PHY_STAT_WIDE (s.linkUp p l && (List.finRange 4).any (fun (k : Fin 4) =>
      k != l && s.linkUp p k && s.intake.attached[laneOf p k] == s.intake.attached[laneOf p l]))) s

/-- PHY_LINK_UP: an enabled phy completes SNW-3 at a supported rate. -/
def execPhyLinkUp (port : Fin 2) (lane : Fin 4) (rate : Fin 4) (attached : BitVec 64) (s : State) : Host.Outcome State Fault Refusal :=
  .next (if s.power.portsOn && rate.val != 0 then
    let s1 := s.setF (Reg.SAS_PHY_STAT port lane) Fld.SAS_PHY_STAT_RATE rate.val
    let s2 := s1.modIntake (fun i => { i with attached := i.attached.set (laneOf port lane) attached })
    (showWide port s2).setB Reg.GLB_READY (if port.val = 0 then Fld.GLB_READY_SAS0 else Fld.GLB_READY_SAS1) true
  else s)

/-- A link of a phy resets: counted in its register, which a read clears, and in log page 0x18 (R186). -/
def countLinkReset (p : Fin 2) (l : Fin 4) (s : State) : State :=
  logAdd 0x18 (laneOf p l).val 1 (s.incF (Reg.SAS_PHY_STAT p l) Fld.SAS_PHY_STAT_RESETS)

/-- PHY_LINK_LOSS. -/
def execPhyLinkLoss (port : Fin 2) (lane : Fin 4) (s : State) : Host.Outcome State Fault Refusal :=
  .next (if s.linkUp port lane then
    showWide port (countLinkReset port lane (s.setF (Reg.SAS_PHY_STAT port lane) Fld.SAS_PHY_STAT_RATE 0))
  else s)

/-! ### The initiator table (R172, R173) -/

/-- Reasons of an OPEN_REJECT, as the model numbers them. -/
def rejRetry : Nat := 0
def rejProtocol : Nat := 1
def rejRate : Nat := 2

/-- The lowest free entry. -/
def State.freeInit (s : State) : Option Nat := (List.range 2048).find? (fun i => (aget s.intake.initTab i).isNone)

/-- The unit attention a nexus holds from the moment it is formed (R366): power on, or after a data-path reset the reset. -/
def State.formUa (s : State) : Nat := if s.power.cause = 0 then 0x01 else 0x04

def openReject (f : OpenFrame) (why : Nat) (s : State) : State :=
  let s1 := sendMsg f.port.val (.openReject f.lane.val why) s
  if why = rejRetry then s1.incF (Reg.SAS_CNT_OPEN f.port) Fld.SAS_CNT_OPEN_TABLE_FULL
  else s1.incF (Reg.SAS_CNT_OPEN f.port) Fld.SAS_CNT_OPEN_PROTO

/-- OPEN_ADDRESS_FRAME (R172, R173). -/
def openFrame (f : OpenFrame) (s : State) : State :=
  if !s.linkUp f.port f.lane then s
  else if f.proto ≠ .ssp then openReject f rejProtocol s
  else if f.rate.val = 0 ∨ s.getF (Reg.SAS_PHY_STAT f.port f.lane) Fld.SAS_PHY_STAT_RATE < f.rate.val then openReject f rejRate s
  else if s.intake.initTab.any (fun e => e.2 == ⟨f.port, f.addr⟩) then sendMsg f.port.val (.openAccept f.lane.val) s
  else match s.freeInit with
    | none => openReject f rejRetry s
    | some i =>
      let s1 := s.modIntake (fun t => { t with initTab := aset t.initTab i ⟨f.port, f.addr⟩ })
      uaEveryLu i 0x29 s.formUa (sendMsg f.port.val (.openAccept f.lane.val) s1)

def execOpenAddressFrame (f : OpenFrame) (s : State) : Host.Outcome State Fault Refusal := .next (openFrame f s)

/-- Whether a nexus has a task or a waiting command. -/
def State.nexusBusy (s : State) (i : Nat) : Bool :=
  s.intake.ctxs.any (fun e => e.2.init == i && e.2.port < 2 && e.2.state != .linger)
  || s.intake.admq.any (fun w => w.frame.init.val == i)

/-- INITIATOR_IDLE_EXPIRE (R172): the entry of a nexus without a task is freed, and what was held for it goes. -/
def execInitiatorIdleExpire (i : Fin 2048) (s : State) : Host.Outcome State Fault Refusal :=
  .next (if s.nexusBusy i.val then s else s.modIntake (fun t => { t with
    initTab := adel t.initTab i.val
    uas := t.uas.filter (fun u => u.init != i.val) }))

/-! ### Hard reset and nexus loss (R177, R210) -/

/-- SAS_HARD_RESET: every nexus of the port loses its tasks and holds 0x29/0x02. -/
def execSasHardReset (port : Fin 2) (lane : Fin 4) (s : State) : Host.Outcome State Fault Refusal :=
  .next (if s.linkUp port lane then
    let s1 := abortWhere (fun x => x.port == port.val) (fun w => w.frame.port == port) (countLinkReset port lane s)
    s1.intake.initTab.foldl (fun s e => if e.2.port = port then uaEveryLu e.1 0x29 0x02 s else s) s1
  else s)

/-- I_T NEXUS LOSS TIME and INITIATOR RESPONSE TIMEOUT of an LU's Protocol-Specific Port page, with their defaults. -/
def State.lossTime (s : State) (u : Nat) : Nat :=
  let p := s.modePage u 0x19 0
  if p.length < 8 then 2000 else beNat ((p.drop 4).take 2)
def State.respTime (s : State) (u : Nat) : Nat :=
  let p := s.modePage u 0x19 0
  if p.length < 8 then 1000 else beNat ((p.drop 6).take 2)

/-- I_T_NEXUS_LOSS (R177): never declared while every declared LU's page disables it. -/
def execITNexusLoss (i : Fin 2048) (s : State) : Host.Outcome State Fault Refusal :=
  .next (if (aget s.intake.initTab i.val).isSome && s.cfg.lus.any (fun l => s.lossTime l.lu != 0xFFFF) then loseNexus i.val s else s)

/-! ### Write data (R174, R180) -/

/-- Bytes of a block of a command on the wire. -/
def Ctx.wire (x : Ctx) : Nat := 4096 + (if x.prot = 0 then 0 else piLen x.pifmt)

def State.rxOf (s : State) (c : Nat) : Option RxBurst := s.shu.rx.find? (fun r => r.ctx == c)

def modRx (c : Nat) (f : RxBurst → RxBurst) (s : State) : State :=
  { s with shu := { s.shu with rx := s.shu.rx.map (fun r => if r.ctx = c then f r else r) } }

/-- Kinds that receive a burst. -/
def receives : JobKind → Bool | .hostIn => true | .compareIn => true | _ => false

/-- Jobs in the queue of R250 or on a host channel, oldest first. -/
def State.hostJobs (s : State) : List Job := (s.shu.ch.toList.drop 16).filterMap (·.job) ++ s.shu.hostQ

/-- Jobs of a port whose XFER_RDY is still to be sent: each has entered the queue, and its command is not held. -/
def State.xferJobs (s : State) (port : Nat) : List (Job × Ctx) :=
  s.hostJobs.filterMap (fun j =>
    match s.ctx? j.ctx with
    | some x =>
      if receives j.kind && x.port == port && (s.rxOf j.ctx).isNone && !x.heldFlag && x.outstanding && decide (x.hostDone ≤ j.first)
        && x.state != .stopping then some (j, x) else none
    | none => none)

/-- The one that a port sends next: of the command admitted first. -/
def State.nextXfer (s : State) (port : Nat) : Option (Job × Ctx) :=
  (s.xferJobs port).foldl (fun (b : Option (Job × Ctx)) e => match b with
    | none => some e
    | some o => if e.2.adm < o.2.adm then some e else some o) none

/-- XFER_RDY_SEND. -/
def execXferRdySend (port : Fin 2) (s : State) : Host.Outcome State Fault Refusal :=
  .next (match s.nextXfer port.val with
    | none => s
    | some (j, x) =>
      let lo := j.first * x.wire
      let hi := (j.first + j.count) * x.wire
      let s1 := { s with shu := { s.shu with rx := s.shu.rx ++ [⟨j.ctx, lo, hi, lo, []⟩] } }
      sendMsg port.val (.xferRdy x.init x.tag lo (hi - lo)) s1)

/-- A pacing violation ends the command (R180). -/
def violate (c : Nat) (port : Nat) (asc ascq : Nat) (s : State) : State :=
  finish1 c (.check (sense keyAborted asc ascq)) (s.incF (Reg.SAS_CNT_XFER port) Fld.SAS_CNT_XFER_VIOL)

def orphan (port : Nat) (s : State) : State := s.incF (Reg.SAS_CNT_XFER port) Fld.SAS_CNT_XFER_ORPHAN

/-- Write data for a command that still waits to be admitted: it came before its XFER_RDY, and the command ends (R174). -/
def earlyData (w : Waiting) (s : State) : State :=
  showAdmq (respondTo w.frame (.check (sense keyAborted 0x4B 0x02))
    (leaveQueue w (s.incF (Reg.SAS_CNT_XFER w.frame.port) Fld.SAS_CNT_XFER_VIOL)))

/-- DATA_FRAME_RECEIVED: every frame is acknowledged; one that no task takes is discarded. -/
def dataFrame (f : DataFrame) (s : State) : State :=
  let p := f.port.val
  if !s.known p f.init.val then s else
  let s0 := sendMsg p (.ack f.init.val f.tag.toNat) s
  match s.taskOf p f.init.val f.tag.toNat with
  | none => match s.waitOf p f.init.val f.tag.toNat with
    | some w => earlyData w (orphan p s0)
    | none => orphan p s0
  | some c =>
    match s.ctx? c with
    | none => orphan p s0
    | some x =>
      if x.state == .stopping || x.abort || !x.response.isEmpty then orphan p s0
      else match s.rxOf c with
        | none => violate c p 0x4B 0x02 (orphan p s0)
        | some r =>
          if 1024 < f.data.length then violate c p 0x0E 0x02 s0
          else if f.offset ≠ r.next then violate c p 0x4B 0x05 s0
          else if r.hi < r.next + f.data.length then violate c p 0x4B 0x02 s0
          else if f.data.length < 1024 ∧ r.next + f.data.length < r.hi then violate c p 0x0E 0x01 s0
          else modRx c (fun r => { r with next := r.next + f.data.length, data := r.data ++ f.data }) s0

def execDataFrameReceived (f : DataFrame) (s : State) : Host.Outcome State Fault Refusal := .next (dataFrame f s)

/-- INITIATOR_RESPONSE_TIMEOUT: no DATA frame has come since the XFER_RDY. -/
def execInitiatorResponseTimeout (c : Fin 40960) (s : State) : Host.Outcome State Fault Refusal :=
  .next (match s.ctx? c.val, s.rxOf c.val with
    | some x, some r =>
      if r.next = r.lo ∧ r.lo < r.hi ∧ s.respTime x.lu ≠ 0 then violate c.val x.port 0x4B 0x06 s else s
    | _, _ => s)

/-- A command has a frame of the part's own on the wire: an XFER_RDY, or data it has sent. -/
def State.hasSent (s : State) (c : Nat) (x : Ctx) : Bool :=
  decide (x.port < 2) && x.state != .linger && ((s.rxOf c).isSome || (x.cls == 0 && decide (0 < x.requested)))

/-- ACK_NAK_TIMEOUT. -/
def execAckNakTimeout (c : Fin 40960) (s : State) : Host.Outcome State Fault Refusal :=
  .next (match s.ctx? c.val with
    | some x => if s.hasSent c.val x then violate c.val x.port 0x4B 0x03 s else s
    | none => s)

/-- NAK_RECEIVED. -/
def execNakReceived (c : Fin 40960) (s : State) : Host.Outcome State Fault Refusal :=
  .next (match s.ctx? c.val with
    | some x => if s.hasSent c.val x then violate c.val x.port 0x4B 0x04 s else s
    | none => s)

/-! ### Read data (R180, R198, R207, R258) -/

/-- Blocks of a command in an outbound buffer, in ascending order of offset. -/
def outBlocks (l : List OutBlock) (c : Nat) : List OutBlock := l.filter (fun b => b.ctx == c)

/-- The next frame of a command: up to 1,024 bytes, short only at the end of what it may send. -/
def frameOf (x : Ctx) (l : List OutBlock) : Option (List Byte) :=
  let bytes := l.flatMap (fun b => b.bytes.drop b.sent)
  let atEnd := match l.getLast? with | some b => b.blk + 1 == x.outLimit | none => false
  if bytes.isEmpty then none
  else if bytes.length < 1024 ∧ atEnd = false then none
  else some (bytes.take 1024)

/-- Take `n` sent bytes off the blocks of a context: the blocks left, and the numbers of those sent whole. -/
def takeSent (c : Nat) : Nat → List OutBlock → List OutBlock × List Nat
  | _, [] => ([], [])
  | n, b :: t =>
    if b.ctx ≠ c then
      let r := takeSent c n t
      (b :: r.1, r.2)
    else
      let k := min n (b.bytes.length - b.sent)
      let r := takeSent c (n - k) t
      if b.sent + k = b.bytes.length then (r.1, b.blk :: r.2) else ({ b with sent := b.sent + k } :: r.1, r.2)

/-- Every common block of a read and a later write has been sent. -/
def commonSent (x y : Ctx) : Bool :=
  (List.range x.nblk).all (fun k => decide (k < x.hostDone) || !(y.covers (x.lba + k) || y.listed.contains (x.lba + k)))

/-- Later writes that wait only for blocks of this read that are sent may go on (R198). -/
def releaseSent (c : Nat) (s : State) : State :=
  match s.ctx? c with
  | none => s
  | some x =>
    let free (y : Ctx) : Bool :=
      y.preds.contains c && y.isWrite && y.attr != .ordered && x.attr != .ordered && commonSent x y
    let ready := s.intake.ctxs.filterMap (fun e => if free e.2 && e.2.preds.all (· == c) then some (Todo.go e.1) else none)
    settleAll ready (s.modIntake (fun i => { i with ctxs := i.ctxs.map (fun e =>
      (e.1, if free e.2 then { e.2 with preds := e.2.preds.filter (· != c) } else e.2)) }))

/-- A command whose DATA frame is ready on a port: the one whose blocks stand first in the buffer. -/
def State.nextOut (s : State) (port : Fin 2) : Option (Nat × Ctx × List Byte) :=
  s.shu.hostOut[port].findSome? (fun b =>
    match s.ctx? b.ctx with
    | some x => (frameOf x (outBlocks s.shu.hostOut[port] b.ctx)).map (fun l => (b.ctx, x, l))
    | none => none)

/-- DATA_FRAME_SEND. -/
def dataSend (port : Fin 2) (s : State) : State :=
  match s.nextOut port with
  | none => s
  | some (c, x, l) =>
    let t := takeSent c l.length s.shu.hostOut[port]
    let s1 := { s with shu := { s.shu with hostOut := s.shu.hostOut.set port t.1 } }
    let s2 := sendMsg port.val (.data x.init x.tag x.requested l) s1
    let s3 := modCtx c (fun x => { x with
      requested := x.requested + l.length, hostDone := x.hostDone + t.2.length, acked := x.acked + t.2.length }) s2
    let s4 := t.2.foldl (fun s k => servedBlock c k s) s3
    readDone c (if t.2.isEmpty then s4 else releaseSent c s4)

def execDataFrameSend (port : Fin 2) (s : State) : Host.Outcome State Fault Refusal := .next (dataSend port s)

/-! ### Pins that expire (R207) -/

/-- PIN_EXPIRE: the bobbins that a lingering write keeps are released. -/
def execPinExpire (c : Fin 40960) (s : State) : Host.Outcome State Fault Refusal :=
  .next (match s.ctx? c.val with
    | some x =>
      if x.state = .linger then releaseLinger c.val s else s
    | none => s)

/-! ### Quotas (R191, R215) -/

def State.sumOver (s : State) (p : LuCfg → Bool) (f : LuCfg → Nat) : Nat :=
  s.cfg.lus.foldl (fun n l => if p l then n + f l else n) 0

/-- A write of LU u's bobbin or context quota: refused where a pool's minima would exceed its size, or the context minima 40,960. -/
def quotaWrite (u : Nat) (ctxq : Bool) (w : Word) (s : State) : State :=
  match s.luCfg u with
  | none => s
  | some l =>
    if ctxq then
      let new := Fld.INT_LU_CTX_MIN.get w
      let sum := s.sumOver (fun k => k.lu != u) (fun k => s.minCtx k.lu) + new
      if ctxCount < sum then s.setB Reg.INT_STAT Fld.INT_STAT_QUOTA_REJ true else s.setReg (bank u Reg.INT_LU_CTX) w
    else
      let p := s.poolOf l.lu
      let new := 4 * Fld.INT_LU_BOB_MIN.get w
      let sum := s.sumOver (fun k => k.lu != u && s.poolOf k.lu == p) (fun k => s.minBob k.lu) + new
      if s.poolSize p < sum then s.setB Reg.INT_STAT Fld.INT_STAT_QUOTA_REJ true else s.setReg (bank u Reg.INT_LU_BOB) w

/-- INT_LU_QUOTA_WRITE (R215): a Keeper's write of INT_LU_BOB or INT_LU_CTX for the LU its session has selected. -/
def execIntLuQuotaWrite (n : Fin 4) (ctxq : Bool) (w : Word) (s : State) : Host.Outcome State Fault Refusal :=
  .next (if s.may n .keeper then quotaWrite (s.getF (bank n.val Reg.INT_LU_SEL) Fld.INT_LU_SEL_LU) ctxq w s else s)

end Sys2Proof.Machine
end

