-- ==== Sys2Proof/Machine/Creel.lean ====
section
/-! DEFINITION. The commands of chapter 11: returns, refills of a head cache, rebuilds of a list and of a bitmap word (R242 to R247,
R327). The pop of a bobbin stands with the Shuttle. -/

namespace Sys2Proof.Machine

/-! ### Returns (R242, R245) -/

/-- The oldest return that no bitmap rebuild holds up. -/
def State.nextReturn (s : State) : Option (Nat × Nat × Bool) := s.creel.returns.find? (fun r => !s.bobWaits r.1)

/-- BOBBIN_RETURN: one released bobbin is checked and accepted, or refused on its own. -/
def execBobbinReturn (s : State) : Host.Outcome State Fault Refusal :=
  .next (match s.nextReturn with
    | none => s
    | some r =>
      let s1 := { s with creel := { s.creel with returns := s.creel.returns.erase r } }
      if r.2.2 then acceptReserve r.1 s1 else acceptBobbin r.1 r.2.1 s1)

/-! ### Refills and rebuilds (R243, R244, R246, R247) -/

/-- CREEL_CHK.REBUILD follows the lists. -/
def showRebuild (s : State) : State :=
  s.setB Reg.CREEL_CHK Fld.CREEL_CHK_REBUILD (s.creel.pools.toList.any (·.rebuild))

/-- A link word fails: recorded, raised, and the list is rebuilt (R246). -/
def linkFail (p : Fin 65) (b : Nat) (s : State) : State :=
  let s1 := (s.setB Reg.CREEL_CHK Fld.CREEL_CHK_LINK_BAD true).incF Reg.CREEL_CNT_CHK Fld.CREEL_CNT_CHK_LINK_BAD
  let s2 := (s1.setF Reg.CREEL_CHK Fld.CREEL_CHK_POOL (if p.val < 64 then p.val else 0)).setB Reg.CREEL_CHK Fld.CREEL_CHK_RES (p.val == 64)
  let s3 := (s2.setF Reg.CREEL_CHK_ADDR Fld.CREEL_CHK_ADDR_BOBBIN b).modPool p (fun l => { l with rebuild := true })
  raise 0xAC .none (showRebuild s3)

/-- HEAD_CACHE_REFILL: a head cache below 16 entries takes the bobbin at the head of its list in HBM3, and the link word of that
bobbin says which comes next. -/
def execHeadCacheRefill (p : Fin 65) (s : State) : Host.Outcome State Fault Refusal :=
  .next (
    let l := s.creel.pools[p]
    if l.rebuild || decide (16 ≤ l.cache.length) then s else
    match l.head with
    | none => s
    | some b =>
      match s.readLink p.val b with
      | none => linkFail p b s
      | some next => s.modPool p (fun l => { l with cache := l.cache ++ [b], head := next }))

/-- Thread bobbins in the order given: the link word of each names the next. -/
def threadList (p : Nat) : List Nat → State → State
  | [], s => s
  | b :: t, s => threadList p t (writeLink p b t.head? s)

/-- The free bobbins of a range that its head cache does not hold, in ascending number. -/
def State.rethread (s : State) (p : Fin 65) : List Nat :=
  ((List.range (s.listSize p.val)).map (fun i => s.listBase p.val + i)).filter
    (fun b => !s.bobOwned b && !s.creel.pools[p].cache.contains b)

/-- The ports' phys are enabled once the Creel and the cipher are ready (R365). -/
def enablePorts (s : State) : State :=
  if s.bitF Reg.GLB_READY Fld.GLB_READY_CREEL && s.bitF Reg.GLB_READY Fld.GLB_READY_CIPHER then
    ((s.modPower (fun p => { p with portsOn := true })).setB Reg.GLB_ISLAND_STAT Fld.GLB_ISLAND_STAT_SAS0_LOCK true).setB
      Reg.GLB_ISLAND_STAT Fld.GLB_ISLAND_STAT_SAS1_LOCK true
  else s

/-- Every list is built: the Creel reports ready (R247, R365). -/
def creelReady (s : State) : State :=
  if s.bitF Reg.GLB_READY Fld.GLB_READY_IMAGE && !s.creel.pools.toList.any (·.rebuild) then
    enablePorts ((s.setB Reg.CREEL_STAT Fld.CREEL_STAT_READY true).setB Reg.GLB_READY Fld.GLB_READY_CREEL true)
  else s

/-- CREEL_REBUILD_DONE (R246, R247). -/
def execCreelRebuildDone (p : Fin 65) (s : State) : Host.Outcome State Fault Refusal :=
  .next (if s.creel.pools[p].rebuild then
    let l := s.rethread p
    let s1 := (threadList p.val l s).modPool p (fun q => { q with head := l.head?, rebuild := false })
    let s2 := showRebuild s1
    if s2.bitF Reg.CREEL_STAT Fld.CREEL_STAT_READY then s2 else creelReady s2
  else s)

/-- Every list with bobbins is to be rebuilt from an all-free bitmap (R247). -/
def rebuildAll (s : State) : State :=
  showRebuild { s with creel := { pools := Vector.ofFn (fun p : Fin 65 => ⟨[], none, decide (0 < s.listSize p.val)⟩), owned := [], bitmapWait := [], returns := [] } }

/-! ### The ownership bitmap (R327) -/

/-- Whether a chain or a return that waits holds a bobbin. -/
def State.chainHas (s : State) (b : Nat) : Bool :=
  s.intake.ctxs.any (fun e => e.2.bobs.contains b) || s.creel.returns.any (fun r => r.1 == b)

/-- BITMAP_WORD_REBUILD_DONE: the word's 64 bits follow the chains. -/
def execBitmapWordRebuildDone (w : Fin 3840) (s : State) : Host.Outcome State Fault Refusal :=
  .next (if s.creel.bitmapWait.contains w.val then
    let v : BitVec 64 := (List.range 64).foldl (fun (v : BitVec 64) i => if s.chainHas (64 * w.val + i) then v ||| (1#64 <<< i) else v) 0#64
    { s with creel := { s.creel with
      owned := sset 0#64 s.creel.owned w.val v
      bitmapWait := s.creel.bitmapWait.filter (· != w.val) } }
  else s)

end Sys2Proof.Machine
end

