-- ==== Sys2Proof/Machine/Reads.lean ====
section
/-! DEFINITION. What becomes of sectors that are read (R188, R204, R206, R228, R293, R304, R318): which pass a sector belongs to, what
a slot holds, sectors that fail, passes whose sectors have all left the cipher, and reassignments of recovered blocks. -/

namespace Sys2Proof.Machine

/-! ### Passes and their sectors (R205, R440) -/

/-- The pass of actuator a that holds a slot tag, with the sector: the pass in progress, else the read pass that has ended. -/
def State.passOf (s : State) (a : Act) (tag : Nat) : Option (SchPass × PassBlk) :=
  let find (p : Option SchPass) : Option (SchPass × PassBlk) :=
    match p with
    | some p => (match p.blks.find? (fun b => b.tag == tag) with | some b => some (p, b) | none => none)
    | none => none
  match find s.sch[a].pass with
  | some r => some r
  | none => find s.sch[a].tail

/-- Cylinder and slot of a tag in its pass. -/
def SchPass.placeOf (p : SchPass) (tag : Nat) : Nat × Nat :=
  ((match p.tracks[tag / 2048]? with | some t => t.1 | none => 0), tag % 2048)

/-! ### What a slot holds (R228) -/

/-- A slot: on a guard, in the system band, holding no block, or a block of a global zone with its LU-relative LBA. -/
inductive SlotHolds
  | guard
  | system
  | noBlock
  | block (g lba : Nat) (spare : Bool)
  deriving DecidableEq, Repr

/-- The declared zone on a media zone. -/
def State.zoneOn (s : State) (act head rz j : Nat) : Option (LuCfg × Nat) :=
  s.cfg.lus.findSome? (fun l => (l.zones.find? (fun g =>
    let d := s.desc g
    d.act == act && d.head == head && d.rz == rz && d.mzone == j)).map (fun g => (l, g)))

/-- The block of ordinal q of a media zone that starts at `base`: its number among the good slots. -/
def goodIndex (prim : List Nat) (base q : Nat) : Nat := q - base - prim.countP (fun p => decide (base ≤ p) && decide (p < q))

/-- The block a slot of a recording zone holds, by ordinal. -/
def State.ordHolds (s : State) (act head rz q : Nat) (z : ZoneCfg) : SlotHolds :=
  let j := q / mediaSlots z
  if mediaZones z ≤ j then .noBlock else
  match s.zoneOn act head rz j with
  | none => .noBlock
  | some (l, g) =>
    let d := s.desc g
    let base := j * mediaSlots z
    let f := s.surface act head
    let prim : List Nat := match f with | some (f : Surface) => (f.prim.filter (fun e => e.rz == rz)).map (·.ord) | none => []
    let grown : List DefEntry := match f with | some (f : Surface) => f.grown.filter (fun e => e.rz == rz) | none => []
    let lba (b : Nat) (spare : Bool) : SlotHolds :=
      if d.cond = 0xF ∨ 65536 ≤ b ∨ (d.ztype = true ∧ d.wp ≤ b) then .noBlock else .block g ((g - l.zbase) * 65536 + b) spare
    if prim.contains q then .noBlock
    else match grown.find? (fun e => e.spare == some q) with
      | some e => lba (goodIndex prim base e.ord) true
      | none => if grown.any (fun e => e.ord == q) then .noBlock else lba (goodIndex prim base q) false

/-- The slot on a cylinder of a surface. -/
def State.slotHolds (s : State) (a : Act) (head cyl slot : Nat) : SlotHolds :=
  if cyl < 128 then .guard
  else if cyl < 1152 then .system
  else
    let zs := s.cfg.acts[a].zones
    match (List.range zs.length).find? (fun z => decide (firstDataCyl zs z ≤ cyl) && decide (cyl < firstDataCyl zs z + (match zs[z]? with | some k => k.cyls | none => 0))) with
    | none => .guard
    | some rz =>
      match zs[rz]? with
      | none => .guard
      | some z =>
        if z.nz = 0 then .noBlock else
        let i := (slot + z.nz - cyl * z.kz % z.nz) % z.nz
        s.ordHolds a.val head rz ((cyl - firstDataCyl zs rz) * z.nz + i) z

/-- The LBA marks of an internal pass's sectors that hold no block, or lie in the system band. -/
def noBlockMark : Nat := 2 ^ 44
def systemMark : Nat := 2 ^ 44 + 1

/-! ### Failing sectors (R188, R204, R318) -/

/-- The sector descriptor of a sector that failed to be read. -/
def sectorDesc (a : Act) (p : SchPass) (f : FailedSector) : List Byte :=
  let pl := p.placeOf f.slot
  descBytes a.val p.head f.outcome (b2n f.marks.paFault + 2 * b2n f.marks.warpErr + 4 * b2n f.marks.holdover) pl.1 pl.2

/-- A MEDIA record (R414): kind, actuator, head, cylinder, slot, LU, LBA and the STAMP found (log entry 18). -/
def mediaRecord (kind : Nat) (a : Act) (p : SchPass) (tag lu lba stamp : Nat) (s : State) : State :=
  let pl := p.placeOf tag
  recordNow 0x0004 (leBytes 1 kind ++ leBytes 1 a.val ++ leBytes 1 p.head ++ leBytes 4 pl.1 ++ leBytes 2 pl.2 ++ leBytes 1 lu
    ++ leBytes 6 lba ++ leBytes 4 stamp) s

/-- What a sector that stays unread ends its command with (R204, R187). -/
def readFailure (why : Nat) : Sense :=
  match why with
  | 8 => sense keyMedium 0x81 0x02
  | 9 => sense keyMedium 0x81 0x00
  | 10 => sense keyMedium 0x81 0x01
  | _ => sense keyMedium 0x11 0x00

/-- Re-reads of a block: those for UNREC and REVOLUTION under its number, those for a failed check above them. -/
def rereadKey (f : FailedSector) (blk : Nat) : Nat := if 8 ≤ f.why then blk + 4096 else blk

def State.rereadMax (s : State) (f : FailedSector) : Nat :=
  if 8 ≤ f.why then 1 else s.getF Reg.INT_CFG Fld.INT_CFG_RD_REV_MAX

/-- The page of R186 that counts a command's errors. -/
def Ctx.errPage (x : Ctx) : Option Nat := if x.cls = 0 then some 0x03 else if x.cls = 1 then some 0x02 else if x.cls = 2 then some 0x05 else none

/-- A counter of a command's error page rises (log entry 14): 1 recovered with a delay, 2 re-reads or rewrites, 3 recovered in all, 5 bytes, 6 not
recovered. -/
def logError (x : Ctx) (param n : Nat) (s : State) : State := match x.errPage with | some g => logAdd g param n s | none => s

/-- A sector of a host pass failed: it is read again on a later revolution, or it ends its read, verify or reassignment. -/
def concludeHost (a : Act) (p : SchPass) (b : PassBlk) (f : FailedSector) (s : State) : State :=
  match s.ctx? b.ctx with
  | none => s
  | some x =>
    let k := rereadKey f b.blk
    let n := (aget x.rereads k).getD 0
    if n < s.rereadMax f then putCtx b.ctx { x with rereads := aset x.rereads k (n + 1) } (logError x 2 1 s)
    else
      let s := logError x 6 1 s
      let e : Sense := { readFailure f.why with sdesc := some (sectorDesc a p f) }
      if x.cls = 5 then finish1 b.ctx (.check (e.at b.lba)) s else failRead b.ctx b.lba e s

/-- Work off the failed sectors of the host passes of actuator a; those of a pass that is gone are dropped. An internal pass looks at
its own at its end. -/
def concludeFailed (a : Act) (s : State) : State :=
  let isInternal (f : FailedSector) : Bool :=
    match s.passOf a f.slot with | some (p, _) => p.kind != .host | none => false
  let fs := s.chan[a].failed
  let s1 := s.modChan a (fun c => { c with failed := fs.filter isInternal })
  (fs.filter (fun f => !isInternal f)).foldl (fun s f =>
    match s.passOf a f.slot with
    | some (p, b) => concludeHost a p b f s
    | none => s) s1

/-- The sectors of the read pass that ended have all left: what failed is concluded and its zone keys are released. -/
def retireTail (a : Act) (s : State) : State :=
  match s.sch[a].tail with
  | none => s
  | some p =>
    let s1 := concludeFailed a s
    releaseKeys p.keys (s1.modSch a (fun h => { h with tail := none }))

/-! ### Reassignment of a recovered block (R204) -/

/-- A block that was recovered only in a retry decoder's second pass or on a re-read is placed: an internal reassignment follows its
command in effective order, with the bobbin of the block. -/
def spawnReassign (c k b i : Nat) (s : State) : State :=
  match s.ctx? c with
  | none => s
  | some x =>
    match x.srcs.find? (fun t => t.1 == k), s.freeCtx (Config.ctxStart s.free), x.segs.find? (fun g => decide (g.base ≤ k) && decide (k < g.base + g.count)) with
    | some t, some n, some g =>
      if x.cls = 5 then s else
      let start := g.start + (k - g.base)
      let y : Ctx := { x with
        state := .waiting, attr := .simple, heldFlag := false, pinned := false, abort := false, port := 2, tag := 0
        cdb := zeros 16, lba := g.zone * 65536 + start, nblk := 1, seq := x.seq + 1, adm := s.intake.nextSeq, admitT := s.now
        segs := [{ g with base := i, start := start, count := 1, done := 0, passes := 0 }]
        hostDone := 0, err := none, cls := 5, reserve := false, bobs := [b], credits := 0, preds := [], placed := [i]
        queuedAt := s.now, param := [], response := [], taken := [], rereads := [], slotEnds := [], contd := [], queuedOnce := false
        pinFrom := [], pinCnt := 0, requested := 0, outstanding := false, acked := 0, doom := none, part := false, saved := false
        phase := 1, srcs := [(i, t.2.1, t.2.2.1, t.2.2.2)], moved := [] }
      let s1 := { s with free := s.free + 1, intake := { s.intake with
        nextSeq := s.intake.nextSeq + 1
        ctxs := aset (s.intake.ctxs.map (fun (e : Nat × Ctx) => (e.1, if x.seq < e.2.seq then { e.2 with seq := e.2.seq + 1 } else e.2))) n y } }
      let s2 := s1.setF Reg.INT_STAT Fld.INT_STAT_CTX_FREE (s1.ctxFree - 1)
      let s3 := if s2.isPinned b then s2 else setPinned b x.lu true s2
      settleAll [.go n] (linkOrder n (s3.incF Reg.INT_CNT_MEDIA Fld.INT_CNT_MEDIA_AUTO_REASSIGN))
    | _, _, _ => s

end Sys2Proof.Machine
end

