-- ==== Sys2Proof/Machine/Shuttle.lean ====
section
/-! DEFINITION. The Shuttle (chapter 12, R312 to R315): jobs, the instructions of a channel, the handling of one block, pacing, bus
errors and halts, and the pops of bobbins (R241). -/

namespace Sys2Proof.Machine

/-! ### The program store (R249, R252, R253) -/

def kindIdx : JobKind → Nat | .hostIn => 0 | .hostOut => 1 | .mediaOut => 2 | .mediaIn => 3 | .compareIn => 4

/-- A MOVE's fields. -/
structure Move where
  src : Nat
  dst : Nat
  count : Nat
  cvu : Nat
  cvop : Nat
  pi : Bool
  retry : Nat
  pop : Bool
  place : Bool
  cmp : Bool
  deriving DecidableEq, Repr

inductive ShuInstr
  | fin
  | move (m : Move)
  | loop (target count : Nat) (untilDone : Bool)
  | wait (cond tmo : Nat)
  | signal (event : Nat)
  deriving DecidableEq, Repr

/-- Bits [hi:lo] of an instruction. -/
def ib (w : BitVec 64) (hi lo : Nat) : Nat := w.toNat / 2 ^ lo % 2 ^ (hi + 1 - lo)

/-- An instruction word (R252); a word with a reserved OP, which the loader refuses (R255), ends the program. -/
def shuDecode (w : BitVec 64) : ShuInstr :=
  match ib w 3 0 with
  | 1 => .move ⟨ib w 7 4, ib w 11 8, ib w 23 12, ib w 26 24, ib w 28 27, ib w 29 29 == 1, ib w 32 30, ib w 33 33 == 1, ib w 34 34 == 1, ib w 35 35 == 1⟩
  | 2 => .loop (ib w 11 4) (ib w 23 12) (ib w 24 24 == 1)
  | 3 => .wait (ib w 7 4) (ib w 31 16)
  | 4 => .signal (ib w 7 4)
  | _ => .fin

def bankIdx (b : Bool) : Fin 2 := if b then 1 else 0

/-- The instruction at an index of a program of a bank; past the program's end, END. -/
def State.shuWord (s : State) (bank : Bool) (prog pc : Nat) : BitVec 64 :=
  let e := s.shu.info[bankIdx bank].getD prog (0, 0)
  if pc < e.2 then s.shu.store[bankIdx bank].getD (e.1 + pc) 0#64 else 0#64

def State.shuInstr (s : State) (d : Fin 64) : ShuInstr :=
  let c := s.shu.ch[d]
  shuDecode (s.shuWord c.bank c.prog c.pc)

def mediaCh (a : Act) : Fin 64 := ⟨a.val, by omega⟩
def hostCh (k : Fin 48) : Fin 64 := ⟨16 + k.val, by omega⟩

/-- A channel takes a job on the bank in force (R250, R263). -/
def startCh (d : Fin 64) (j : Job) (s : State) : State :=
  let prog := s.shu.kinds[bankIdx s.shu.bank].getD (kindIdx j.kind) 0
  putCh d { chIdle with state := .run, job := some j, bank := s.shu.bank, prog := prog, returned := s.shu.ch[d].returned }
    (s.incF Reg.SHU_CNT_JOB Fld.SHU_CNT_JOB_JOBS)

/-! ### Media jobs (R249, R251) -/

/-- The next context of a pass whose media job is not yet posted, with its segment. -/
def State.nextMedia (s : State) (p : SchPass) : Option (Nat × Seg) :=
  p.blks.findSome? (fun b =>
    if p.posted.contains b.ctx || b.erase then none
    else match s.ctx? b.ctx with
      | some x => (x.segs[b.seg]?).map (fun g => (b.ctx, g))
      | none => none)

/-- The job of a pass, or of the next write appended to it, goes to media channel a, which is free. -/
def postMedia (a : Act) (s : State) : State :=
  match s.sch[a].pass with
  | none => s
  | some p =>
    match p.kind with
    | .internal _ => s
    | .host =>
      if s.shu.ch[mediaCh a].state != .idle then s else
      match s.nextMedia p with
      | none => s
      | some (c, g) =>
        let j : Job := ⟨if p.write then .mediaOut else .mediaIn, c, g.base + g.done, g.count - g.done⟩
        startCh (mediaCh a) j (s.modSch a (fun h => { h with pass := some { p with posted := p.posted ++ [c] } }))

/-! ### Host jobs (R249, R250) -/

/-- Whether a command has a host job anywhere. -/
def State.hasHostJob (s : State) (c : Nat) : Bool :=
  s.hostJobs.any (fun j => j.ctx == c) || s.shu.overflow.any (fun j => j.ctx == c)

def showQueue (s : State) : State := s.setF Reg.SHU_JOBQ Fld.SHU_JOBQ_QUEUED s.shu.hostQ.length

/-- A host job enters the queue, or is kept in its context while the queue is full. -/
def postHost (j : Job) (s : State) : State :=
  if s.shu.hostQ.length < 4096 ∧ s.shu.overflow = [] then showQueue { s with shu := { s.shu with hostQ := s.shu.hostQ ++ [j] } }
  else { s with shu := { s.shu with overflow := s.shu.overflow ++ [j] } }

/-- Bytes asked for, or about to be, and not yet received on a port (R180). -/
def State.owed (s : State) (port : Nat) : Nat :=
  s.intake.ctxs.foldl (fun n e =>
    if e.2.outstanding ∧ e.2.port = port then
      match s.rxOf e.1 with
      | some r => n + (r.hi - r.next)
      | none => n + (e.2.requested - e.2.hostDone) * e.2.wire
    else n) 0

def State.burstBlocks (s : State) (port : Nat) : Nat := atLeast1 (s.getF (Reg.SAS_XR_CFG port) Fld.SAS_XR_CFG_BURST)
def State.window (s : State) (port : Nat) : Nat := 262144 * atLeast1 (s.getF (Reg.SAS_XR_CFG port) Fld.SAS_XR_CFG_WINDOW)

/-- The oldest command of a port, in admission order, that still expects data and has no burst outstanding. -/
def State.nextBurst (s : State) (port : Nat) : Option (Nat × Ctx) :=
  (s.intake.ctxs.filter (fun e => e.2.port == port && e.2.dataOut && e.2.state == .dataIn && !e.2.heldFlag && !e.2.outstanding
    && decide (e.2.hostDone < e.2.nblk) && (!e.2.compares || e.2.allHere) && !s.hasHostJob e.1)).foldl
    (fun (b : Option (Nat × Ctx)) e => match b with
      | none => some e
      | some o => if e.2.adm < o.2.adm then some e else some o) none

/-- A port posts the job of its next XFER_RDY while its requested-not-received bytes are below WINDOW. -/
def postBurst (port : Nat) (s : State) : State :=
  if s.window port ≤ s.owed port then s else
  match s.nextBurst port with
  | none => s
  | some (c, x) =>
    let n := min (x.nblk - x.hostDone) (s.burstBlocks port)
    postHost ⟨if x.cls = 1 then .hostIn else .compareIn, c, x.hostDone, n⟩
      (putCtx c { x with requested := x.hostDone + n, outstanding := true } s)

/-- Intake posts the job that sends a read's data, when its first block is there. -/
def postHostOut (c : Nat) (s : State) : State :=
  match s.ctx? c with
  | none => s
  | some x =>
    if x.cls == 0 && x.state != .linger && x.state != .stopping && decide (x.port < 2) && decide (0 < x.nblk)
      && (!x.placed.isEmpty || !x.pinFrom.isEmpty) && !s.hasHostJob c
      && (x.state == .media || x.state == .dataOut || x.state == .queued) then
      postHost ⟨.hostOut, c, 0, x.nblk⟩ s
    else s

/-- JOB_POST (R249, R250, R251). -/
def execJobPost (j : JobPost) (s : State) : Host.Outcome State Fault Refusal :=
  .next (match j with
    | .burst port => postBurst port.val s
    | .hostOut c => postHostOut c.val s
    | .media a => postMedia a s)

/-- The lowest-numbered free host channel. -/
def State.freeHost (s : State) : Option (Fin 64) := ((List.finRange 48).map hostCh).find? (fun d => s.shu.ch[d].state == .idle)

/-- A job kept in its context enters the queue as soon as a place frees. -/
def fillQueue (s : State) : State :=
  match s.shu.overflow with
  | j :: t => if s.shu.hostQ.length < 4096 then { s with shu := { s.shu with hostQ := s.shu.hostQ ++ [j], overflow := t } } else s
  | [] => s

/-- HOST_JOB_DEQUEUE (R250). -/
def execHostJobDequeue (s : State) : Host.Outcome State Fault Refusal :=
  .next (match s.freeHost, s.shu.hostQ with
    | some d, j :: t => startCh d j (showQueue (fillQueue { s with shu := { s.shu with hostQ := t } }))
    | _, _ => s)

/-! ### Flow of a program -/

def modCh (d : Fin 64) (f : ShuCh → ShuCh) (s : State) : State := putCh d (f s.shu.ch[d]) s

/-- On to the next instruction. -/
def nextInstr (d : Fin 64) (s : State) : State := modCh d (fun c => { c with pc := c.pc + 1, moving := none, fails := 0, retryDue := false }) s

def State.running (s : State) (d : Fin 64) : Bool := s.shu.ch[d].state == .run

/-- Blocks left of a channel's range. -/
def ShuCh.left (c : ShuCh) : Nat := match c.job with | some j => j.count - c.cursor | none => 0

/-- SHUTTLE_END: the channel frees itself; a write appended to the pass follows on a media channel. -/
def execShuttleEnd (d : Fin 64) (s : State) : Host.Outcome State Fault Refusal :=
  .next (if s.running d && s.shuInstr d == .fin then
    let s1 := idleCh d s
    if h : d.val < 16 then postMedia ⟨d.val, h⟩ s1 else s1
  else s)

/-- SHUTTLE_MOVE: a MOVE begins. One that has no block to move ends at once, but for a MEDIA_IN job's, which waits for its pass. -/
def execShuttleMove (d : Fin 64) (s : State) : Host.Outcome State Fault Refusal :=
  .next (if s.running d && s.shu.ch[d].moving.isNone then
    match s.shuInstr d with
    | .move m =>
      let c := s.shu.ch[d]
      let n := if m.count = 0 then c.left else min m.count c.left
      if n = 0 ∧ ¬(m.src = 4 ∧ m.count = 0) then nextInstr d s
      else modCh d (fun c => { c with moving := some n }) s
    | _ => s
  else s)

/-- SHUTTLE_LOOP (R256). -/
def execShuttleLoop (d : Fin 64) (s : State) : Host.Outcome State Fault Refusal :=
  .next (if s.running d then
    match s.shuInstr d with
    | .loop target count untilDone =>
      let c := s.shu.ch[d]
      if untilDone then (if 0 < c.left then modCh d (fun c => { c with pc := target }) s else nextInstr d s)
      else
        let n := match c.counter with | none => count | some k => k - 1
        if n = 0 then modCh d (fun c => { c with counter := none, pc := c.pc + 1 }) s
        else modCh d (fun c => { c with counter := some n, pc := target }) s
    | _ => s
  else s)

/-! ### Buffers and pacing (R257) -/

def State.hostFill (s : State) (port : Fin 2) : Nat := s.shu.hostOut[port].foldl (fun n b => n + (b.bytes.length - b.sent)) 0
def State.cipherFill (s : State) (a : Act) : Nat := s.shu.cipherOut[a].foldl (fun n b => n + b.data.length + b.pi.length) 0

def State.hiHo (s : State) : Nat := max 1 (min 123 (s.getF Reg.SHU_PACE_HO Fld.SHU_PACE_HO_HI))
def State.loHo (s : State) : Nat := min (s.hiHo - 1) (s.getF Reg.SHU_PACE_HO Fld.SHU_PACE_HO_LO)
def State.hiCo (s : State) : Nat := max 1 (min 27 (s.getF Reg.SHU_PACE_CO Fld.SHU_PACE_CO_HI))
def State.loCo (s : State) : Nat := min (s.hiCo - 1) (s.getF Reg.SHU_PACE_CO Fld.SHU_PACE_CO_LO)

/-- The port of a channel's job. -/
def State.chPort (s : State) (d : Fin 64) : Fin 2 :=
  match s.shu.ch[d].job with
  | some j => (match s.ctx? j.ctx with | some x => Fin.ofNat 2 x.port | none => 0)
  | none => 0

/-- Fill, in bytes, of the buffer a channel writes to, with HI and LO in KiB. -/
def State.paceOf (s : State) (d : Fin 64) : Nat × Nat × Nat :=
  if h : d.val < 16 then (s.cipherFill ⟨d.val, h⟩, s.hiCo, s.loCo) else (s.hostFill (s.chPort d), s.hiHo, s.loHo)

def State.atHi (s : State) (d : Fin 64) : Bool := let p := s.paceOf d; decide (1024 * p.2.1 ≤ p.1)
def State.atLo (s : State) (d : Fin 64) : Bool := let p := s.paceOf d; decide (p.1 ≤ 1024 * p.2.2)

/-- The channel holds at HI. -/
def paceHold (d : Fin 64) (s : State) : State :=
  (modCh d (fun c => { c with state := .paced }) s).incF Reg.SHU_CNT_PACE
    (if d.val < 16 then Fld.SHU_CNT_PACE_CO else Fld.SHU_CNT_PACE_HO)

/-- PACE_RESUME. -/
def execPaceResume (d : Fin 64) (s : State) : Host.Outcome State Fault Refusal :=
  .next (if s.shu.ch[d].state == .paced && s.atLo d then modCh d (fun c => { c with state := .run }) s else s)

/-! ### WAIT (R252) -/

/-- The condition of a WAIT. Blocks at or after a read's first failure are never placed (R206). -/
def State.waitMet (s : State) (d : Fin 64) (cond : Nat) : Bool :=
  let c := s.shu.ch[d]
  match c.job with
  | none => true
  | some j =>
    match s.ctx? j.ctx with
    | none => true
    | some x =>
      let k := j.first + c.cursor
      match cond with
      | 0 => (List.range (min 16 (min c.left (x.outLimit - k)))).all (fun i => x.has (k + i))
      | 1 => s.atLo d
      | 2 => decide (k ≤ x.acked)
      | _ => true

/-- SHUTTLE_WAIT. -/
def execShuttleWait (d : Fin 64) (s : State) : Host.Outcome State Fault Refusal :=
  .next (if s.running d then
    match s.shuInstr d with
    | .wait cond _ => if s.waitMet d cond then nextInstr d s else modCh d (fun c => { c with state := .wait }) s
    | _ => s
  else s)

/-- WAIT_CONDITION_MET. -/
def execWaitConditionMet (d : Fin 64) (s : State) : Host.Outcome State Fault Refusal :=
  .next (match s.shu.ch[d].state, s.shuInstr d with
    | .wait, .wait cond _ => if s.waitMet d cond then nextInstr d (modCh d (fun c => { c with state := .run }) s) else s
    | _, _ => s)

/-! ### Halts (R259 to R261) -/

/-- Sectors of an actuator that are still decoded, opened or wait to be placed are discarded. -/
def dropDecoding (a : Act) (s : State) : State :=
  let s1 := s.modChan a (fun c => { c with decoding := [], retryReq := [], out := [] })
  { s1 with
    retry := s1.retry.map (fun j => match j with | some j => if j.act = a then none else some j | none => none)
    shu := { s1.shu with cipherIn := s1.shu.cipherIn.set a [] }
    cip := { s1.cip with cores := s1.cip.cores.map (fun k => match k with
      | some (.dec b _) => if b = a then none else k
      | _ => k) } }

def haltSense : Sense := sense keyHardware 0x85 0x02

/-- What a halt means for the job's command (R260). -/
def haltEnds (d : Fin 64) (j : Job) (k : Nat) (s : State) : State :=
  match s.ctx? j.ctx with
  | none => s
  | some x =>
    match j.kind with
    | .hostIn | .compareIn => finish1 j.ctx (.check (haltSense.at (x.lba + x.hostDone))) s
    | .hostOut => failRead j.ctx (x.lba + k) haltSense s
    | .mediaOut => doomTask haltSense s j.ctx
    | .mediaIn =>
      let s1 := trimPass j.ctx (if h : d.val < 16 then dropDecoding ⟨d.val, h⟩ s else s)
      if x.cls == 5 then finish1 j.ctx (.check (haltSense.at x.firstUndone)) s1 else failRead j.ctx x.firstUndone haltSense s1

/-- A channel halts: recorded, raised, and the command of its job ends. A media channel that halts again within a second of
returning stays halted, and its actuator stops as for Unit Stop. -/
def haltCh (d : Fin 64) (cause addr : Nat) (s : State) : State :=
  let c := s.shu.ch[d]
  let sev := s.sevOf 0xAD
  let again := match c.returned with | some t => decide (s.now - t < 1000000) | none => false
  let s1 := s.setReg (bank d.val Reg.SHU_CH_ERR) (BitVec.ofNat 32 (cause + 8 * (addr / 64 % 2 ^ 28)))
  let s2 := modCh d (fun c => { c with state := .halted, stopped := decide (d.val < 16) && (again || decide (2 ≤ sev)) }) s1
  let s3 := s2.incF Reg.SHU_CNT_ERR Fld.SHU_CNT_ERR_HALT
  let s4 := if h : d.val < 16 then raise 0xAD (.act ⟨d.val, h⟩) s3 else raise 0xAD .none s3
  let s5 := match c.job with | some j => haltEnds d j (j.first + c.cursor) s4 | none => s4
  if h : d.val < 16 then (if again && decide (sev < 2) then unitStop (.act ⟨d.val, h⟩) s5 else s5) else s5

/-- WAIT_TIMEOUT: a WAIT with a time-out expires. -/
def execWaitTimeout (d : Fin 64) (s : State) : Host.Outcome State Fault Refusal :=
  .next (match s.shu.ch[d].state, s.shuInstr d with
    | .wait, .wait _ tmo => if tmo = 0 then s else haltCh d 5 0 s
    | _, _ => s)

def causeCode : BusCause → Nat | .readUncorrectable => 1 | .writeError => 2 | .crossing => 3

/-- BUS_ERROR: an access of the block in progress fails; it is repeated while the instruction has retries left. -/
def execBusError (d : Fin 64) (cause : BusCause) (addr : BitVec 34) (s : State) : Host.Outcome State Fault Refusal :=
  .next (match s.shuInstr d with
    | .move m =>
      let c := s.shu.ch[d]
      if s.running d && c.moving.isSome && decide (0 < c.left) && !c.retryDue then
        let s1 := s.incF Reg.SHU_CNT_ERR Fld.SHU_CNT_ERR_RETRY
        if c.fails < m.retry then modCh d (fun c => { c with fails := c.fails + 1, retryDue := true }) s1
        else haltCh d (causeCode cause) addr.toNat s1
      else s
    | _ => s)

/-- BUS_RETRY: the failed access is issued again, the check-value unit back at its value at the start of the block (R312). -/
def execBusRetry (d : Fin 64) (s : State) : Host.Outcome State Fault Refusal :=
  .next (if s.running d && s.shu.ch[d].retryDue then modCh d (fun c => { c with retryDue := false, runRaw := c.startRaw }) s else s)

/-- A halted channel returns to IDLE. -/
def clearCh (d : Fin 64) (s : State) : State :=
  if s.shu.ch[d].state == .halted then putCh d { chIdle with returned := some s.now } s else s

/-- SHUTTLE_CLEAR: a write of CLEAR for the channel that the session has selected. -/
def execShuttleClear (n : Fin 4) (s : State) : Host.Outcome State Fault Refusal :=
  .next (if s.may n .operator then clearCh (Fin.ofNat 64 (s.getF (bank n.val Reg.SHU_CH_SEL) Fld.SHU_CH_SEL_CH)) s else s)

/-- MEDIA_CHANNEL_AUTO_CLEAR: 1 ms after a halt that stopped nothing. -/
def execMediaChannelAutoClear (a : Act) (s : State) : Host.Outcome State Fault Refusal :=
  .next (if s.shu.ch[mediaCh a].stopped then s else clearCh (mediaCh a) s)

/-! ### One block (R254, R313 to R315) -/

/-- The internal CRC of a block through unit v: the low 32 bits of the result. -/
def State.icrcOf (s : State) (v : Nat) (data pi : List Byte) : BitVec 64 :=
  let p := s.cvParams v
  p.feed p.start (data ++ padTo 16 pi)

def State.icrcValue (s : State) (v : Nat) (raw : BitVec 64) : Nat := ((s.cvParams v).result raw).toNat % 2 ^ 32

/-- Where block k of a command lies: its own chain, or the chain of the write it is to be served from (R207). -/
def State.homeOf (s : State) (x : Ctx) (k : Nat) : Option (Nat × Nat) :=
  match x.pinFrom.find? (fun p => p.2 == x.lba + k) with
  | some p => (match s.ctx? p.1 with | some w => blockHome w.bobs (w.blkOf p.2) | none => none)
  | none => blockHome x.bobs k

/-- The protection type of an LU. -/
def State.ptype (s : State) (u : Nat) : Nat := match s.luCfg u with | some l => l.ptype | none => 0

/-- The LBA of block k of a command. -/
def Ctx.lbaOf (x : Ctx) (k : Nat) : Nat :=
  match x.segs.find? (fun g => decide (g.base ≤ k) && decide (k < g.base + g.count)) with
  | some g => g.zone * 65536 + g.start + (k - g.base)
  | none => x.lba + k

/-- The block is done: the cursor moves on, and the MOVE ends with its last block. -/
def blockDone (d : Fin 64) (raw0 raw : BitVec 64) (s : State) : State :=
  let s1 := modCh d (fun c => { c with
    cursor := c.cursor + 1, fails := 0, retryDue := false, startRaw := raw0, runRaw := raw, moving := c.moving.map (· - 1) }) s
  if s1.shu.ch[d].moving = some 0 then nextInstr d s1 else s1

/-- A block whose check fails ends its job's command, and the program ends without a halt (R183, R254, R314). -/
def endBlock (d : Fin 64) (j : Job) (x : Ctx) (k : Nat) (e : Sense) (s : State) : State :=
  match j.kind with
  | .hostIn | .compareIn => finish1 j.ctx (.check e) (idleCh d s)
  | .mediaOut => doomTask e (idleCh d s) j.ctx
  | .hostOut | .mediaIn => failRead j.ctx (x.lbaOf k) e (idleCh d s)

/-- The sense of a failed PI check of block k (R183). -/
def piSense (x : Ctx) (k q : Nat) : Sense := { sense keyAborted 0x10 q with info := some (x.lbaOf k) }

/-- A block fails its internal CRC (R314). -/
def icrcFail (d : Fin 64) (j : Job) (x : Ctx) (k : Nat) (s : State) : State :=
  let e := { sense keyHardware 0x85 0x00 with info := some (x.lbaOf k) }
  let counted := match j.kind with
    | .hostOut => s.incF Reg.CV_CNT_ICRC Fld.CV_CNT_ICRC_TO_HOST
    | .mediaOut => s.incF Reg.CV_CNT_ICRC Fld.CV_CNT_ICRC_TO_MEDIA
    | _ => s
  endBlock d j x k e (raise 0xB0 (.lu x.lu) counted)

/-- A block in the bobbins that has not been placed is not read (R235). -/
def unplaced (d : Fin 64) (j : Job) (x : Ctx) (k : Nat) (s : State) : State :=
  let e := { sense keyHardware 0x85 0x00 with info := some (x.lbaOf k) }
  if j.kind == .hostOut then failRead j.ctx (x.lbaOf k) e (idleCh d s) else doomTask e (idleCh d s) j.ctx

/-- CVOP 0b01 stores the internal CRC of a block (R254, R313). -/
def storeIcrc (m : Move) (b i : Nat) (raw : BitVec 64) (s : State) : State :=
  if m.cvop = 1 then s.hbmWrite (sideAddr b + 48 + 24 * i) (leBytes 4 (s.icrcValue m.cvu raw)) else s

/-- A block lands in the chain, or is compared with what a comparison has read or is served from a write's bobbins (R207): POP waits for the Creel's
pop, and a place beyond the chain halts the channel. -/
def landBlock (d : Fin 64) (m : Move) (j : Job) (x : Ctx) (k : Nat) (data pi : List Byte) (take : State → State) (s : State) : State :=
  match (if m.cmp then s.homeOf x k else blockHome x.bobs k) with
  | none => if m.pop ∧ 0 < x.credits then s else haltCh d 4 0 s
  | some (b, i) =>
    if b = 0x3FFFF then haltCh d 4 0 s else
    let raw0 := (s.cvParams m.cvu).start
    let raw := if m.cvop = 0 then 0#64 else s.icrcOf m.cvu data pi
    if m.cvop = 2 ∧ s.icrcValue m.cvu raw ≠ s.blockIcrc b i then icrcFail d j x k s else
    let s0 := storeIcrc m b i raw (take s)
    if m.cmp then
      if s.blockData b i = data then blockDone d raw0 raw (servedBlock j.ctx k (modCtx j.ctx (fun x => { x with hostDone := x.hostDone + 1 }) s0))
      else finish1 j.ctx (.check { sense keyMiscompare 0x1D 0x00 with info := some (x.lbaOf k) }) s0
    else
      let s2 := writeBlock b i data pi s0
      let s3 := if m.place then setPlaced b i s2 else s2
      let s4 := modCtx j.ctx (fun x =>
        if j.kind == .mediaIn then (if m.place then { x with placed := if x.placed.contains k then x.placed else x.placed ++ [k] } else x)
        else { x with hostDone := x.hostDone + 1 }) s3
      let s4 := if j.kind == .mediaIn && m.place then logError x 5 4096 s4 else s4
      let s5 := if j.kind == .mediaIn && m.place && x.srcs.any (fun t => t.1 == k) then spawnReassign j.ctx k b i s4 else s4
      blockDone d raw0 raw s5

/-- Host data to a bobbin, or compared with it. -/
def moveIn (d : Fin 64) (m : Move) (j : Job) (x : Ctx) (s : State) : State :=
  let k := j.first + s.shu.ch[d].cursor
  match s.rxOf j.ctx with
  | none => s
  | some r =>
    if r.data.length < x.wire then s
    else
      let data := r.data.take 4096
      let pi0 := (r.data.take x.wire).drop 4096
      let take (s : State) : State := modRx j.ctx (fun r => { r with data := r.data.drop x.wire }) s
      let t := s.ptype x.lu
      let pi := if x.prot = 0 then (if m.pi ∧ x.cls = 1 then genPi x.pifmt t (x.lbaOf k) data else []) else pi0
      match (if m.pi ∧ x.prot ≠ 0 then piCheck x.pifmt t x.prot x.lba (x.lbaOf k) data pi0 else none) with
      | some q => endBlock d j x k (piSense x k q) s
      | none => landBlock d m j x k data pi take s

/-- A block of a bobbin as a MOVE reads it: its data, its PI field, and whether its internal CRC passes. -/
def State.fetchBlock (s : State) (m : Move) (b i : Nat) : List Byte × List Byte × BitVec 64 × Bool :=
  let data := s.blockData b i
  let pi := s.blockPi b i
  let raw := if m.cvop = 0 then 0#64 else s.icrcOf m.cvu data pi
  (data, pi, raw, m.cvop != 2 || s.icrcValue m.cvu raw == s.blockIcrc b i)

/-- Bobbin to the host (R206: nothing at or after the first failure). -/
def moveOut (d : Fin 64) (m : Move) (j : Job) (x : Ctx) (s : State) : State :=
  let k := j.first + s.shu.ch[d].cursor
  if x.outLimit ≤ k then readDone j.ctx (idleCh d s)
  else if s.atHi d then paceHold d s
  else match s.homeOf x k with
    | none => haltCh d 4 0 s
    | some (b, i) =>
      if !(x.has k) || !s.isPlaced b i then unplaced d j x k s
      else
        let f := s.fetchBlock m b i
        let pi := f.2.1.take (piLen x.pifmt)
        match (if m.pi then piCheck x.pifmt (s.ptype x.lu) x.prot x.lba (x.lbaOf k) f.1 pi else none) with
        | some q => endBlock d j x k (piSense x k q) s
        | none =>
          if !f.2.2.2 then icrcFail d j x k s
          else
            let bytes := if x.prot = 0 then f.1 else f.1 ++ pi
            let p : Fin 2 := Fin.ofNat 2 x.port
            let s := storeIcrc m b i f.2.2.1 s
            blockDone d (s.cvParams m.cvu).start f.2.2.1
              { s with shu := { s.shu with hostOut := s.shu.hostOut.set p (s.shu.hostOut[p] ++ [⟨j.ctx, k, bytes, 0⟩]) } }

/-- The trailer values of a block to be written (R271, R272, R290, R296): STAMP, ATTEMPT, FILL. The block at
the write pointer of a sequential zone takes the zone's ATTEMPT, every other block 0. -/
def State.trailer (s : State) (x : Ctx) (b : PassBlk) : Nat × Nat × Bool :=
  if x.cls = 5 then
    match x.srcs.find? (fun t => t.1 == b.blk) with
    | some t => (t.2.1, t.2.2.1, t.2.2.2)
    | none => (0, 0, false)
  else if (s.desc b.zone).ztype then ((s.desc b.zone).stamp, if b.lba % 65536 = (s.desc b.zone).wp then (s.desc b.zone).attempt else 0, false)
  else ((aget x.taken b.seg).getD 0, 0, false)

/-- Bobbin to the cipher. -/
def moveCipher (d : Fin 64) (a : Act) (m : Move) (j : Job) (x : Ctx) (s : State) : State :=
  let k := j.first + s.shu.ch[d].cursor
  match s.sch[a].pass with
  | none => s
  | some p =>
    match p.blks.find? (fun b => b.ctx == j.ctx && b.blk == k && !b.erase) with
    | none => s
    | some b =>
      if s.atHi d then paceHold d s
      else match s.homeOf x k with
        | none => haltCh d 4 0 s
        | some (bo, i) =>
          if !s.isPlaced bo i then unplaced d j x k s
          else
            let f := s.fetchBlock m bo i
            match (if m.pi then piCheck x.pifmt (s.ptype x.lu) x.prot x.lba (x.lbaOf k) f.1 (f.2.1.take (piLen x.pifmt)) else none) with
            | some q => endBlock d j x k (piSense x k q) s
            | none =>
            if !f.2.2.2 then icrcFail d j x k s
            else
              let s := storeIcrc m bo i f.2.2.1 s
              let t := s.trailer x b
              let e : EncItem := ⟨b.tag, j.ctx, b.zone, b.lba, t.2.1, t.1, x.lu, x.pifmt, b.spare, t.2.2, f.1, f.2.1⟩
              blockDone d (s.cvParams m.cvu).start f.2.2.1
                { s with shu := { s.shu with cipherOut := s.shu.cipherOut.set a (s.shu.cipherOut[a] ++ [e]) } }

/-- No sector of actuator a is decoded, opened or waits to be placed. -/
def State.readsDrained (s : State) (a : Act) : Bool :=
  let c := s.chan[a]
  c.decoding.isEmpty && c.retryReq.isEmpty && c.out.isEmpty && s.shu.cipherIn[a].isEmpty
    && s.retry.toList.all (fun j => match j with | some j => j.act != a | none => true)
    && s.cip.cores.toList.all (fun k => match k with | some (.dec b _) => b != a | _ => true)

/-- Decrypted blocks to bobbins, by slot tag, in order of arrival; with COUNT 0 the MOVE ends with the pass. -/
def movePlace (d : Fin 64) (a : Act) (m : Move) (j : Job) (x : Ctx) (s : State) : State :=
  match s.shu.cipherIn[a] with
  | [] => if m.count = 0 ∧ s.sch[a].pass = none ∧ s.readsDrained a = true then retireTail a (nextInstr d s) else s
  | i :: rest =>
    let take (s : State) : State := { s with shu := { s.shu with cipherIn := s.shu.cipherIn.set a rest } }
    if i.ctx ≠ j.ctx then take s
    else match (if m.pi then piCheck x.pifmt (s.ptype x.lu) x.prot x.lba (x.lbaOf i.blk) i.data (i.pi.take (piLen x.pifmt)) else none) with
      | some q => endBlock d j x i.blk (piSense x i.blk q) (take s)
      | none => landBlock d m j x i.blk i.data i.pi take s

/-- MOVE_BLOCK: the channel handles one block of its MOVE. -/
def moveBlock (d : Fin 64) (s : State) : State :=
  let c := s.shu.ch[d]
  match c.job, c.moving, s.shuInstr d with
  | some j, some _, .move m =>
    if !s.running d || c.retryDue then s else
    match s.ctx? j.ctx with
    | none => idleCh d s
    | some x =>
      match m.src, m.dst with
      | 0, 2 => moveIn d m j x s
      | 2, 1 => moveOut d m j x s
      | 2, 3 => if h : d.val < 16 then moveCipher d ⟨d.val, h⟩ m j x s else s
      | 4, 2 => if h : d.val < 16 then movePlace d ⟨d.val, h⟩ m j x s else s
      | _, _ => s
  | _, _, _ => s

def execMoveBlock (d : Fin 64) (s : State) : Host.Outcome State Fault Refusal := .next (moveBlock d s)

/-! ### Pops (R241) -/

/-- The first block that a channel's MOVE with POP is about to place, when its bobbin is not in the chain yet. -/
def State.wantsPop (s : State) (d : Fin 64) (c : Nat) (x : Ctx) : Bool :=
  let ch := s.shu.ch[d]
  match ch.job, ch.moving, s.shuInstr d with
  | some j, some _, .move m =>
    let k := if j.kind == .mediaIn then
        (if h : d.val < 16 then (match s.shu.cipherIn[d.val].find? (fun i => i.ctx == c) with | some i => i.blk | none => 0) else 0)
      else j.first + ch.cursor
    j.ctx == c && m.pop && decide (0 < ch.left ∨ j.kind = .mediaIn) && (blockHome x.bobs k).isNone
  | _, _, _ => false

/-- BOBBIN_POP: a credit of a command becomes the next bobbin of its chain. -/
def execBobbinPop (c : Fin 40960) (s : State) : Host.Outcome State Fault Refusal :=
  .next (match s.ctx? c.val with
    | none => s
    | some x =>
      if decide (0 < x.credits) && (List.finRange 64).any (fun d => s.wantsPop d c.val x) then
        match popCredit x.lu c.val x.bobs s with
        | some (b, s1) => modCtx c.val (fun x => { x with bobs := x.bobs ++ [b], credits := x.credits - 1 }) s1
        | none => s
      else s)

/-! ### SIGNAL (R252) -/

/-- BURST_DONE: the burst is received; the whole of a write's data lets it go on, the whole of a comparison ends it. -/
def burstDone (c : Nat) (s : State) : State :=
  match s.ctx? c with
  | none => s
  | some x =>
    let s1 := putCtx c { x with outstanding := false } { s with shu := { s.shu with rx := s.shu.rx.filter (fun r => r.ctx != c) } }
    if x.hostDone < x.nblk then s1
    else if x.cls = 1 then settleAll [.go c] s1
    else finish1 c .good s1

/-- SENT: intake sends the response. -/
def sentAll (c : Nat) (s : State) : State :=
  match s.ctx? c with
  | none => s
  | some x => match x.err with | some e => finish1 c (.check e.2) s | none => finish1 c .good s

/-- PLACED_ALL: every block that the pass delivered is placed. A read whose blocks are all there sends its data; one with blocks
missing is queued for another pass; a verify ends or compares; a reassignment that has read its block is queued to write it. -/
def placedAll (c : Nat) (s : State) : State :=
  match s.ctx? c with
  | none => s
  | some x =>
    if x.err.isSome && (x.cls == 0 || x.cls == 2) then
      let s1 := if x.allHere then putCtx c { x with state := .dataOut } s
        else putCtx c { x with state := .queued } s
      readDone c s1
    else if x.cls == 5 then
      if x.phase = 0 ∧ x.allRead = true then putCtx c { x with phase := 1, state := .queued } s
      else putCtx c { x with state := .queued } s
    else if x.allHere then
      if x.cls == 0 then putCtx c { x with state := .dataOut } s
      else if x.compares then putCtx c { x with state := .dataIn } s
      else finish1 c .good s
    else if s.inPass c then s
    else putCtx c { x with state := .queued } s

/-- SHUTTLE_SIGNAL. The channel goes on to its next instruction whatever the event ends. -/
def execShuttleSignal (d : Fin 64) (s : State) : Host.Outcome State Fault Refusal :=
  .next (match s.running d, s.shu.ch[d].job, s.shuInstr d with
    | true, some j, .signal e =>
      let s1 := nextInstr d s
      let keep := s1.shu.ch[d]
      let s2 := match e with
        | 0 => burstDone j.ctx s1
        | 1 => sentAll j.ctx s1
        | 3 => placedAll j.ctx s1
        | _ => s1
      putCh d keep s2
    | _, _, _ => s)

end Sys2Proof.Machine
end

