-- ==== Sys2Proof/Machine/Temple.lean ====
section
/-! DEFINITION. The commands of the Temple (R266, R280 to R288). -/

namespace Sys2Proof.Machine

/-! ### Maintenance (R285 to R287) -/

def mEntry (i : Fin 48) (s : State) : TEntry := s.zones.temple.entries[i]

/-- Invalidate an entry; its lock goes with it. -/
def dropEntry (i : Fin 48) (s : State) : State :=
  setEntry i { mEntry i s with state := .invalid, lock := false, again := false } s

/-- Unlocked entries of powered groups. -/
def State.unlocked (s : State) : Nat :=
  (List.finRange 48).countP (fun i => s.bit Reg.TMP_STAT (i.val / 8) && !(s.zones.temple.entries[i]).lock)

/-- An operation ends with its result. -/
def maintEnd (r : Nat) (s : State) : State :=
  showTemple (((s.modTemple (fun t => { t with maint := none })).setB Reg.TMP_MAINT Fld.TMP_MAINT_BUSY false).setF
    Reg.TMP_MAINT Fld.TMP_MAINT_RESULT r)

/-- An operation waits for a fill. -/
def maintWait (op g : Nat) (s : State) : State :=
  (s.modTemple (fun t => { t with maint := some (op, g) })).setB Reg.TMP_MAINT Fld.TMP_MAINT_BUSY true

/-- Lock the entry of a preloaded zone. -/
def lockEntry (i : Fin 48) (s : State) : State :=
  if (mEntry i s).lock then maintEnd 1 s
  else if s.unlocked < 9 then maintEnd 2 s
  else maintEnd 1 (setEntry i { mEntry i s with lock := true } s)

/-- No entry is being filled. -/
def State.noFill (s : State) (p : Fin 48 → Bool) : Bool :=
  (List.finRange 48).all (fun i => !p i || (match (s.zones.temple.entries[i]).state with | .filling => false | .evicting _ => false | _ => true))

/-- Carry out operation OP on zone g or on the whole cache, if no fill it must wait for is under way. -/
def maintAct (op g : Nat) (s : State) : State :=
  match op with
  | 1 =>
    if (s.findFill g).isSome then maintWait 1 g s
    else match s.findEntry g with
      | some i => maintEnd 1 (dropEntry i s)
      | none => maintEnd 1 s
  | 2 =>
    if (s.findFill g).isSome then maintWait 2 g s
    else match s.findEntry g with
      | some i => lockEntry i s
      | none => if s.unlocked < 9 then maintEnd 2 s else maintWait 2 g (beginFill g s)
  | 3 =>
    if (s.findFill g).isSome then maintWait 3 g s
    else match s.findEntry g with
      | some i => maintEnd 1 (setEntry i { mEntry i s with lock := false } s)
      | none => maintEnd 3 s
  | 4 =>
    if s.noFill (fun _ => true) then maintEnd 1 ((List.finRange 48).foldl (fun s i => dropEntry i s) s)
    else maintWait 4 0 s
  | _ => s

/-- GROUP_OFF: refused, or the group begins to be cleaned (R286). -/
def groupOff (m : Nat) (s : State) : State :=
  let inGroup (i : Fin 48) : Bool := i.val / 8 == m
  let others := (List.range 6).countP (fun k => k != m && s.bit Reg.TMP_STAT k)
  let left := (List.finRange 48).countP (fun i => !inGroup i && s.bit Reg.TMP_STAT (i.val / 8) && !(s.zones.temple.entries[i]).lock)
  if (List.finRange 48).any (fun i => inGroup i && (s.zones.temple.entries[i]).lock) then maintEnd 4 s
  else if others = 0 then maintEnd 5 s
  else if left < 8 then maintEnd 2 s
  else (s.modTemple (fun t => { t with cleaning := some m })).setB Reg.TMP_MAINT Fld.TMP_MAINT_BUSY true

/-- GROUP_ON: the group is powered, its entries INVALID. -/
def groupOn (m : Nat) (s : State) : State :=
  if s.bit Reg.TMP_STAT m then maintEnd 1 s
  else maintEnd 1 ((List.finRange 48).foldl (fun s i => if i.val / 8 = m then dropEntry i s else s) (s.setBit Reg.TMP_STAT m true))

/-- A write of TMP_MAINT: GROUP is kept; OP acts, but while BUSY, or on a zone that no LU declares (R7). -/
def templeMaint (w : Word) (s : State) : State :=
  let m := Fld.TMP_MAINT_GROUP.get w
  let s1 := s.setF Reg.TMP_MAINT Fld.TMP_MAINT_GROUP m
  let g := s1.getF Reg.TMP_MAINT_ADDR Fld.TMP_MAINT_ADDR_ZONE
  let zone (op : Nat) : State := if (s.luOfZone g).isSome then maintAct op g s1 else s1
  if s.bitF Reg.TMP_MAINT Fld.TMP_MAINT_BUSY then s1 else
  match Fld.TMP_MAINT_OP.get w with
  | 1 => zone 1
  | 2 => zone 2
  | 3 => zone 3
  | 4 => maintAct 4 g s1
  | 5 => if m < 6 then groupOff m s1 else s1
  | 6 => if m < 6 then groupOn m s1 else s1
  | _ => s1

/-- The word that writes an OP and leaves GROUP. -/
def State.maintWord (s : State) (op : Nat) : Word := BitVec.ofNat 32 (op + 8 * s.getF Reg.TMP_MAINT Fld.TMP_MAINT_GROUP)

def maintRow (n : Fin 4) (op : Nat) (s : State) : Host.Outcome State Fault Refusal := asOperator n s (templeMaint (s.maintWord op))

/-- TEMPLE_INVALIDATE. -/
def execTempleInvalidate (n : Fin 4) (s : State) : Host.Outcome State Fault Refusal := maintRow n 1 s
/-- TEMPLE_PRELOAD. -/
def execTemplePreload (n : Fin 4) (s : State) : Host.Outcome State Fault Refusal := maintRow n 2 s
/-- TEMPLE_UNLOCK. -/
def execTempleUnlock (n : Fin 4) (s : State) : Host.Outcome State Fault Refusal := maintRow n 3 s
/-- TEMPLE_INVALIDATE_ALL. -/
def execTempleInvalidateAll (n : Fin 4) (s : State) : Host.Outcome State Fault Refusal := maintRow n 4 s
/-- TEMPLE_GROUP_OFF. -/
def execTempleGroupOff (n : Fin 4) (m : Fin 8) (s : State) : Host.Outcome State Fault Refusal :=
  asOperator n s (templeMaint (BitVec.ofNat 32 (5 + 8 * m.val)))
/-- TEMPLE_GROUP_ON. -/
def execTempleGroupOn (n : Fin 4) (m : Fin 8) (s : State) : Host.Outcome State Fault Refusal :=
  asOperator n s (templeMaint (BitVec.ofNat 32 (6 + 8 * m.val)))

/-- GROUP_CLEAN_DONE (R286): no entry of the group is being filled; all eight are invalidated and the power goes. -/
def execGroupCleanDone (s : State) : Host.Outcome State Fault Refusal :=
  .next (match s.zones.temple.cleaning with
    | none => s
    | some m =>
      if s.noFill (fun i => i.val / 8 == m) then
        let s1 := (List.finRange 48).foldl (fun s i => if i.val / 8 = m then dropEntry i s else s) s
        maintEnd 1 ((s1.modTemple (fun t => { t with cleaning := none })).setBit Reg.TMP_STAT m false)
      else s)

/-! ### Lookups, fills and updates (R266, R280 to R283, R288) -/

/-- The descriptor failed DCHK again: the fault source is raised, and the zone's reload from its save record (R266). -/
def reloadZone (g : Nat) (s : State) : State :=
  let s1 := match s.luOfZone g with
    | some (l, _) => raise 0xAE (.lu l.lu) s
    | none => raise 0xAE .none s
  match s1.actOfZone g with
  | some a => raiseWork a (.reload g) s1
  | none => s1

/-- An entry whose bytes fail DCHK is filled once more. -/
def refillEntry (i : Fin 48) (s : State) : State :=
  setEntry i { mEntry i s with state := .filling, again := true } (s.incF Reg.TMP_CNT_ERR Fld.TMP_CNT_ERR_DCHK)

/-- A request that reaches the entry while it is EVICTING rescues it; the other zone's victim is chosen again (R288). -/
def rescue (g : Nat) (s : State) : State :=
  match (List.finRange 48).find? (fun i => (s.zones.temple.entries[i]).g == g
      && (match (s.zones.temple.entries[i]).state with | .evicting _ => true | _ => false)) with
  | none => s
  | some i =>
    match (mEntry i s).state with
    | .evicting next =>
      let s1 := touch i (setEntry i { mEntry i s with state := .valid } s)
      let s2 := s1.incF Reg.TMP_CNT_MISS Fld.TMP_CNT_MISS_RESCUE
      match s2.victim with
      | none => s2
      | some k =>
        let e := mEntry k s2
        if e.state = .invalid then setEntry k ⟨next, zeros 32, .filling, false, e.used, false⟩ s2
        else setEntry k { e with state := .evicting next } s2
    | _ => s

/-- A lookup of g. `soon` says that it arrives in the clock of an eviction still under way. -/
def templeLookup (g : Nat) (soon : Bool) (s : State) : State :=
  if (s.luOfZone g).isNone then s else
  let s1 := if soon then rescue g s else settleEvictions s
  match s1.findEntry g with
  | some i =>
    if (mEntry i s1).state = .valid then
      let s2 := touch i (s1.incF Reg.TMP_CNT_HIT Fld.TMP_CNT_HIT_HIT)
      if dchkOk (mEntry i s2).bytes then s2 else refillEntry i s2
    else s1
  | none => if (s1.findFill g).isSome then s1 else beginFill g s1

/-- TEMPLE_LOOKUP. -/
def execTempleLookup (g : BitVec 25) (soon : Bool) (s : State) : Host.Outcome State Fault Refusal :=
  .next (templeLookup g.toNat soon s)

/-- TEMPLE_FILL_DONE: the data returns, overlaid by the merging buffer, and is checked; a maintenance operation that waited acts. -/
def templeFillDone (i : Fin 48) (s : State) : State :=
  let s0 := settleEvictions s
  let e := mEntry i s0
  if e.state ≠ .filling then s else
  let l := s0.zoneBytes e.g
  let s1 :=
    if dchkOk l then touch i (setEntry i { e with bytes := l, state := .valid, again := false } s0)
    else if e.again then
      reloadZone e.g (dropEntry i (s0.incF Reg.TMP_CNT_ERR Fld.TMP_CNT_ERR_DCHK))
    else refillEntry i s0
  match s1.zones.temple.maint with
  | some (op, g) => if (s1.findFill g).isNone ∨ op = 4 then maintAct op g s1 else s1
  | none => s1

def execTempleFillDone (i : Fin 48) (s : State) : Host.Outcome State Fault Refusal := .next (templeFillDone i s)

/-- Lay bytes over a string at an offset. -/
def splice (l : List Byte) (off : Nat) (b : List Byte) : List Byte := (l.take off ++ b ++ l.drop (off + b.length)).take l.length

/-- TEMPLE_UPDATE: bytes of a declared zone's descriptor change; GEN and DCHK follow (R265, R282). -/
def execTempleUpdate (g : BitVec 25) (off : Fin 28) (bytes : List Byte) (soon : Bool) (s : State) : Host.Outcome State Fault Refusal :=
  .next (if (s.luOfZone g.toNat).isNone then s else
    let s1 := if soon then rescue g.toNat s else s
    updateDesc g.toNat (fun _ => ZDesc.decode (splice (s1.zoneBytes g.toNat) off.val (bytes.take (28 - off.val)))) s1)

/-- MERGE_BUFFER_WRITE_DONE (R282): the oldest entry is in HBM3 and leaves. -/
def execMergeBufferWriteDone (s : State) : Host.Outcome State Fault Refusal := .next (drainOldest s)

end Sys2Proof.Machine
end

