-- ==== Sys2Proof/Machine/Crypto.lean ====
section
/-! DEFINITION. The cipher's arithmetic: AES-256 (FIPS 197), GCM (SP 800-38D), AES-CMAC and the zone-key derivation of R299. -/

namespace Sys2Proof.Machine

/-! ### AES-256 -/

/-- Multiply by x in GF(2^8). -/
def xtime (b : Byte) : Byte := if b.getLsbD 7 then (b <<< 1) ^^^ 0x1B#8 else b <<< 1

def gmul (a b : Byte) : Byte :=
  ((List.range 8).foldl (fun (p : Byte × Byte) i => (if b.getLsbD i then p.1 ^^^ p.2 else p.1, xtime p.2)) (0#8, a)).1

/-- The inverse, as the 254th power; zero for zero. -/
def ginv (a : Byte) : Byte :=
  let a2 := gmul a a
  let a3 := gmul a2 a
  let a6 := gmul a3 a3
  let a12 := gmul a6 a6
  let a15 := gmul a12 a3
  let a30 := gmul a15 a15
  let a60 := gmul a30 a30
  let a120 := gmul a60 a60
  let a126 := gmul a120 a6
  let a127 := gmul a126 a
  gmul a127 a127

/-- The S-box: the inverse, then the affine map. -/
def sboxOf (a : Byte) : Byte :=
  let b := ginv a
  b ^^^ b.rotateLeft 1 ^^^ b.rotateLeft 2 ^^^ b.rotateLeft 3 ^^^ b.rotateLeft 4 ^^^ 0x63#8

def sboxTable : Array Byte := (Array.range 256).map (fun i => sboxOf (BitVec.ofNat 8 i))
def sbox (b : Byte) : Byte := sboxTable.getD b.toNat 0#8

def xorBytes (a b : List Byte) : List Byte := List.zipWith (· ^^^ ·) a b

/-- The next key word: `i` its number, `prev` the word before, `back` the word eight before. -/
def keyWord (i : Nat) (prev back : List Byte) (rcon : Byte) : List Byte :=
  let t := if i % 8 = 0 then xorBytes ((prev.drop 1 ++ prev.take 1).map sbox) [rcon, 0#8, 0#8, 0#8]
    else if i % 8 = 4 then prev.map sbox else prev
  xorBytes back t

/-- Sixty key words; the list is kept newest first while it grows. -/
def expandKey : Nat → Byte → Nat → List (List Byte) → List (List Byte)
  | 0, _, _, ws => ws.reverse
  | n + 1, rcon, i, ws =>
    let w := keyWord i (ws.getD 0 []) (ws.getD 7 []) rcon
    expandKey n (if i % 8 = 0 then xtime rcon else rcon) (i + 1) (w :: ws)

/-- The fifteen round keys of a 32-byte key. -/
def roundKeys (key : List Byte) : List (List Byte) :=
  let w0 := ((List.range 8).map (fun i => (key.drop (4 * i)).take 4)).reverse
  let ws := expandKey 52 0x01#8 8 w0
  (List.range 15).map (fun r => ((ws.drop (4 * r)).take 4).flatten)

/-- ShiftRows on sixteen bytes in column order. -/
def shiftRows (l : List Byte) : List Byte :=
  (List.range 16).map (fun i => l.getD ((i + 4 * (i % 4)) % 16) 0#8)

def mixColumn (a b c d : Byte) : List Byte :=
  let m (x y z w : Byte) : Byte := xtime x ^^^ (xtime y ^^^ y) ^^^ z ^^^ w
  [m a b c d, m b c d a, m c d a b, m d a b c]

def mixColumns : List Byte → List Byte
  | a :: b :: c :: d :: t => mixColumn a b c d ++ mixColumns t
  | l => l

def aesRounds : List (List Byte) → List Byte → List Byte
  | [], l => l
  | [k], l => xorBytes (shiftRows (l.map sbox)) k
  | k :: t, l => aesRounds t (xorBytes (mixColumns (shiftRows (l.map sbox))) k)

/-- One block under expanded round keys. -/
def aesBlock (ks : List (List Byte)) (l : List Byte) : List Byte :=
  match ks with
  | [] => l
  | k :: t => aesRounds t (xorBytes l k)

/-! ### GCM -/

def block128 (l : List Byte) : BitVec 128 := BitVec.ofNat 128 (beNat (padTo 16 l))

/-- Multiplication in GF(2^128), bit 0 of the standard being the most significant. -/
def ghashMul (x y : BitVec 128) : BitVec 128 :=
  ((List.range 128).foldl (fun (p : BitVec 128 × BitVec 128) i =>
    (if x.getLsbD (127 - i) then p.1 ^^^ p.2 else p.1,
     if p.2.getLsbD 0 then (p.2 >>> 1) ^^^ (0xE1#128 <<< 120) else p.2 >>> 1)) (0#128, y)).1

/-- Sixteen-byte blocks, the last zero-padded. -/
def blocks16 : Nat → List Byte → List (List Byte)
  | 0, _ => []
  | n + 1, l => if l.isEmpty then [] else padTo 16 (l.take 16) :: blocks16 n (l.drop 16)

def blocksOf (l : List Byte) : List (List Byte) := blocks16 ((l.length + 15) / 16) l

def ghash (h : BitVec 128) (l : List (List Byte)) : BitVec 128 := l.foldl (fun y b => ghashMul (y ^^^ block128 b) h) 0#128

/-- Counter mode from the block after J0. -/
def ctrBlocks (ks : List (List Byte)) (iv : List Byte) : Nat → List (List Byte) → List Byte
  | _, [] => []
  | c, b :: t => xorBytes b (aesBlock ks (iv ++ beBytes 4 c)) ++ ctrBlocks ks iv (c + 1) t

/-- AES-256 in counter mode for GCM, with a 96-bit IV: encryption and decryption are one. -/
def gcmCrypt (key iv data : List Byte) : List Byte := (ctrBlocks (roundKeys key) iv 2 (blocksOf data)).take data.length

/-- The 128-bit tag over associated data and ciphertext. -/
def gcmTag (key iv aad ct : List Byte) : List Byte :=
  let ks := roundKeys key
  let h := block128 (aesBlock ks (zeros 16))
  let lens := beBytes 8 (8 * aad.length) ++ beBytes 8 (8 * ct.length)
  xorBytes (beBytes 16 (ghash h (blocksOf aad ++ blocksOf ct ++ [lens])).toNat) (aesBlock ks (iv ++ beBytes 4 1))

/-! ### AES-CMAC and the zone key (R299) -/

/-- Doubling in GF(2^128) for the CMAC subkeys. -/
def cmacDouble (l : List Byte) : List Byte :=
  let v := block128 l
  beBytes 16 (if v.getLsbD 127 then (v <<< 1) ^^^ 0x87#128 else v <<< 1).toNat

def cmacChain (ks : List (List Byte)) : List (List Byte) → List Byte → List Byte
  | [], x => x
  | b :: t, x => cmacChain ks t (aesBlock ks (xorBytes x b))

/-- AES-256-CMAC (SP 800-38B). -/
def cmac (key msg : List Byte) : List Byte :=
  let ks := roundKeys key
  let k1 := cmacDouble (aesBlock ks (zeros 16))
  let n := (msg.length + 15) / 16
  let whole := decide (0 < n) && msg.length % 16 == 0
  let m := (n - 1) * 16
  let last := if whole then xorBytes (msg.drop m) k1 else xorBytes (padTo 16 (msg.drop m ++ [0x80#8])) (cmacDouble k1)
  cmacChain ks (blocksOf (msg.take m) ++ [last]) (zeros 16)

/-- The zone key of global zone g of LU u under a label (R299). -/
def zoneKey (luKey : List Byte) (u g klabel : Nat) : List Byte :=
  let msg (i : Byte) : List Byte :=
    [i, 0x43#8, 0x59#8, 0x5A#8, 0x4B#8, 0x00#8] ++ beBytes 1 u ++ beBytes 4 g ++ beBytes 4 klabel ++ [0x01#8, 0x00#8]
  cmac luKey (msg 0x01#8) ++ cmac luKey (msg 0x02#8)

/-- The key check value of a key (R300). -/
def kcvOf (key : List Byte) : Nat := beNat ((aesBlock (roundKeys key) (zeros 16)).take 3)

/-- The nonce of R290. -/
def nonceOf (u lba attempt stamp : Nat) : List Byte :=
  [0x01#8] ++ beBytes 1 u ++ beBytes 6 (lba % 2 ^ 44 + attempt % 16 * 2 ^ 44) ++ beBytes 4 stamp

end Sys2Proof.Machine
end

