-- ==== Sys2Proof/Machine/Cipher.lean ====
section
/-! DEFINITION. The commands of the cipher (chapter 14, R316 to R318): key slots, derived keys, the cores, and re-keying a zone. -/

namespace Sys2Proof.Machine

/-! ### Key slots (R300 to R303) -/

/-- A SECURITY record (R414): event code, role and anchor slot of the session, and the LU or slot concerned (log entry 18). -/
def securityRecord (event role slot item : Nat) (s : State) : State :=
  recordNow 0x0006 (leBytes 1 event ++ leBytes 1 role ++ leBytes 1 slot ++ leBytes 1 item) s

/-- A SECURITY record of what session n does. -/
def sessionRecord (n : Fin 4) (event item : Nat) (s : State) : State :=
  securityRecord event s.sess[n].role.rank s.sess[n].slot item s

/-- The LU whose key slot session n has selected. -/
def State.keySel (s : State) (n : Fin 4) : Nat := s.getF (bank n.val Reg.CIP_KEY_SEL) Fld.CIP_KEY_SEL_LU

def keyResult (u r : Nat) (s : State) : State := s.setF (bank u Reg.CIP_KEY_STAT) Fld.CIP_KEY_STAT_RESULT r

/-- The 32 key octets in the staging registers (R300). -/
def State.stagedKey (s : State) : List Byte := s.cip.staged.toList.flatMap (fun w => leBytes 4 w.toNat)

/-- A LOAD: the staging registers are cleared whatever it comes to. -/
def keyLoad (u : Nat) (kcv : BitVec 24) (s : State) : State :=
  let key := s.stagedKey
  let s0 := { s with cip := { s.cip with staged := Vector.replicate 8 0#32 } }
  let k := bank u Reg.CIP_KEY_STAT
  if (s.luCfg u).isNone then keyResult u 4 s0
  else if !s.luLocked u || s.bitF k Fld.CIP_KEY_STAT_CLEARING then keyResult u 3 s0
  else if kcvOf key ≠ kcv.toNat then keyResult u 2 s0
  else
    let s1 := { s0 with cip := { s0.cip with keys := aset s0.cip.keys u key } }
    refreshUst (keyResult u 1 ((s1.setB k Fld.CIP_KEY_STAT_LOADED true).setF k Fld.CIP_KEY_STAT_KCV kcv.toNat))

/-- A LOAD of the selected slot, with its record. -/
def keyLoadCmd (n : Fin 4) (kcv : BitVec 24) (s : State) : State := keyLoad (s.keySel n) kcv (sessionRecord n 5 (s.keySel n) s)

/-- CIPHER_KEY_LOAD: a write of CIP_KEY_CMD with OP 1 in a Keeper session. -/
def execCipherKeyLoad (n : Fin 4) (kcv : BitVec 24) (s : State) : Host.Outcome State Fault Refusal :=
  .next (if s.may n .keeper then keyLoadCmd n kcv s else s)

/-- Media commands of an LU that check 6 of R189 would refuse, and internal reassignments, not begun. -/
def State.notBegun (s : State) (u : Nat) : List (Nat × Ctx) :=
  s.inOrder.filter (fun e => e.2.lu == u && !e.2.reserve && !e.2.state.begun && (mediaOp e.2.op || e.2.hasMedia))

/-- Steps 1 and 2 of R302: the LU is Locked, and its media commands that have not begun end. -/
def keyClear (u : Nat) (s : State) : State :=
  let s1 := s.setB (bank u Reg.CIP_KEY_STAT) Fld.CIP_KEY_STAT_CLEARING true
  let cs := (s1.notBegun u).map (·.1)
  refreshUst (cs.foldl (fun s c =>
    match s.ctx? c with
    | none => s
    | some x =>
      let s1 := if x.port < 2 then s.incF Reg.CIP_CNT_FAIL Fld.CIP_CNT_FAIL_LOCKED else s
      finish1 c (.check (sense keyProtect 0x80 0x00)) s1) (markAbort cs s1))

/-- A CLEAR of the selected slot, with its record. -/
def keyClearCmd (n : Fin 4) (s : State) : State :=
  let u := s.keySel n
  let s1 := sessionRecord n 6 u s
  if (s.luCfg u).isNone then keyResult u 4 s1 else keyClear u s1

/-- CIPHER_KEY_CLEAR. -/
def execCipherKeyClear (n : Fin 4) (s : State) : Host.Outcome State Fault Refusal := .next (if s.may n .keeper then keyClearCmd n s else s)

/-- A media command, zone operation or reassignment of the LU that has begun is still going on. -/
def State.luBusy (s : State) (u : Nat) : Bool :=
  s.intake.ctxs.any (fun e => e.2.lu == u && !e.2.reserve && e.2.state.begun && e.2.state != .linger && (mediaOp e.2.op || e.2.hasMedia))

/-- KEY_CLEAR_COMPLETE: step 4 of R302. -/
def execKeyClearComplete (u : Fin 256) (s : State) : Host.Outcome State Fault Refusal :=
  .next (if s.bitF (bank u.val Reg.CIP_KEY_STAT) Fld.CIP_KEY_STAT_CLEARING && !s.luBusy u.val then
    refreshUst (keyResult u.val 1 (clearKeySlot u.val s)) else s)

/-! ### Derived keys (R299, R303, R304) -/

def DKey.is (k : DKey) (t : Nat × Nat × Nat) : Bool := k.lu == t.1 && k.zone == t.2.1 && k.label == t.2.2

/-- Leave out the first entry that no pass uses. -/
def dropUnused : List DKey → List DKey
  | [] => []
  | k :: t => if k.uses = 0 then t else k :: dropUnused t

/-- A pass asks for a zone key (R304). -/
def requestKey (t : Nat × Nat × Nat) (s : State) : State :=
  match s.cip.derived.find? (·.is t) with
  | some k =>
    let l := s.cip.derived.filter (fun (d : DKey) => !d.is t) ++ [{ k with uses := k.uses + 1 }]
    { s with cip := { s.cip with derived := l } }.incF Reg.CIP_CNT_DK Fld.CIP_CNT_DK_HIT
  | none =>
    let l := if 64 ≤ s.cip.derived.length then dropUnused s.cip.derived else s.cip.derived
    let e : DKey := ⟨t.1, t.2.1, t.2.2, none, 1⟩
    { s with cip := { s.cip with derived := l ++ [e], derivQ := s.cip.derivQ ++ [t] } }.incF Reg.CIP_CNT_DK Fld.CIP_CNT_DK_MISS

/-- The zone keys that a set of zones takes: none on a Locked LU (R306). -/
def State.keysOf (s : State) (zones : List Nat) : List (Nat × Nat × Nat) :=
  (zones.eraseDups).filterMap (fun g => match s.luOfZone g with
    | some (l, _) => if s.luLocked l.lu then none else some (l.lu, g, (s.desc g).klabel)
    | none => none)

/-- KEY_DERIVATION_DONE: the request that came first has its key. -/
def execKeyDerivationDone (s : State) : Host.Outcome State Fault Refusal :=
  .next (match s.cip.derivQ with
    | [] => s
    | t :: rest =>
      let key := (aget s.cip.keys t.1).map (fun k => zoneKey k t.1 t.2.1 t.2.2)
      { s with cip := { s.cip with
        derivQ := rest
        derived := s.cip.derived.map (fun d => if d.is t then { d with key := key } else d) } })

/-- The derived key of a zone for a pass. -/
def State.passKey (s : State) (p : SchPass) (g : Nat) : Option (List Byte) :=
  match p.keys.find? (fun k => k.2.1 == g) with
  | some t => (match s.cip.derived.find? (·.is t) with | some d => d.key | none => none)
  | none => none

/-! ### The cores (R19, R289 to R293, R297, R305) -/

/-- Sectors of actuator a that are being sealed. -/
def State.sealing (s : State) (a : Act) : Nat :=
  s.cip.cores.toList.countP (fun k => match k with | some (.enc b _) => b == a | _ => false)

/-- The next fill sector of a fill pass (R297). -/
def State.fillItem (s : State) (p : SchPass) (n : Nat) : Option EncItem :=
  match p.blks[n]? with
  | none => none
  | some b =>
    match s.luOfZone b.zone with
    | none => none
    | some (l, _) =>
      let pi := mkPi l.pifmt (guardOf l.pifmt (zeros 4096)) 0xFFFF (2 ^ refBits l.pifmt - 1)
      some ⟨b.tag, b.ctx, b.zone, b.lba, 0, 0, l.lu, l.pifmt, b.spare, true, zeros 4096, pi⟩

/-- The head of the encrypt queue of actuator a and the queue without it; a fill pass makes its own. -/
def State.encHead (s : State) (a : Act) : Option (EncItem × State) :=
  match s.shu.cipherOut[a] with
  | i :: t => some (i, { s with shu := { s.shu with cipherOut := s.shu.cipherOut.set a t } })
  | [] =>
    match s.sch[a].pass with
    | some p =>
      match p.kind with
      | .internal (.fill _ _) =>
        let n := p.posted.headD 0
        (s.fillItem p n).map (fun i => (i, s.modSch a (fun h => { h with pass := some { p with posted := [n + 1] } })))
      | _ => none
    | none => none

/-- The head of the decrypt queue of actuator a, which its in-line decoder and the retry decoders fill (R305). -/
def State.decHead (s : State) (a : Act) : Option (DecodedSector × State) :=
  match s.chan[a].out with
  | d :: t => some (d, s.modChan a (fun c => { c with out := t }))
  | [] => none

/-- What queue q gives a free core: a job and the state without it, or only the state where a sector belongs to no pass or holds no
block to open. The staging buffer takes two fields at most (R13); a sector waits for its key. -/
def State.serveQueue (s : State) (q : Nat) : Option (Option CoreJob × State) :=
  let a : Act := Fin.ofNat 16 (q / 2)
  if q % 2 = 0 then
    match s.encHead a with
    | none => none
    | some (i, s1) =>
      match s.sch[a].pass with
      | none => some (none, s1)
      | some p =>
        if 2 ≤ s.chan[a].stage.length + s.sealing a then none
        else if (s.passKey p i.zone).isNone then none
        else some (some (.enc a i), s1)
  else
    match s.decHead a with
    | none => none
    | some (d, s1) =>
      match s.passOf a d.slot with
      | none => some (none, s1)
      | some (p, b) =>
        if b.lba = noBlockMark then some (none, s1)
        else if b.lba = systemMark then
          some (none, if (selvedgeOf d.field).cls = 7 then s1
            else s1.modChan a (fun c => { c with failed := c.failed ++ [⟨d.slot, 8, d.outcome, d.marks⟩] }))
        else
          let u := match s.luOfZone b.zone with | some (l, _) => l.lu | none => 0
          if (s.passKey p b.zone).isNone && !(p.kind != .host && s.luLocked u) then none
          else some (some (.dec a d), s1)

/-- CIPHER_CORE_TAKE (R305): the next non-empty queue after the one served last. -/
def coreTake (k : Fin 4) (s : State) : State :=
  if s.cip.cores[k].isSome then s else
  match ((List.range 32).map (fun i => (s.cip.lastQ + 1 + i) % 32)).findSome? (fun q => (s.serveQueue q).map (fun r => (q, r))) with
  | none => s
  | some (q, (j, s1)) => { s1 with cip := { s1.cip with lastQ := q, cores := s1.cip.cores.set k j } }

def execCipherCoreTake (k : Fin 4) (s : State) : Host.Outcome State Fault Refusal := .next (coreTake k s)

def freeCore (k : Fin 4) (s : State) : State := { s with cip := { s.cip with cores := s.cip.cores.set k none } }

/-- Bytes that the tag covers beside the data (R291). -/
def aadOf (field : List Byte) : List Byte := (field.drop 4096).take 16 ++ (field.drop 4128).take 12

/-- The protected field of a block (R292). -/
def sealField (key : List Byte) (ztype : Bool) (i : EncItem) : List Byte :=
  let t : Selvedge := ⟨[], i.stamp, i.lba, i.attempt, i.lu, ztype, i.pifmt, i.reassigned, i.fill, 1⟩
  let n := nonceOf i.lu i.lba i.attempt i.stamp
  let ct := gcmCrypt key n i.data
  mkField ct i.pi { t with tag := gcmTag key n (aadOf (mkField ct i.pi t)) ct }

/-- CIPHER_ENCRYPT_DONE: the field goes to the staging buffer, unless its pass has ended. -/
def encryptDone (k : Fin 4) (s : State) : State :=
  match s.cip.cores[k] with
  | some (.enc a i) =>
    let s1 := (freeCore k s).incF Reg.CIP_CNT_ENC Fld.CIP_CNT_ENC_COUNT
    match s.sch[a].pass with
    | none => s1
    | some p =>
      match s.passKey p i.zone with
      | none => s1
      | some key =>
        if p.blks.any (fun b => b.tag == i.tag) then
          s1.modChan a (fun c => { c with stage := c.stage ++ [⟨i.tag, true, sealField key (s.desc i.zone).ztype i⟩] })
        else s1
  | _ => s

def execCipherEncryptDone (k : Fin 4) (s : State) : Host.Outcome State Fault Refusal := .next (encryptDone k s)

/-- The first check of R293 that a sector fails: 8 misdirected, 9 its tag, 10 its stamp. -/
def openFails (t : Selvedge) (u lba : Nat) (z : ZDesc) (tagOk : Bool) : Option Nat :=
  if t.cls ≠ 1 ∨ t.lu ≠ u ∨ t.lba ≠ lba ∨ ((z.ztype = false ∨ t.fill = true) ∧ t.attempt ≠ 0) then some 8
  else if !tagOk then some 9
  else if z.ztype then (if t.stamp = z.stamp then none else some 10)
  else if (t.fill ∧ t.stamp = 0) ∨ (t.fill = false ∧ 1 ≤ t.stamp ∧ t.stamp < z.stamp) then none
  else some 10

/-- A sector passes: it is counted, and its block waits to be placed. What a reassignment needs of its trailer is kept (R204, R296). -/
def opened (a : Act) (p : SchPass) (b : PassBlk) (d : DecodedSector) (t : Selvedge) (plain : List Byte) (s : State) : State :=
  let s1 := s.incF Reg.CIP_CNT_DEC Fld.CIP_CNT_DEC_COUNT
  match p.kind with
  | .internal _ => s1
  | .host =>
    match s1.ctx? b.ctx with
    | none => s1
    | some x =>
      let keep := x.cls == 5 || d.second || (aget x.rereads b.blk).isSome || (aget x.rereads (b.blk + 4096)).isSome
      let x1 := if keep then { x with srcs := x.srcs.filter (fun q => q.1 != b.blk) ++ [(b.blk, t.stamp, t.attempt, t.fill)] } else x
      let i : InBlock := ⟨b.ctx, b.blk, plain, (d.field.drop 4096).take 16⟩
      let s2 := putCtx b.ctx x1 (if keep then logError x 3 1 (logError x 1 1 s1) else s1)
      { s2 with shu := { s2.shu with cipherIn := s2.shu.cipherIn.set a (s2.shu.cipherIn[a] ++ [i]) } }

/-- A sector fails a check: counted, recorded, raised where R316 and R317 say so; then R204 decides. -/
def openFailed (a : Act) (p : SchPass) (b : PassBlk) (d : DecodedSector) (t : Selvedge) (why u : Nat) (z : ZDesc) (s : State) : State :=
  let s1 := match why with
    | 8 => mediaRecord 4 a p b.tag u b.lba t.stamp (s.incF Reg.CV_CNT_STAMP Fld.CV_CNT_STAMP_MISDIR)
    | 9 => s.incF Reg.CIP_CNT_FAIL Fld.CIP_CNT_FAIL_TAG
    | _ =>
      let s1 := mediaRecord 3 a p b.tag u b.lba t.stamp (s.incF Reg.CV_CNT_STAMP Fld.CV_CNT_STAMP_LOST)
      if z.ztype = false ∨ z.stamp < t.stamp then raise 0xAE (.lu u) s1 else s1
  concludeFailed a (s1.modChan a (fun c => { c with failed := c.failed ++ [⟨d.slot, why, d.outcome, d.marks⟩] }))

/-- CIPHER_DECRYPT_DONE (R293, R294, R306). -/
def decryptDone (k : Fin 4) (s : State) : State :=
  match s.cip.cores[k] with
  | some (.dec a d) =>
    let s1 := freeCore k s
    match s.passOf a d.slot, s.passOf a d.slot >>= (fun r => s.luOfZone r.2.zone) with
    | some (p, b), some (l, _) =>
      let t := selvedgeOf d.field
      let z := s.desc b.zone
      let ct := d.field.take 4096
      match s.passKey p b.zone with
      | some key =>
        let n := nonceOf l.lu b.lba t.attempt t.stamp
        match openFails t l.lu (b.lba % 2 ^ 44) z (gcmTag key n (aadOf d.field) ct == t.tag) with
        | none => opened a p b d t (gcmCrypt key n ct) s1
        | some why => openFailed a p b d t why l.lu z s1
      | none =>
        match openFails t l.lu (b.lba % 2 ^ 44) z true with
        | none => s1
        | some why => openFailed a p b d t why l.lu z s1
    | _, _ => s1
  | _ => s

def execCipherDecryptDone (k : Fin 4) (s : State) : Host.Outcome State Fault Refusal := .next (decryptDone k s)

/-! ### Re-keying a zone (R307) -/

def rekeyDone (r : Nat) (s : State) : State :=
  (s.setB Reg.CIP_REKEY_CMD Fld.CIP_REKEY_CMD_BUSY false).setF Reg.CIP_REKEY_CMD Fld.CIP_REKEY_CMD_RESULT r

/-- The internal zone operation that carries a re-key of LU zone n. -/
def rekeyCtx (s : State) (l : LuCfg) (n : Nat) : Ctx :=
  { state := .waiting, attr := .simple, heldFlag := false, pinned := false, abort := false, lu := l.lu, port := 2, init := 0, tag := 0
    cdb := padTo 16 [0x94#8], lba := n * 65536, nblk := 0, seq := s.intake.nextSeq, adm := s.intake.nextSeq, admitT := s.now, segs := []
    hostDone := 0, err := none, prot := 0, pifmt := 0, cls := 3, reserve := false, bobs := [], credits := 0, preds := [], placed := []
    queuedAt := s.now, param := [], response := [], taken := [], rereads := [], slotEnds := [], contd := [], queuedOnce := false, pinFrom := [], pinCnt := 0
    requested := 0, outstanding := false, acked := 0, doom := none, part := false, saved := false, phase := 0, srcs := [], moved := [] }

/-- A GO: refused with a result, or a zone operation takes its place in the LU's order. -/
def rekeyGo (g : Nat) (s : State) : State :=
  match s.luOfZone g with
  | none => rekeyDone 5 s
  | some (l, n) =>
    match s.rekeyRefusal l.lu g, s.freeCtx (Config.ctxStart s.free) with
    | some r, _ => rekeyDone r s
    | none, none => s
    | none, some c =>
      let x := rekeyCtx s l n
      let s1 := { s with
        free := s.free + 1
        cip := { s.cip with rekey := some c }
        intake := { s.intake with nextSeq := s.intake.nextSeq + 1, ctxs := aset s.intake.ctxs c { x with heldFlag := s.activating } } }
      let s2 := (s1.setB Reg.CIP_REKEY_CMD Fld.CIP_REKEY_CMD_BUSY true).setF Reg.INT_STAT Fld.INT_STAT_CTX_FREE (s1.ctxFree - 1)
      settleAll [.go c] (linkOrder c s2)

/-- A GO is ignored while a re-key is in progress. -/
def rekeyCmd (s : State) : State :=
  if s.bitF Reg.CIP_REKEY_CMD Fld.CIP_REKEY_CMD_BUSY then s else rekeyGo (s.getF Reg.CIP_REKEY_ADDR Fld.CIP_REKEY_ADDR_ZONE) s

/-- ZONE_REKEY: GO in a Keeper session. -/
def execZoneRekey (n : Fin 4) (s : State) : Host.Outcome State Fault Refusal :=
  .next (if s.may n .keeper then rekeyCmd s else s)

end Sys2Proof.Machine
end

