-- ==== Sys2Proof/Machine/SysRec.lean ====
section
/-! DEFINITION. System records (R30, R32, R33, R45), and what they hold: defect tables (R44, R45) and descriptor save records (R274). -/

namespace Sys2Proof.Machine

/-! ### System records (R32, R33, R45) -/

/-- Protected field of a system record: plaintext data, no PI, and a Selvedge with TAG zero, the generation as STAMP, the record's ordinal in all 48
bits of LBA_TAG, LU 0xFF and CLASS 0b111. -/
def sysField (gen ord : Nat) (data : List Byte) : List Byte :=
  mkField (padTo 4096 data) [] ⟨zeros 16, gen % 2 ^ 32, ord % 2 ^ 44, ord / 2 ^ 44 % 16, 0xFF, false, 0, false, false, 7⟩

/-- STAMP and data of system record `ord` as its slot was read; none where the slot holds no valid record of that ordinal. -/
def sysRead (ord : Nat) (field : List Byte) : Option (Nat × List Byte) :=
  let t := selvedgeOf field
  if field.length = 4144 ∧ fieldCrcOk field ∧ t.cls = 7 ∧ t.lba + 2 ^ 44 * t.attempt = ord then some (t.stamp, field.take 4096) else none

/-- A byte string cut into the data of system records. -/
def sysCut : Nat → List Byte → List (List Byte)
  | 0, _ => []
  | n + 1, l => l.take 4096 :: (if l.length ≤ 4096 then [] else sysCut n (l.drop 4096))

/-- A byte string as system records of a generation. -/
def sysFields (gen : Nat) (l : List Byte) : List (List Byte) := (sysCut (l.length / 4096 + 1) l).zipIdx.map (fun e => sysField gen e.2 e.1)

/-- The data of records read in their order; none where one of them is not valid. -/
def sysJoin : Nat → List (List Byte) → Option (List Byte)
  | _, [] => some []
  | n, f :: t =>
    match sysRead n f, sysJoin (n + 1) t with
    | some x, some l => some (x.2 ++ l)
    | _, _ => none

/-- System-band cylinder c as an absolute one (R38). -/
def sysCyl (c : Nat) : Nat := 128 + c

/-- Where the n-th slot in logical order from slot 0 of a system-band cylinder lies: cylinder and slot (R37, R45). -/
def State.sysPlace (s : State) (a : Act) (c n : Nat) : Nat × Nat :=
  match s.cfg.acts[a].zones with
  | [] => (sysCyl c, 0)
  | z :: _ =>
    let cyl := sysCyl c + n / max 1 z.nz
    (cyl, (n % max 1 z.nz + cyl * z.kz) % max 1 z.nz)

/-! ### Defect tables (R44) -/

/-- An entry: CYL, SLOT, KIND and SPARE; the spare is counted in its media zone. -/
def State.entryWord (s : State) (f : Surface) (e : DefEntry) : Nat :=
  let p := s.ordPlace f.act e.rz e.ord
  let span := match s.cfg.acts.toList[f.act]? with
    | some c => (match c.zones[e.rz]? with | some z => mediaSlots z | none => 1)
    | none => 1
  p.1 % 2 ^ 22 + 2 ^ 22 * (p.2 % 2 ^ 11) + (match e.spare with | some o => 2 ^ 33 + 2 ^ 34 * (o % span) | none => 0)

/-- The sort key of an entry: cylinder, then slot. -/
def entryKey (w : Nat) : Nat := w % 2 ^ 22 * 2 ^ 11 + w / 2 ^ 22 % 2 ^ 11

/-- A surface's table as it is written: the header, the entries sorted by cylinder and slot, and their CRC. -/
def State.tableBytes (s : State) (f : Surface) : List Byte :=
  let h := leBytes 4 0x54445943 ++ leBytes 2 1 ++ leBytes 1 f.head ++ leBytes 1 f.act ++ leBytes 4 f.gen ++ leBytes 4 f.prim.length
    ++ leBytes 4 f.grown.length ++ zeros 40
  let ws := ((f.prim ++ f.grown).map (s.entryWord f)).mergeSort (fun v w => decide (entryKey v ≤ entryKey w))
  let es := ws.flatMap (leBytes 8)
  h ++ leBytes 4 (crc32c h).toNat ++ es ++ leBytes 4 (crc32c es).toNat

/-- Put an entry in ordinal order, in place of one for the same slot. -/
def insertDef (e : DefEntry) : List DefEntry → List DefEntry
  | [] => [e]
  | f :: t =>
    if f.rz = e.rz ∧ f.ord = e.ord then e :: t
    else if e.rz < f.rz ∨ (e.rz = f.rz ∧ e.ord < f.ord) then e :: f :: t
    else f :: insertDef e t

/-- The recording zone that a data cylinder lies in. -/
def rzOf (zs : List ZoneCfg) (cyl : Nat) : Option Nat :=
  (List.range zs.length).find? (fun z => decide (firstDataCyl zs z ≤ cyl) &&
    decide (cyl < firstDataCyl zs z + (match zs[z]? with | some k => k.cyls | none => 0)))

/-- Recording zone and ordinal of a slot on a data cylinder (R37, R39). -/
def ordOf (zs : List ZoneCfg) (cyl slot : Nat) : Option (Nat × Nat) :=
  match rzOf zs cyl with
  | none => none
  | some rz =>
    match zs[rz]? with
    | none => none
    | some z => if z.nz = 0 then none else some (rz, (cyl - firstDataCyl zs rz) * z.nz + (slot + z.nz - cyl * z.kz % z.nz) % z.nz)

/-- The defect that an entry names; none for an entry on a cylinder that holds no blocks. -/
def entryDef (zs : List ZoneCfg) (w : Nat) : Option DefEntry :=
  match ordOf zs (w % 2 ^ 22) (w / 2 ^ 22 % 2 ^ 11) with
  | none => none
  | some (rz, o) =>
    let span := match zs[rz]? with | some z => mediaSlots z | none => 1
    some ⟨rz, o, if w / 2 ^ 33 % 2 = 1 then some (o / span * span + w / 2 ^ 34 % 2 ^ 17) else none⟩

/-- Most entries of a table. -/
def maxEntries : Nat := 524288

/-- The table of surface (a, head) that a byte string holds, as it lies in HBM3 (R278): none where MAGIC, VERSION, HEAD or ACT is another, or a CRC
does not match. -/
def readTable (zs : List ZoneCfg) (a head : Nat) (l : List Byte) : Option Surface :=
  let n := fieldAt l 12 4 + fieldAt l 16 4
  let es := (l.drop 64).take (8 * n)
  if l.length < 68 ∨ fieldAt l 0 4 ≠ 0x54445943 ∨ fieldAt l 4 2 ≠ 1 ∨ fieldAt l 6 1 ≠ head ∨ fieldAt l 7 1 ≠ a
      ∨ (crc32c (l.take 60)).toNat ≠ fieldAt l 60 4 ∨ maxEntries < n ∨ l.length < 68 + 8 * n
      ∨ (crc32c es).toNat ≠ fieldAt l (64 + 8 * n) 4 then none
  else
    let ds := (List.range n).filterMap (fun i => entryDef zs (fieldAt es (8 * i) 8))
    let sorted (p : DefEntry → Bool) : List DefEntry := (ds.filter p).foldl (fun l e => insertDef e l) []
    let grown := sorted (·.spare.isSome)
    some { act := a, head := head, cap := grown.length + 4096, gen := fieldAt l 8 4, primOfs := 0, grownOfs := 0, prim := sorted (·.spare.isNone), grown := grown }

/-- The table that a copy's records hold. -/
def readCopy (zs : List ZoneCfg) (a head : Nat) (fields : List (List Byte)) : Option Surface :=
  match sysJoin 0 fields with
  | some l => readTable zs a head l
  | none => none

/-! ### The defect region of HBM3 (R278) -/

def defectBase : Nat := 0x2D000000

/-- A surface's directory entry. -/
def dirEntry (f : Surface) : List Byte :=
  leBytes 4 f.primOfs ++ leBytes 4 f.prim.length ++ leBytes 4 f.grownOfs ++ leBytes 4 f.grown.length ++ leBytes 4 f.cap ++ leBytes 4 f.gen ++ zeros 8

/-- A surface's arrays, and after them its directory entry, are written to HBM3. -/
def layTable (f : Surface) (s : State) : State :=
  let s1 := s.hbmWrite (defectBase + f.primOfs) (f.prim.flatMap (fun e => leBytes 8 (s.entryWord f e)))
  let s2 := s1.hbmWrite (defectBase + f.grownOfs) (f.grown.flatMap (fun e => leBytes 8 (s.entryWord f e)))
  s2.hbmWrite (defectBase + 32 * (f.act * 16 + f.head)) (dirEntry f)

/-- A changed table takes the place of the one of its surface. -/
def putSurface (f : Surface) (s : State) : State :=
  layTable f { s with zones := { s.zones with
    surfaces := s.zones.surfaces.map (fun (x : Surface) => if x.act == f.act && x.head == f.head then f else x) } }

/-- Arrays placed one behind the other from an offset on, and the offset behind the last. -/
def placeTables : Nat → List Surface → List Surface × Nat
  | n, [] => ([], n)
  | n, f :: t =>
    let g := n + 8 * f.prim.length
    let r := placeTables (g + 8 * f.cap) t
    ({ f with primOfs := n, grownOfs := g } :: r.1, r.2)

/-! ### Descriptor save records (R274) -/

/-- Actuator and number of a zone's save record, by its place in the image, and the place of its descriptor in it. -/
def State.imageSave (s : State) (g : Nat) : Nat × Nat × Nat :=
  match s.luOfZone g with
  | none => (0, 0, 0)
  | some (l, n) =>
    match findRun l.runs n with
    | none => (0, 0, 0)
    | some (r, i) =>
      let p := match s.cfg.acts.toList[r.act]? with | some c => savePos c.zones r.head r.rz (r.first + i) | none => 0
      (r.act, p / 128, p % 128)

/-- The save record of a zone by its place in the image (R274). -/
def State.imageRec (s : State) (g : Nat) : Nat := (s.imageSave g).2.1

/-- The lease of a conventional zone: the live counter rounded up to the next multiple of 65,536. -/
def leaseFor (stamp : Nat) : Nat := min 0xFFFFFFFF ((stamp / 65536 + 1) * 65536)

/-- The bytes that a zone's descriptor is saved with: a conventional zone's STAMP as its lease (R276). -/
def State.savedForm (s : State) (g : Nat) : List Byte :=
  let d := s.desc g
  if d.ztype then s.zoneBytes g else { d with stamp := leaseFor d.stamp }.encode

/-- Zones of record r of actuator a. -/
def State.recZones (s : State) (a : Act) (r : Nat) : List Nat :=
  (s.cfg.lus.flatMap (·.zones)).filter (fun g => (s.imageSave g).1 == a.val && (s.imageSave g).2.1 == r)

/-- The 4,096 bytes of a record: each zone's descriptor at its place, unused places zero. -/
def State.recData (s : State) (a : Act) (r : Nat) : List Byte :=
  let zs := s.recZones a r
  (List.range 128).flatMap (fun i => match zs.find? (fun g => (s.imageSave g).2.2 == i) with | some g => padTo 32 (s.savedForm g) | none => zeros 32)

/-- What the data of a record holds for each of its zones. -/
def State.recHolds (s : State) (a : Act) (r : Nat) (data : List Byte) : List (Nat × List Byte) :=
  (s.recZones a r).map (fun g => (g, (data.drop (32 * (s.imageSave g).2.2)).take 32))

/-- The generation of the next save of a record. -/
def State.nextGen (s : State) (a : Act) (r : Nat) : Nat :=
  match s.zones.saved.find? (fun x => x.act == a.val && x.rcd == r) with | some x => (x.gen + 1) % 2 ^ 32 | none => 1

end Sys2Proof.Machine
end

