-- ==== Sys2Proof/Machine/SchedPick.lean ====
section
/-! DEFINITION. What the scheduler weighs (R216 to R221, R225, R228, R230): the segments queued on an actuator and their window, the
sectors of a pass, access cost, and the internal work that is due. -/

namespace Sys2Proof.Machine

/-! ### The window (R218) -/

/-- B_a in ascending LU number. -/
def State.backlog (s : State) (a : Act) : List Nat :=
  ((s.cfg.lus.map (·.lu)).mergeSort (fun m n => decide (m ≤ n))).filter (fun u => s.backlogged a u)

/-- Age order: first queued first, then the earlier SEQ, then the lower segment. -/
def Cand.older (k l : Cand) : Bool :=
  decide (k.x.queuedAt < l.x.queuedAt) || (k.x.queuedAt == l.x.queuedAt &&
    (decide (k.x.seq < l.x.seq) || (k.x.seq == l.x.seq && decide (k.i ≤ l.i))))

def State.luDepth (s : State) : Nat :=
  let d := s.getF Reg.SCH_CFG Fld.SCH_CFG_LU_DEPTH
  if d = 0 then 16 else d

/-- The window (R218): the oldest segment of every LU, then further ones in rotation. -/
def State.schWindow (s : State) (a : Act) : List Cand :=
  let q := (s.queuedOn a).mergeSort Cand.older
  let per := (s.cfg.lus.map (·.lu)).mergeSort (fun m n => decide (m ≤ n)) |>.map (fun u => q.filter (fun k => k.x.lu == u))
  ((List.range s.luDepth).flatMap (fun r => per.filterMap (fun (l : List Cand) => l[r]?))).take 256

/-! ### Spares (R42, R43) -/

/-- The zone of the segment of a context that a block lies in. -/
def Ctx.zoneOfBlk (x : Ctx) (blk : Nat) : Option Nat :=
  (x.segs.find? (fun g => decide (g.base ≤ blk) && decide (blk < g.base + g.count))).map (·.zone)

/-- The spares given to a command on a surface's recording zone. -/
def State.ctxSpares (s : State) (act head rz : Nat) (x : Ctx) : List Nat :=
  x.moved.filterMap (fun m => match x.zoneOfBlk m.1 with
    | some z =>
      let d := s.desc (s.globalZone x.lu z)
      if d.act = act ∧ d.head = head ∧ d.rz = rz then some m.2.1 else none
    | none => none)

/-- Ordinals already taken as spares on a surface's recording zone: in its table, waiting for it, or given to a command. Whether a spare that failed,
and whose entry another spare replaced, is unused again is not said (R42): it counts as unused (DESIGN CHOICE, log entry 45). -/
def State.takenSpares (s : State) (act head rz : Nat) : List Nat :=
  (match s.surface act head with | some (f : Surface) => (f.grown.filter (fun e => e.rz == rz)).filterMap (·.spare) | none => [])
  ++ (s.zones.grow.filter (fun g => g.act == act && g.head == head && g.rz == rz)).map (·.spare)
  ++ s.intake.ctxs.flatMap (fun e => s.ctxSpares act head rz e.2)

/-- The lowest unused spare of a zone's media zone. -/
def State.nextSpare (s : State) (g : Nat) : Option Nat :=
  let d := s.desc g
  match s.cfg.acts.toList[d.act]? with
  | none => none
  | some c =>
    match c.zones[d.rz]? with
    | none => none
    | some z =>
      let base := d.mzone * mediaSlots z
      let prim : List Nat := match s.surface d.act d.head with
        | some (f : Surface) => (f.prim.filter (fun e => e.rz == d.rz && decide (base ≤ e.ord) && decide (e.ord < base + mediaSlots z))).map (·.ord)
        | none => []
      let good := (List.range (mediaSlots z)).map (fun n => base + n) |>.filter (fun o => !prim.contains o)
      let used := s.takenSpares d.act d.head d.rz
      (good.drop 65536).find? (fun o => !used.contains o)

/-! ### The sectors of a pass (R37, R39, R40) -/

/-- A sector to come: its cylinder and slot, and itself without its tag. -/
structure Place where
  cyl : Nat
  slot : Nat
  blk : PassBlk
  deriving DecidableEq, Repr

/-- Where block `blk` of a segment goes: its slot, or the spare that takes its place, after the slot it leaves where that is still to
be overwritten (R298). -/
def State.placesOf (s : State) (k : Cand) (blk : Nat) : List Place :=
  let z := s.globalZone k.x.lu k.g.zone
  let b := k.g.start + (blk - k.g.base)
  let lba := k.g.zone * 65536 + b
  let d := s.desc z
  let old := s.blockPlace z b
  match k.x.moved.find? (fun m => m.1 == blk) with
  | some m =>
    let p := s.ordPlace d.act d.rz m.2.1
    (if m.2.2 then [⟨old.1, old.2.1, ⟨0, k.c, k.i, blk, z, lba, old.2.2, true⟩⟩] else []) ++ [⟨p.1, p.2, ⟨0, k.c, k.i, blk, z, lba, true, false⟩⟩]
  | none =>
    if k.x.cls = 5 ∧ k.x.phase = 1 then
      match s.nextSpare z with
      | some o => let p := s.ordPlace d.act d.rz o; [⟨p.1, p.2, ⟨0, k.c, k.i, blk, z, lba, true, false⟩⟩]
      | none => [⟨old.1, old.2.1, ⟨0, k.c, k.i, blk, z, lba, old.2.2, false⟩⟩]
    else [⟨old.1, old.2.1, ⟨0, k.c, k.i, blk, z, lba, old.2.2, false⟩⟩]

/-- Sectors in order, tag by tag, a track for each run on one cylinder: the sectors tagged and the tracks. -/
def layOut : List Place → List (Nat × List Nat) → List PassBlk → List PassBlk × List (Nat × List Nat)
  | [], ts, bs => (bs.reverse, (ts.map (fun t => (t.1, t.2.reverse))).reverse)
  | p :: rest, ts, bs =>
    match ts with
    | (c, l) :: more =>
      if c = p.cyl then
        let tag := (ts.length - 1) * 2048 + p.slot
        layOut rest ((c, tag :: l) :: more) ({ p.blk with tag := tag } :: bs)
      else
        let tag := ts.length * 2048 + p.slot
        layOut rest ((p.cyl, [tag]) :: ts) ({ p.blk with tag := tag } :: bs)
    | [] => layOut rest [(p.cyl, [p.slot])] ({ p.blk with tag := p.slot } :: bs)

def emptyPass : SchPass := ⟨.host, false, [], [], 0, 0, none, 0, 0, 0, 0, false, 0, 0, 0, [], [], false, []⟩

/-- A pass over places. -/
def mkPass (kind : PassKind) (write : Bool) (head : Nat) (lu : Option Nat) (l : List Place) : SchPass :=
  let r := layOut l [] []
  { emptyPass with kind := kind, write := write, head := head, lu := lu, blks := r.1, tracks := r.2 }

/-- Writes of the same zone that follow a write in the zone's chain of R200 and wait for nothing else (R225). -/
def State.successors (s : State) : Nat → Cand → Nat → List Cand
  | 0, _, _ => []
  | n + 1, k, room =>
    let ends := k.g.start + k.g.count
    if k.x.cls ≠ 1 ∨ (List.range k.x.segs.length).any (fun i => i != k.i && (match k.x.segs[i]? with | some g => decide (g.done < g.count) | none => false)) then []
    else
      match s.intake.ctxs.findSome? (fun e =>
          if e.2.cls == 1 && e.2.state == .waiting && e.2.lu == k.x.lu && !e.2.heldFlag && !e.2.abort && e.2.doom.isNone && e.2.preds == [k.c]
            && e.2.attr != .ordered && k.x.attr != .ordered then
            (List.range e.2.segs.length).findSome? (fun i => match e.2.segs[i]? with
              | some g => if g.zone = k.g.zone ∧ g.start = ends ∧ g.count ≤ room then some (⟨e.1, e.2, i, g⟩ : Cand) else none
              | none => none)
          else none) with
      | none => []
      | some m => m :: s.successors n m (room - m.g.count)

/-- The pass that a segment takes. -/
def State.hostPass (s : State) (k : Cand) : SchPass :=
  let todo := k.todo
  let own := todo.flatMap (s.placesOf k)
  let more := if k.writes && k.x.cls == 1 && (s.desc (s.globalZone k.x.lu k.g.zone)).ztype then
      (s.successors 2048 k (2048 - todo.length)).flatMap (fun m => m.todo.flatMap (s.placesOf m))
    else []
  mkPass .host k.writes k.g.head (some k.x.lu) (own ++ more)

/-! ### Access cost (R219, R220) -/

/-- Whether a seek of `d` (1/16,384 cylinder) is done after `num / den` Shed clocks (R106). -/
def seekWithin (d vmax amax jmax num den : Nat) : Bool :=
  if 16384 * vmax * (vmax * jmax + amax * amax) ≤ d * amax * jmax then
    decide (den * (400000 * (d * amax * jmax + 16384 * (vmax * vmax * jmax + amax * amax * vmax))) ≤ num * 16384 * vmax * amax * jmax)
  else if 2 * 16384 * amax ^ 3 ≤ d * jmax ^ 2 then
    decide (den * (400000 * amax) ≤ num * jmax) &&
      decide (den ^ 2 * (400000 ^ 2 * (16384 * amax ^ 3 + 4 * d * jmax ^ 2)) ≤ (num * jmax - den * (400000 * amax)) ^ 2 * 16384 * amax)
  else decide (den ^ 3 * (d * (4 * 400000) ^ 3) ≤ num ^ 3 * 2 * jmax * 16384)

/-- The least n from lo to hi with p n, for p that stays true once it is; hi where there is none below. -/
def leastFrom (p : Nat → Bool) : Nat → Nat → Nat → Nat
  | 0, _, hi => hi
  | n + 1, lo, hi =>
    if hi ≤ lo then hi
    else
      let m := (lo + hi) / 2
      if p m then leastFrom p n lo m else leastFrom p n (m + 1) hi

/-- The whole wedges of a seek over so many cylinders at the present limits; one wedge period is 384 × 10^9 / (W × 16 n) Shed clocks. -/
def State.seekWedges (s : State) (a : Act) (cyls : Nat) : Nat :=
  if cyls = 0 then 0 else
  let v := s.getF (Reg.ACU_TRD_VMAX a) Fld.ACU_TRD_VMAX_LIMIT
  let m := s.getF (Reg.ACU_TRD_AMAX a) Fld.ACU_TRD_AMAX_LIMIT
  let j := s.getF (Reg.ACU_TRD_JMAX a) Fld.ACU_TRD_JMAX_LIMIT
  leastFrom (fun k => seekWithin (16384 * cyls) v m j (k * 384000000000) (max 1 (s.spin16 a))) 64 0 (2 ^ 32)

/-- Cylinder, head and direction that the actuator will have at the end of its pass, or has. -/
def State.comesFrom (s : State) (a : Act) : Nat × Nat × Bool :=
  match s.sch[a].pass with
  | some p => ((match p.tracks.getLast? with | some t => t.1 | none => s.sch[a].cyl), p.head, p.write)
  | none => (s.sch[a].cyl, s.sch[a].head, s.sch[a].writing)

/-- Frames of a script, at 20 link clocks of 40 ns each (R48). -/
def scriptNs (frames : Nat) : Nat := 800 * frames

/-- t_ready of a pass that begins on a cylinder with a head in a direction, in ns (R220). -/
def State.tReady (s : State) (a : Act) (cyl head : Nat) (write : Bool) : Rat :=
  let f := s.comesFrom a
  let zs := s.cfg.acts[a].zones
  let rz := zoneOfCyl zs cyl
  let rad (h : Nat) : Int := skewRadial (s.chan[a].skewOf h rz)
  let newHead := head != f.2.1
  let seek :=
    if f.1 = cyl then (if newHead then s.seekWedges a (rad f.2.1 - rad head).natAbs + 1 else 0)
    else s.seekWedges a ((cyl : Int) - f.1).natAbs
  let settle := if write then atLeast1 (s.getF (Reg.ACU_SETTLE_CFG a) Fld.ACU_SETTLE_CFG_WR_N)
    else atLeast1 (s.getF (Reg.ACU_SETTLE_CFG a) Fld.ACU_SETTLE_CFG_RD_N)
  let pa := s.cfg.preamp[a]
  let sel := if newHead then scriptNs (pa.select.getD head []).length else 0
  let mode := if write != f.2.2 then scriptNs (if write then pa.writeEntry else pa.readEntry).length else 0
  let hs : Rat := if newHead || write != f.2.2 then
      (match zs[rz]? with | some z => if z.fz = 0 then 0 else (z.headSettle : Rat) * s.frameNs a / (z.fz : Rat) | none => 0)
    else 0
  ((seek + settle : Nat) : Rat) * s.frameNs a + ((sel + mode : Nat) : Rat) + hs + (s.getF Reg.SCH_CFG2 Fld.SCH_CFG2_MARGIN : Rat)

/-- x modulo w, for w > 0. -/
def ratMod (x w : Rat) : Rat := if w = 0 then 0 else x - w * ((x / w).floor : Rat)

/-- The target angle of a slot, in frames (R219, R35, R21). -/
def State.targetAngle (s : State) (a : Act) (cyl head slot : Nat) : Rat :=
  let zs := s.cfg.acts[a].zones
  let rz := zoneOfCyl zs cyl
  match zs[rz]? with
  | none => 0
  | some z =>
    if z.fz = 0 ∨ framePayload z = 0 then 0 else
    let b := slotStart slot
    let ang : Int := signed 16 (Fld.ACU_SKEW_DATA_ANGLE.get (s.chan[a].skewOf head rz))
    ((b / framePayload z : Nat) : Rat) + ((z.sv + 8 + b % framePayload z : Nat) : Rat) / (z.fz : Rat) + (ang : Rat) / (64 * (z.fz : Rat))

/-- Warp cycles in a frame of the zone under the warp head. -/
def State.frameCycles (s : State) (a : Act) : Nat := match s.cfg.acts[a].zones[s.chan[a].zone]? with | some z => max 1 z.fz | none => 1

/-- The access cost of a pass in ns (R220), with the channel's warp cycle count of the snapshot. -/
def State.accessCost (s : State) (a : Act) (cyc : Nat) (p : SchPass) : Nat :=
  match p.tracks.head?, p.blks.head? with
  | some t, some b =>
    let w : Rat := (s.cfg.spin[hdaOf a].wedges : Rat)
    let tf := s.frameNs a
    let ready := s.tReady a t.1 p.head p.write
    let at_ := (s.chan[a].frame : Rat) + (cyc : Rat) / (s.frameCycles a : Rat) + (if tf = 0 then 0 else ready / tf)
    let rot := ratMod (s.targetAngle a t.1 p.head (b.tag % 2048) - at_) w
    let cost := ready + rot * tf
    let n := cost.floor
    if (n : Rat) = cost then n.toNat else if Config.costRoundUp cost.num cost.den then n.toNat + 1 else n.toNat
  | _, _ => 0

/-- The time the sectors of a pass take once it has begun, in ns: their bytes at the payload rate of their zone. -/
def State.transferNs (s : State) (a : Act) (p : SchPass) : Rat :=
  match p.tracks.head? with
  | none => 0
  | some t =>
    match s.cfg.acts[a].zones[zoneOfCyl s.cfg.acts[a].zones t.1]? with
    | none => 0
    | some z => if framePayload z = 0 then 0 else (((p.blks.length * 4626 : Nat) : Rat) / (framePayload z : Rat)) * s.frameNs a

/-- The predicted service S of R222 in µs; which way a half or more rounds is open (log entry 19). -/
def State.predict (s : State) (a : Act) (cyc : Nat) (p : SchPass) : Nat :=
  let us := ((s.accessCost a cyc p : Rat) + s.transferNs a p) / 1000
  let n := us.floor.toNat
  if 2 * (us - (n : Rat)) < 1 then n else if Config.costRoundUp us.num us.den then n + 1 else n

/-! ### What may be chosen (R217, R29, R272, R276, R395) -/

/-- The actuator can carry a pass. -/
def State.actAble (s : State) (a : Act) : Bool :=
  s.chan[a].locked && !s.power.stopWait[a] && !s.bitF Reg.FLT_STOP Fld.FLT_STOP_DEVICE
    && (match s.acu[a].state with | .seek | .settle | .follow => true | _ => false)

/-- ROTOR, SPEED or FORCE withholds writes. -/
def State.writesWithheld (s : State) (a : Act) : Bool :=
  let l := s.getF (Reg.ACU_WI_STAT a) Fld.ACU_WI_STAT_LIVE
  l / 8 % 2 == 1 || l / 16 % 2 == 1 || l / 512 % 2 == 1

/-- The lease of a conventional zone's counter (R276). -/
def State.leaseOf (s : State) (g : Nat) : Nat := (aget s.zones.lease g).getD 0

/-- A first dispatch of a write that has to wait for a save: its counter value is not covered by the lease, or the attempt number
has changed and its record is not saved. -/
def State.waitsLease (s : State) (k : Cand) : Bool :=
  let g := s.globalZone k.x.lu k.g.zone
  let d := s.desc g
  k.x.cls == 1 &&
    (if d.ztype then d.attempt != 0 && !k.x.contd.contains k.i && s.zones.marked.contains (s.saveRec g)
     else (aget k.x.taken k.i).isNone && decide (s.leaseOf g ≤ d.stamp))

/-- Whether a decision may choose a segment. No host work is dispatched on an actuator that bring-up has not made Ready (R367). -/
def State.choosable (s : State) (a : Act) (k : Cand) : Bool :=
  s.actAble a && s.ownBits .act a.val / 2 % 2 == 0 && !s.actOut a && !s.headOut a.val k.g.head && !(k.writes && s.writesWithheld a) && !s.waitsLease k
    && !s.reloading (s.globalZone k.x.lu k.g.zone)

/-! ### Internal work (R227 to R231) -/

def Work.isIntegrity : Work → Bool
  | .verify _ _ _ | .defect _ _ | .reload _ | .save _ => true
  | _ => false
def Work.isFill : Work → Bool | .fill _ _ => true | _ => false

/-- A sector of an internal pass: a slot on a cylinder of a head, with what it holds. -/
def State.workPlace (s : State) (a : Act) (head cyl slot : Nat) : Option Place :=
  match s.slotHolds a head cyl slot with
  | .guard => none
  | .system => some ⟨cyl, slot, ⟨0, ctxCount, 0, 0, 0, systemMark, false, false⟩⟩
  | .noBlock => some ⟨cyl, slot, ⟨0, ctxCount, 0, 0, 0, noBlockMark, false, false⟩⟩
  | .block g lba sp => some ⟨cyl, slot, ⟨0, ctxCount, 0, 0, g, lba, sp, false⟩⟩

/-- Slots of a track that have bytes in a frame (R35). -/
def slotsOfFrame (z : ZoneCfg) (frame : Nat) : List Nat :=
  let p := framePayload z
  (List.range z.nz).filter (fun n => decide (n * 4626 < (frame + 1) * p) && decide (frame * p < n * 4626 + 4626))

/-- The slots of a neighbour verify (R228). -/
def State.verifyPlaces (s : State) (a : Act) (cyl head frame : Nat) : List Place :=
  let zs := s.cfg.acts[a].zones
  ((if cyl = 0 then [] else [cyl - 1]) ++ [cyl + 1]).flatMap (fun c =>
    match zs[zoneOfCyl zs c]? with
    | some z => (slotsOfFrame z frame).filterMap (s.workPlace a head c)
    | none => [])

/-- Slots that pass in ST_SEG. -/
def State.segSlots (s : State) (a : Act) (z : ZoneCfg) : Nat :=
  let ms := atLeast1 (s.getF Reg.SCH_BG_CFG Fld.SCH_BG_CFG_ST_SEG)
  max 1 (ms * s.scu[hdaOf a].speed16 * z.nz / 960000)

/-- The slots of a self-test segment from ordinal `start` of a head's recording zone; an extended one reads written slots only. -/
def State.selftestPlaces (s : State) (a : Act) (head rz start : Nat) (ext : Bool) : List Place :=
  match s.cfg.acts[a].zones[rz]? with
  | none => []
  | some z =>
    let n := min (s.segSlots a z) (z.cyls * z.nz - start)
    (List.range n).filterMap (fun k =>
      let p := s.ordPlace a.val rz (start + k)
      match s.ordHolds a.val head rz (start + k) z with
      | .block g lba sp => some ⟨p.1, p.2, ⟨0, ctxCount, 0, start + k, g, lba, sp, false⟩⟩
      | .noBlock => if ext then none else some ⟨p.1, p.2, ⟨0, ctxCount, 0, start + k, 0, noBlockMark, false, false⟩⟩
      | _ => none)

/-- The blocks of a fill pass (R297): up to 2,048 from block `start` of a zone. -/
def State.fillPlaces (s : State) (g start : Nat) : List Place :=
  match s.luOfZone g with
  | none => []
  | some (_, n) =>
    (List.range (min 2048 (65536 - start))).map (fun k =>
      let p := s.blockPlace g (start + k)
      ⟨p.1, p.2.1, ⟨0, ctxCount, 0, start + k, g, n * 65536 + start + k, p.2.2, false⟩⟩)

/-- The target of a calibration window: a cylinder of the media zone written last on the head and zone, else the middle one (R406). -/
def State.calCyl (s : State) (a : Act) (head rz : Nat) : Nat :=
  let zs := s.cfg.acts[a].zones
  let mid := firstDataCyl zs rz + (match zs[rz]? with | some z => z.cyls / 2 | none => 0)
  let mine := (s.cfg.lus.flatMap (·.zones)).filter (fun g =>
    let d := s.desc g
    d.act == a.val && d.head == head && d.rz == rz && (if d.ztype then decide (0 < d.wp) else (aget s.zones.lastW g).isSome))
  match mine.foldl (fun (b : Option Nat) g => match b with
      | none => some g
      | some h => if (aget s.zones.lastW h).getD 0 < (aget s.zones.lastW g).getD 0 then some g else some h) none with
  | some g => (s.blockPlace g 0).1
  | none => mid

/-- A pass that writes system records, each copy from a system-band cylinder on in logical slot order (R45, R274). -/
def State.recPass (s : State) (a : Act) (w : Work) (head : Nat) (copies : List (Nat × Nat × List (List Byte))) : SchPass :=
  let recs := copies.flatMap (fun c => c.2.2.zipIdx.map (fun e => (s.sysPlace a c.1 (c.2.1 + e.2), e.1)))
  let places := recs.zipIdx.map (fun e => (⟨e.1.1.1, e.1.1.2, ⟨0, ctxCount, 0, e.2, 0, systemMark, false, false⟩⟩ : Place))
  { mkPass (.internal w) true head none places with recs := recs.map (·.2) }

/-- A surface's table with the reassignments that wait for it, one generation on (R42, R46). -/
def State.newTable (s : State) (f : Surface) : Surface :=
  let mine := s.zones.grow.filter (fun g => g.act == f.act && g.head == f.head)
  { f with gen := (f.gen + 1) % 2 ^ 32, grown := mine.foldl (fun l g => insertDef ⟨g.rz, g.ord, some g.spare⟩ l) f.grown }

/-- The pass that writes a surface's table: copy B completely, then copy A; a rewrite puts one copy in order at the generation of the other (R46). -/
def State.tablePass (s : State) (a : Act) (head : Nat) (job : TableJob) : SchPass :=
  let f : Surface := match s.surface a.val head with | some f => f | none => ⟨a.val, head, [], [], 0, 0, 0, 0⟩
  let t := match job with | .update => s.newTable f | _ => f
  let l := sysFields t.gen (s.tableBytes t)
  let b := (512 + 8 * head, 0, l)
  let c := (8 * head, 0, l)
  s.recPass a (.defect head job) head (match job with | .update => [b, c] | .copyA => [c] | .copyB => [b])

/-- The pass that carries a piece of internal work. -/
def State.workPass (s : State) (a : Act) (w : Work) : SchPass :=
  match w with
  | .verify cyl head frame => mkPass (.internal w) false head none (s.verifyPlaces a cyl head frame)
  | .selftest head rz start ext => mkPass (.internal w) false head none (s.selftestPlaces a head rz start ext)
  | .fill g start => mkPass (.internal w) true (s.desc g).head none (s.fillPlaces g start)
  | .defect head job => s.tablePass a head job
  | .save r =>
    let f := [sysField (s.nextGen a r) r (s.recData a r)]
    s.recPass a w 0 [(640, r, f), (128, r, f)]
  | .reload g => { emptyPass with kind := .internal w, head := 0, tracks := [((s.sysPlace a 128 (s.imageRec g)).1, [])] }
  | .cal head rz => { emptyPass with kind := .internal w, head := head, tracks := [(s.calCyl a head rz, [])] }

/-- The head that a piece of work needs. -/
def State.workHead (s : State) : Work → Nat
  | .verify _ head _ => head
  | .defect head _ => head
  | .reload _ => 0
  | .save _ => 0
  | .fill g _ => (s.desc g).head
  | .cal head _ => head
  | .selftest head _ _ _ => head

/-- Whether a decision may choose a piece of work: heads out of service are left out where R29 says so, but for the windows of SKEW; a fill needs its LU's key. -/
def State.workable (s : State) (a : Act) (w : Work) : Bool :=
  let headIn := !s.headOut a.val (s.workHead w)
  s.actAble a && (match w with
    | .verify _ _ _ => headIn
    | .defect _ _ | .reload _ | .save _ => true
    | .fill g _ => headIn && !s.writesWithheld a && (match s.luOfZone g with | some (l, _) => !s.luLocked l.lu | none => false)
    | .cal _ _ => (headIn || s.cal[hdaOf a].bringup) && !s.actOut a
    | .selftest _ _ _ _ => headIn && !s.actOut a)

/-! ### The choice (R225, R227) -/

/-- What a decision takes. -/
inductive Choice
  | seg (k : Cand) (step : Nat)
  | work (w : Work) (raised : Nat) (step : Nat)
  deriving DecidableEq, Repr

/-- A piece of work stands in the list until its pass has ended; meanwhile it runs. -/
def Sch.running (h : Sch) (w : Work) : Bool := match h.pass with | some p => p.kind == .internal w | none => false

/-- The first piece of work that satisfies p and may be taken. -/
def State.firstWork (s : State) (a : Act) (p : Work × Nat → Bool) : Option (Work × Nat) :=
  s.sch[a].work.find? (fun w => p w && s.workable a w.1 && !s.sch[a].running w.1)

/-- Step 3: the oldest of the aged segments and the fills. -/
def State.agedChoice (s : State) (a : Act) (win : List Cand) : Option Choice :=
  let ms := atLeast1 (s.getF Reg.SCH_CFG Fld.SCH_CFG_AGE_MAX)
  let aged := (win.filter (fun k => s.choosable a k && decide (k.x.queuedAt + 1000 * ms ≤ s.now))).mergeSort Cand.older
  match aged.head?, s.firstWork a (fun w => w.1.isFill) with
  | some k, some w => if k.x.queuedAt ≤ w.2 then some (.seg k 3) else some (.work w.1 w.2 3)
  | some k, none => some (.seg k 3)
  | none, some w => some (.work w.1 w.2 3)
  | none, none => none

/-- Step 4: among eligible segments the one of lowest cost; ties by SEQ, then by segment. -/
def State.cheapest (s : State) (a : Act) (cyc : Nat) (win : List Cand) : Option Choice :=
  let may := win.filter (s.choosable a)
  match may.map (fun k => s.defOf a k.x.lu) with
  | [] => none
  | d :: ds =>
    let top := ds.foldl max d
    let slack : Int := 10 * (s.getF Reg.SCH_CFG Fld.SCH_CFG_SLACK : Int)
    let el := (may.filter (fun k => decide (top - slack ≤ s.defOf a k.x.lu))).map (fun k => (k, s.accessCost a cyc (s.hostPass k)))
    (el.foldl (fun (b : Option (Cand × Nat)) e => match b with
      | none => some e
      | some o => if e.2 < o.2 ∨ (e.2 = o.2 ∧ (e.1.x.seq < o.1.x.seq ∨ (e.1.x.seq = o.1.x.seq ∧ e.1.i < o.1.i))) then some e else some o) none).map
      (fun e => Choice.seg e.1 4)

/-- The choice of a decision: the first step that yields work. A forced self-test segment goes before the host's (R231). -/
def State.choose (s : State) (a : Act) (cyc : Nat) : Option Choice :=
  let win := s.schWindow a
  let calAge := 10000 * atLeast1 (s.getF Reg.SCH_BG_CFG Fld.SCH_BG_CFG_CAL_DEFER)
  let st := (s.firstWork a (fun w => w.1.isSelftest)).map (fun w => Choice.work w.1 w.2 6)
  ((s.firstWork a (fun w => w.1.isIntegrity)).map (fun w => Choice.work w.1 w.2 1))
  <|> ((s.firstWork a (fun w => w.1.isCal && decide (w.2 + calAge ≤ s.now))).map (fun w => Choice.work w.1 w.2 2))
  <|> (if s.sch[a].forced then st else none)
  <|> s.agedChoice a win
  <|> s.cheapest a cyc win
  <|> (if win.isEmpty then (s.firstWork a (fun w => w.1.isCal)).map (fun w => Choice.work w.1 w.2 5) else none)
  <|> (if win.isEmpty then st else none)

/-- The pass of a choice. -/
def State.choicePass (s : State) (a : Act) : Choice → SchPass
  | .seg k n => { s.hostPass k with step := n }
  | .work w _ n => { s.workPass a w with step := n }

end Sys2Proof.Machine
end

