-- ==== Sys2Proof/Machine/Scheduler.lean ====
section
/-! DEFINITION. Decisions and the dispatch of passes (R216, R221 to R223, R225, R231, R249, R272, R304, R42 step 1). -/

namespace Sys2Proof.Machine

/-! ### Charges (R222, R223) -/

def State.defCap (s : State) : Int := 1000 * (atLeast1 (s.getF Reg.SCH_CFG2 Fld.SCH_CFG2_DEF_CAP) : Int)

/-- One update of a deficit, which saturates and counts what it loses. -/
def addDef (a : Act) (u : Nat) (inc : Int) (s : State) : State :=
  let v := s.defOf a u + inc
  let c := s.defCap
  if c < v then (setDef a u c s).incF Reg.SCH_CNT_DEF Fld.SCH_CNT_DEF_CLAMP_POS
  else if v < -c then (setDef a u (-c) s).incF Reg.SCH_CNT_DEF Fld.SCH_CNT_DEF_CLAMP_NEG
  else setDef a u v s

def State.weight (s : State) (u : Nat) : Nat := s.getF (bank u Reg.SCH_LU_WT) Fld.SCH_LU_WT_WT

/-- LU u is charged t µs on a, and every backlogged LU is credited its share, rounded towards zero. -/
def charge (a : Act) (u : Nat) (t : Int) (s : State) : State :=
  let b := s.backlog a
  let w : Int := ((b.foldl (fun n v => n + s.weight v) 0 : Nat) : Int)
  b.foldl (fun s1 v => addDef a v (Int.tdiv (t * (s.weight v : Int)) w) s1) (addDef a u (-t) s)

/-! ### Decisions (R216, R225) -/

/-- The mirrors that refresh at each decision. -/
def showSched (a : Act) (win : Nat) (ch : Option Choice) (s : State) : State :=
  let q := s.queuedOn a
  let oldest := q.foldl (fun m k => max m (s.now - k.x.queuedAt)) 0 / 1000
  let step := match ch with | some (.seg _ n) => n | some (.work _ _ n) => n | none => 0
  let has (p : Work → Bool) : Nat := b2n (s.sch[a].work.any (fun w => p w.1 && !s.sch[a].running w.1))
  let isVerify : Work → Bool := fun w => match w with | .verify _ _ _ => true | _ => false
  let isDefect : Work → Bool := fun w => match w with | .defect _ _ => true | _ => false
  let s1 := s.setReg (Reg.SCH_ACT_STAT a) (BitVec.ofNat 32 (min 65535 q.length + 2 ^ 16 * min 256 win))
  let s2 := s1.setReg (Reg.SCH_ACT_AGE a) (BitVec.ofNat 32 (min 1048575 oldest + 2 ^ 20 * min 256 (s.backlog a).length))
  s2.setReg (Reg.SCH_ACT_WORK a) (BitVec.ofNat 32 (step + 8 * has isVerify + 16 * has isDefect + 32 * has Work.isCal
    + 64 * b2n (s.sch[a].work.any (fun w => w.1.isSelftest))))

def SchPass.isSelftest (p : SchPass) : Bool := match p.kind with | .internal w => w.isSelftest | .host => false

/-- A decision: records that candidates wait for are marked for saving (R276), the mirrors refresh, and what is chosen stands. -/
def decideOn (a : Act) (cyc : Nat) (s : State) : State :=
  let win := s.schWindow a
  let ch := s.choose a cyc
  let s1 := win.foldl (fun s k => if s.waitsLease k then markSave (s.globalZone k.x.lu k.g.zone) s else s) s
  let s2 := showSched a win.length ch s1
  match ch with
  | none => s2
  | some c =>
    let p := s.choicePass a c
    let p1 := { p with predicted := if p.kind = .host then s.predict a cyc p else 0, access := s.accessCost a cyc p, firm := s.sch[a].forced && p.isSelftest }
    s2.modSch a (fun h => { h with decided := some p1, forced := h.forced && !p.isSelftest })

/-- A pass has reached the preamble of its last slot. -/
def State.inLastSlot (s : State) (a : Act) (p : SchPass) : Bool :=
  p.onTrack && decide (p.tracks.length ≤ p.track + 1) &&
    (match s.chan[a].pass with
     | none => true
     | some q => q.slots.isEmpty || (p.write && q.slots.length == 1 && s.chan[a].cur.isSome))

/-! ### Dispatch (R42, R222, R249, R272, R304) -/

/-- A segment that a standing decision named, if it is queued still. -/
def State.candOf (s : State) (a : Act) (p : SchPass) : Option Cand :=
  match p.blks.head? with
  | none => none
  | some b => (s.queuedOn a).find? (fun k => k.c == b.ctx && k.i == b.seg)

/-- A reassignment takes a spare for each block it is about to write; the Bool says that there was one for each (R42, R43). -/
def takeSpares (k : Cand) (s : State) : State × Bool :=
  k.todo.foldl (fun (r : State × Bool) blk =>
    match r.2, r.1.ctx? k.c with
    | true, some x =>
      if x.moved.any (fun m => m.1 == blk) then r
      else match r.1.nextSpare (r.1.globalZone x.lu k.g.zone) with
        | some o => (putCtx k.c { x with moved := x.moved ++ [(blk, o, false)] } r.1, true)
        | none => (r.1, false)
    | _, _ => r) (s, true)

/-- STAMP_TAKE (R272, R273, R276): a write to a conventional zone takes the counter's value at its first dispatch. -/
def takeStamp (c i g : Nat) (s : State) : State :=
  match s.ctx? c with
  | none => s
  | some x =>
    let d := s.desc g
    if d.ztype || x.cls != 1 || (aget x.taken i).isSome then s
    else
      let warn := d.stamp == 0x80000000
      let s1 := updateDesc g (fun d => { d with stamp := d.stamp + 1, warn := d.warn || warn }) (putCtx c { x with taken := aset x.taken i d.stamp } s)
      let s2 := if warn then noteException x.lu stampWarning s1 else s1
      if s.leaseOf g ≤ d.stamp + 1 then markSave g s2 else s2

/-- The pass begins: its job is posted and its seek commanded in one cycle (R251). A pass with no slot at all has nothing to seek. -/
def launch (a : Act) (p : SchPass) (s : State) : State :=
  match p.tracks.head? with
  | some t =>
    sendSeek a ⟨t.1, Fin.ofNat 15 p.head, if p.write then .write else .read⟩ (postMedia a (s.modSch a (fun h => { h with pass := some p })))
  | none => s.modSch a (fun h => { h with pass := some { p with onTrack := true } })

/-- Dispatch counts (R222, R225, R419). -/
def countDispatch (a : Act) (step : Nat) (s : State) : State :=
  let s1 := s.incF Reg.SCH_CNT_DISP Fld.SCH_CNT_DISP_COUNT
  if step = 3 then s1.incF (Reg.SCH_ACT_CNT a) Fld.SCH_ACT_CNT_AGED else s1

/-- A segment's pass is dispatched. -/
def dispatchSeg (a : Act) (k0 : Cand) (d : SchPass) (s : State) : State :=
  let r := if k0.x.cls = 5 ∧ k0.x.phase = 1 then takeSpares k0 s else (s, true)
  if !r.2 then
    let lba := k0.x.firstUndone
    let pl := s.blockPlace (s.globalZone k0.x.lu k0.g.zone) (lba % 65536)
    let e := (sense keyHardware 0x32 0x00).onSector k0.g.act k0.g.head 0 (pl.1, pl.2.1)
    finish1 k0.c (if k0.x.port < 2 then .check (e.at lba) else .aborted) s
  else
    match r.1.candOf a d with
    | none => r.1
    | some k =>
      let p0 := r.1.hostPass k
      let s1 := if p0.write then p0.blks.foldl (fun s b => takeStamp b.ctx b.seg b.zone s) r.1 else r.1
      let keys := s1.keysOf (p0.blks.map (·.zone))
      let s2 := keys.foldl (fun s t => requestKey t s) s1
      let p := { p0 with keys := keys, predicted := d.predicted, access := d.access, step := d.step, at_ := s.now }
      let s3 := ((p.blks.map (·.ctx)).eraseDups).foldl (fun s c =>
        modCtx c (fun x => if x.state = .queued then { x with state := .media } else x) s) s2
      let s4 := charge a k.x.lu (p.predicted : Int) (s3.modSch a (fun h => { h with pass := some p }))
      let s5 := if p.write && k.x.contd.contains k.i then s4.incF Reg.INT_CNT_MEDIA Fld.INT_CNT_MEDIA_PASS else s4
      launch a p (countDispatch a d.step (sample 3 a ((s.now - k.x.queuedAt : Nat) : Int) s5))

/-- A pass of internal work is dispatched. -/
def dispatchWork (a : Act) (w : Work) (d : SchPass) (s : State) : State :=
  if s.sch[a].work.any (fun x => x.1 == w) then
    let p0 := s.workPass a w
    let keys := s.keysOf ((p0.blks.filter (fun b => decide (b.lba < noBlockMark))).map (·.zone))
    let p := { p0 with keys := keys, access := d.access, step := d.step, at_ := s.now, firm := d.firm }
    launch a p (countDispatch a d.step (keys.foldl (fun s t => requestKey t s) s))
  else s

/-- The decision that stands is carried out once no pass is in progress and the media channel is free. -/
def tryDispatch (a : Act) (s : State) : State :=
  if s.sch[a].pass.isSome || s.shu.ch[mediaCh a].state != .idle then s else
  match s.sch[a].decided with
  | none => s
  | some d =>
    let s1 := s.modSch a (fun h => { h with decided := none })
    match d.kind with
    | .internal w => dispatchWork a w d s1
    | .host => match s1.candOf a d with | some k => dispatchSeg a k d s1 | none => s1

/-- SCHEDULER_DECISION, with the channel's warp cycle at the snapshot. -/
def schedulerDecision (a : Act) (cyc : Nat) (s : State) : State :=
  if s.sch[a].decided.isSome then s else
  match s.sch[a].pass with
  | none => tryDispatch a (decideOn a cyc s)
  | some p => if s.inLastSlot a p then decideOn a cyc s else s

def execSchedulerDecision (a : Act) (cyc : Nat) (s : State) : Host.Outcome State Fault Refusal := .next (schedulerDecision a cyc s)

/-- PENDING_SEEK_ISSUE (R249): the job of the last pass has ended. -/
def execPendingSeekIssue (a : Act) (s : State) : Host.Outcome State Fault Refusal := .next (tryDispatch a s)

/-- SELFTEST_STARVE (R231): a self-test that has had no segment for ST_STARVE gets one at the next decision. -/
def execSelftestStarve (a : Act) (s : State) : Host.Outcome State Fault Refusal :=
  .next (if s.sch[a].work.any (fun w => w.1.isSelftest && !s.sch[a].running w.1) then s.modSch a (fun h => { h with forced := true }) else s)

/-! ### Sector boundaries (R9, R231) -/

/-- Work of steps 1 to 5 is pending on a. -/
def State.otherWork (s : State) (a : Act) : Bool :=
  !(s.queuedOn a).isEmpty || s.sch[a].work.any (fun w => !w.1.isSelftest && s.workable a w.1)

/-- A self-test segment ends at the boundary when other work is pending: the slots not yet read leave its pass. -/
def preempt (a : Act) (s : State) : State :=
  match s.sch[a].pass, s.chan[a].pass with
  | some p, some q =>
    if p.isSelftest && !p.firm && p.onTrack && s.otherWork a then
      let gone (t : Nat) : Bool := q.slots.contains t || decide (p.track < t / 2048)
      (s.modSch a (fun h => { h with pass := some { p with tracks := p.tracks.take (p.track + 1), blks := p.blks.filter (fun b => !gone b.tag) } })).modChan a
        (fun c => { c with pass := some { q with slots := [] } })
    else s
  | _, _ => s

/-- SECTOR_BOUNDARY (R9). -/
def execSectorBoundary (a : Act) (slot : Fin 2048) (rd : SectorRead) (s : State) : Host.Outcome State Fault Refusal :=
  .next (nextTrack a (sectorBoundary a slot.val rd (preempt a s)))

end Sys2Proof.Machine
end

