-- ==== Sys2Proof/Machine/PassEnd.lean ====
section
/-! DEFINITION. The end of a pass (R202 to R204, R222, R228 to R231, R266, R274 to R279, R298, R307, R441, R42 steps 3 and 4). -/

namespace Sys2Proof.Machine

/-! ### Descriptors from the image, the defect tables and the save records (R266, R277, R441) -/

/-- What a zone's descriptor holds before its save record is applied: OFFLINE, its place from the image and the defect tables (R441). -/
def State.baseDesc (s : State) (g : Nat) : ZDesc :=
  let d0 : ZDesc := ⟨0xF, false, true, false, false, 0, 0, 0, 0, 0, 0, 0, 0, 0, 0, 0, 0, 0⟩
  match s.luOfZone g with
  | none => d0
  | some (l, n) =>
    match findRun l.runs n with
    | none => d0
    | some (r, i) =>
      let j := r.first + i
      let ms := match s.cfg.acts.toList[r.act]? with
        | some c => (match c.zones[r.rz]? with | some z => mediaSlots z | none => 0)
        | none => 0
      let base := j * ms
      let here (e : DefEntry) : Bool := e.rz == r.rz && decide (base ≤ e.ord) && decide (e.ord < base + ms)
      let f := s.surface r.act r.head
      let prim : List DefEntry := match f with | some (f : Surface) => f.prim | none => []
      let grown : List DefEntry := match f with | some (f : Surface) => f.grown | none => []
      { d0 with
        ztype := r.seq, lu := l.lu, head := r.head, act := r.act, rz := r.rz, mzone := j
        defIdx := prim.countP (fun e => decide (e.rz < r.rz) || (e.rz == r.rz && decide (e.ord < base)))
        defPrim := prim.countP here, defGrown := grown.countP here }

/-- Whether R41 makes a zone OFFLINE, more primary defects than spares, or R46, no valid defect table of its surface. -/
def State.zoneOffline (s : State) (d : ZDesc) : Bool :=
  (s.surface d.act d.head).isNone || match s.cfg.acts.toList[d.act]? with
  | some c => (match c.zones[d.rz]? with | some z => decide (z.sz < d.defPrim) | none => true)
  | none => true

/-- How many slots read forward hold the blocks of an open zone from an LBA on (R277): the read stops at the first that fails to decode, or whose
STAMP, LU or bits [43:0] of LBA_TAG differ. -/
def forwardCount (epoch lu : Nat) : Nat → List (Option FwdSlot) → Nat
  | lba, some f :: t => if f.stamp = epoch ∧ f.lu = lu ∧ f.lbaTag % 2 ^ 44 = lba % 2 ^ 44 then forwardCount epoch lu (lba + 1) t + 1 else 0
  | _, _ => 0

/-- A descriptor made current from its saved bytes; the Bool says that its write pointer was recovered, by the slots read forward, at most
8,192 (R277). -/
def State.restoredDesc (s : State) (g : Nat) (saved : Option (List Byte)) (forward : List (Option FwdSlot)) : ZDesc × Bool :=
  let d := s.baseDesc g
  match saved with
  | none => (d, false)
  | some l =>
    let o := ZDesc.decode l
    let opened := d.ztype && (o.cond == 2 || o.cond == 3)
    let base := match s.luOfZone g with | some (_, n) => n * 65536 | none => 0
    let wp := if opened then min 65536 (o.wp + forwardCount o.stamp d.lu (base + o.wp) (forward.take 8192)) else o.wp
    ({ d with
       cond := if s.zoneOffline d then 0xF else if opened then (if wp = 65536 then 0xE else 4) else o.cond
       warn := o.warn, limit := o.limit, attempt := o.attempt, wp := wp, stamp := o.stamp, klabel := o.klabel, gen := o.gen }, opened)

/-- The saved bytes of a zone on the medium. -/
def State.savedBytes (s : State) (g : Nat) : Option (List Byte) :=
  match s.zones.saved.find? (fun x => x.act == (s.imageSave g).1 && x.rcd == s.imageRec g) with
  | some x => aget x.zones g
  | none => none

/-- Put a zone's descriptor from its save record in force, with its lease, its saved write pointer and its AWP; the Bool says that the
record had a valid copy. -/
def applySaved (g : Nat) (forward : List (Option FwdSlot)) (readable : Bool) (s : State) : State × Bool :=
  let saved := if readable then s.savedBytes g else none
  let r := s.restoredDesc g saved forward
  let s1 := templeWrite g r.1.encode s
  let s2 := { s1 with zones := { s1.zones with
    lease := if r.1.ztype then adel s1.zones.lease g else aset s1.zones.lease g r.1.stamp
    savedWp := aset s1.zones.savedWp g (match saved with | some l => (ZDesc.decode l).wp | none => 0) } }
  let u := r.1.lu
  let z := match s.luOfZone g with | some (_, n) => n | none => 0
  let admitted := s2.intake.ctxs.foldl (fun n e =>
    if e.2.cls = 1 ∧ e.2.lu = u ∧ e.2.state ≠ .linger then n + ((e.2.segs.filter (fun g => g.zone == z)).foldl (fun m g => m + (g.count - g.done)) 0) else n) 0
  let s3 := setAwp g (r.1.wp + admitted) s2
  (if r.2 then bumpAttempt g s3 else s3, saved.isSome)

/-- The same for one zone, whose source is raised where the record is lost (R266). -/
def restoreZone (g : Nat) (forward : List (Option FwdSlot)) (readable : Bool) (s : State) : State :=
  let r := applySaved g forward readable s
  if r.2 then r.1 else raise 0xAE (match s.luOfZone g with | some (l, _) => .lu l.lu | none => .none) r.1

/-! ### Work that has ended -/

/-- The first piece of work equal to w leaves the list. -/
def dropWork (a : Act) (w : Work) (s : State) : State := s.modSch a (fun h => { h with work := h.work.eraseP (fun x => x.1 == w) })

def swapFirst (w v : Work) : List (Work × Nat) → List (Work × Nat)
  | [] => []
  | x :: t => if x.1 = w then (v, x.2) :: t else x :: swapFirst w v t

/-- It goes on as another, with its request time. -/
def turnWork (a : Act) (w v : Work) (s : State) : State := s.modSch a (fun h => { h with work := swapFirst w v h.work })

/-- Formats whose saves and fills are all done end (R441, R276). -/
def settleFormats (s : State) : State :=
  let filling (l : LuCfg) : Bool := allActs.any (fun a => s.sch[a].work.any (fun w => match w.1 with | .fill g _ => l.zones.contains g | _ => false))
  let done := s.intake.ctxs.filter (fun e => e.2.op == 0x04 && e.2.cls == 3 && e.2.state == .media && !s.zones.waits.any (fun w => w.1 == .ctx e.1)
    && (match s.luCfg e.2.lu with | some l => !filling l | none => true))
  (done.map (·.1)).foldl (fun s c => finish1 c .good s) s

/-! ### Save records (R44, R45, R274, R276, R307) -/

/-- A command whose last save is done completes; a re-key clears WARN and LIMIT and has a conventional zone filled. -/
def saveOver (c : Nat) (s : State) : State :=
  match s.ctx? c with
  | none => s
  | some x =>
    if s.cip.rekey = some c then
      let g := s.globalZone x.lu (x.lba / 65536)
      let s1 := updateDesc g (fun d => { d with warn := false, limit := false }) s
      let s2 := if (s1.desc g).ztype then s1 else raiseWork (s1.desc g).act (.fill g 0) s1
      finish1 c .good (endRekey c 1 s2)
    else if x.op = 0x04 then settleFormats s
    else finish1 c .good s

/-- A record on the medium as data of a generation: what it holds for its zones, with their leases and saved write pointers. -/
def keepRecord (a : Act) (r : Nat) (data : List Byte) (s : State) : State :=
  let zs := s.recHolds a r data
  { s with zones := { s.zones with
    saved := s.zones.saved.filter (fun x => !(x.act == a.val && x.rcd == r)) ++ [⟨a.val, r, s.nextGen a r, zs⟩]
    wiping := s.zones.wiping.filter (fun w => !zs.any (fun e => e.1 == w.1))
    lease := zs.foldl (fun l e => let d := ZDesc.decode e.2; if d.ztype then l else aset l e.1 d.stamp) s.zones.lease
    savedWp := zs.foldl (fun l e => aset l e.1 (ZDesc.decode e.2).wp) s.zones.savedWp } }

/-- DESCRIPTOR_SAVE: both copies of a record are written; what waited for it goes on, unless a change since then has the record saved again. -/
def recordSaved (a : Act) (r : Nat) (data : List Byte) (s : State) : State :=
  let s0 := keepRecord a r data s
  if s.sch[a].work.any (fun w => w.1 == .save r) then s0 else
  let mine := s.zones.waits.filter (fun w => w.2 == (a.val, r))
  let s1 := { s0 with zones := { s0.zones with
    marked := s.zones.marked.filter (fun m => m != (a.val, r))
    waits := s.zones.waits.filter (fun w => w.2 != (a.val, r)) } }
  let cs := (mine.map (fun w => match w.1 with | .ctx c => c)).eraseDups
  showSave (cs.foldl (fun s c => if s.zones.waits.any (fun w => w.1 == .ctx c) then s else saveOver c s) s1)

/-! ### Defect tables (R42, R46, R278, R279) -/

/-- Size of the defect region. -/
def defRegion : Nat := 0x10000000

/-- A full array moves to the top of the used region with twice its capacity (R279); none: no space remains. -/
def growArray (f : Surface) (s : State) : Option (Surface × State) :=
  if f.grown.length < f.cap then some (f, s)
  else
    let need := 8 * (2 * f.cap)
    if s.zones.defTop + need ≤ defRegion then some ({ f with cap := 2 * f.cap, grownOfs := s.zones.defTop }, { s with zones := { s.zones with defTop := s.zones.defTop + need } })
    else none

/-- One reassignment enters the table in HBM3 (R42 step 4); the Bool says that it did. A table holds no more entries than R44 allows. -/
def recordGrown (p : PendGrown) (s : State) : State × Bool :=
  match s.surface p.act p.head with
  | none => (s, false)
  | some f =>
    let known := f.grown.any (fun e => e.rz == p.rz && e.ord == p.ord)
    let room := if known then some (f, s) else if maxEntries ≤ f.prim.length + f.grown.length then none else growArray f s
    match room with
    | none => (s, false)
    | some (f1, s1) =>
      let f2 : Surface := { f1 with grown := insertDef ⟨p.rz, p.ord, some p.spare⟩ f1.grown }
      let s2 := putSurface f2 s1
      (if known then s2 else updateDesc p.zone (fun d => { d with defGrown := d.defGrown + 1 }) s2, true)

/-- Both copies of a surface's table are written: the reassignments that waited take effect, and their commands go on; one that finds
no space fails (R279, R43). -/
def defectsSaved (a : Act) (head : Nat) (s : State) : State :=
  let mine := s.zones.grow.filter (fun g => g.act == a.val && g.head == head)
  let s1 := { s with zones := { s.zones with
    grow := s.zones.grow.filter (fun g => !(g.act == a.val && g.head == head)) } }
  let s2 := match s1.surface a.val head with | some (x : Surface) => putSurface { x with gen := (x.gen + 1) % 2 ^ 32 } s1 | none => s1
  mine.foldl (fun s p =>
    let r := recordGrown p s
    if r.2 then writtenCtx p.ctx r.1
    else match s.ctx? p.ctx with
      | some x =>
        let e := (sense keyHardware 0x32 0x00).onSector p.act p.head 0 (s.ordPlace p.act p.rz p.ord)
        finish1 p.ctx (if x.port < 2 then .check (e.at x.lba) else .aborted) s
      | none => s) s2

/-! ### Internal reads (R204, R228, R230) -/

/-- Re-reads that a failed slot of an internal pass may still have; they are counted in `seg`, those for a failed check above. -/
def State.mayReread (s : State) (b : PassBlk) (f : FailedSector) : Bool :=
  if 8 ≤ f.why then b.seg / 65536 < 1 else b.seg % 65536 < s.getF Reg.INT_CFG Fld.INT_CFG_RD_REV_MAX

/-- The self-test in progress of a code has seen a failure. -/
def failSelftest (ext : Bool) (s : State) : State :=
  let code := if ext then 2 else 1
  let rec mark : List (Nat × Nat × Nat) → List (Nat × Nat × Nat)
    | [] => []
    | t :: rest => if t.1 = code ∧ t.2.1 = 15 then (t.1, 31, t.2.2) :: rest else t :: mark rest
  s.modIntake (fun i => { i with selftests := mark i.selftests })

/-- No segment of a self-test is left anywhere: its result stands and is kept in a checkpoint of its own (R420). -/
def settleSelftest (ext : Bool) (s : State) : State :=
  let left := allActs.any (fun a => s.sch[a].work.any (fun w => match w.1 with | .selftest _ _ _ e => e == ext | _ => false))
  let code := if ext then 2 else 1
  let open_ (t : Nat × Nat × Nat) : Bool := t.1 == code && t.2.1 % 16 == 15
  if left || !s.intake.selftests.any open_ then s
  else checkpoint (s.modIntake (fun i => { i with selftests := i.selftests.map (fun t => if open_ t then (t.1, if t.2.1 = 31 then 7 else 0, t.2.2) else t) }))

/-- A slot of an internal pass that stays unread is written to the event recorder. -/
def recordUnread (a : Act) (p : SchPass) (b : PassBlk) (s : State) : State :=
  let u := match s.luOfZone b.zone with | some (l, _) => l.lu | none => 0xFF
  let s1 := if b.lba = systemMark then mediaRecord 1 a p b.tag 0xFF 0 0 s else mediaRecord 1 a p b.tag u b.lba 0 s
  match p.kind with
  | .internal (.selftest _ _ _ ext) => failSelftest ext s1
  | _ => s1

/-- The ordinal from which a self-test goes on: past the last slot it read; past the whole segment where that held no slot to read. -/
def SchPass.goesOn (p : SchPass) (start seg : Nat) : Nat :=
  match p.blks.getLast? with
  | some b => b.blk + 1
  | none => if p.tracks.isEmpty then start + seg else start

/-- The slots of an internal pass that failed: those to be read again make its next tracks, the rest are recorded. -/
def rereadPass (a : Act) (p : SchPass) (s : State) : Option SchPass × State :=
  let fs := s.chan[a].failed.filterMap (fun (f : FailedSector) =>
    match p.blks.find? (fun b => b.tag == f.slot) with
    | some b => if b.lba = noBlockMark then none else some (f, b)
    | none => none)
  let s1 := s.modChan a (fun c => { c with failed := [] })
  let again := fs.filter (fun e => s.mayReread e.2 e.1)
  let s2 := (fs.filter (fun e => !s.mayReread e.2 e.1)).foldl (fun s e => recordUnread a p e.2 s) s1
  if again.isEmpty then (none, s2)
  else
    let l : List Place := again.map (fun e =>
      let pl := p.placeOf e.2.tag
      ⟨pl.1, pl.2, { e.2 with seg := if 8 ≤ e.1.why then e.2.seg + 65536 else e.2.seg + 1 }⟩)
    let r := layOut l [] []
    (some { p with blks := r.1, tracks := r.2, track := 0, onTrack := false, wrote := if p.wrote = 0 then p.goesOn 0 0 else p.wrote }, s2)

/-! ### Passes of the host (R202, R203, R204, R211, R251, R298) -/

/-- How many passes in a row the slot of a block has ended, with the list that keeps it (R203). -/
def slotCount (x : Ctx) (g : Seg) (blk cause : Nat) : Nat × List (Nat × Nat) :=
  let others := x.slotEnds.filter (fun e => decide (e.1 < g.base) || decide (g.base + g.count ≤ e.1))
  if cause = 1 then
    let n := (aget x.slotEnds blk).getD 0 + 1
    (n, others ++ [(blk, n)])
  else (0, others)

def addOnce (n : Nat) (l : List Nat) : List Nat := if l.contains n then l else l ++ [n]

def setSeg (x : Ctx) (i : Nat) (f : Seg → Seg) : Ctx :=
  { x with segs := (List.range x.segs.length).map (fun k => let g := x.segs.getD k ⟨0, 0, 0, 0, 0, 0, 0, 0⟩; if k = i then f g else g) }

/-- A write gives up at a sector (R202); a preamplifier fault concerns that sector (R188). -/
def passesOut (cause act : Nat) (p : SchPass) (b : PassBlk) : Sense :=
  if cause = 2 then (sense keyHardware 0x83 0x02).onSector act p.head 1 (p.placeOf b.tag) else sense keyAborted 0x83 0x03

/-- AUTO_REASSIGN: the block goes to a spare, after its abandoned slot is overwritten in a sequential zone; a spare that failed is
given up for the next (R42, R203, R298). -/
def autoReassign (b : PassBlk) (spare : Nat) (x : Ctx) (s : State) : State :=
  let old := x.moved.map (fun m => if m.1 = b.blk then (m.1 + 65536, m.2.1, false) else m)
  let x1 := setSeg { x with moved := old ++ [(b.blk, spare, (s.desc b.zone).ztype)], contd := addOnce b.seg x.contd
                            slotEnds := x.slotEnds.filter (fun e => e.1 != b.blk) } b.seg (fun g => { g with passes := 0 })
  (putCtx b.ctx x1 s).incF Reg.INT_CNT_MEDIA Fld.INT_CNT_MEDIA_AUTO_REASSIGN

/-- A write's pass has ended early at a block: R203 first, then R202. -/
def writeEnded (p : SchPass) (b : PassBlk) (s : State) : State :=
  match s.ctx? b.ctx with
  | none => s
  | some x =>
    match x.segs[b.seg]? with
    | none => s
    | some g =>
      let cause := if p.endCause = 0 then 3 else p.endCause
      let n := if b.erase then (0, x.slotEnds) else slotCount x g b.blk cause
      match (if 3 ≤ n.1 then s.nextSpare b.zone else none) with
      | some o => autoReassign b o x s
      | none =>
        let passes := if p.wrote = 0 then g.passes + 1 else 0
        let x1 := setSeg { x with slotEnds := n.2, contd := addOnce b.seg x.contd } b.seg (fun g => { g with passes := passes })
        let s1 := putCtx b.ctx x1 s
        if atLeast1 (s.getF Reg.INT_CFG Fld.INT_CFG_WR_RETRY) ≤ passes then finish1 b.ctx (.check ((passesOut cause (s.desc b.zone).act p b).at x1.firstUndone)) (logError x 6 1 s1)
        else logError x 2 1 s1

/-- An overwrite of an abandoned slot was cut short: the reassignment goes on without it (R298). -/
def eraseCut (a : Act) (p : SchPass) (b : PassBlk) (s : State) : State :=
  let u := match s.ctx? b.ctx with | some x => x.lu | none => 0xFF
  let s1 := mediaRecord 2 a p b.tag u b.lba 0 (s.incF Reg.CIP_CNT_NONCE Fld.CIP_CNT_NONCE_ERASE_CUT)
  modCtx b.ctx (fun x => { x with moved := x.moved.map (fun m => if m.1 = b.blk then (m.1, m.2.1, false) else m) }) s1

/-- The block at which a write's pass ended early; none when it ran to its end. -/
def State.endedAt (s : State) (p : SchPass) : Option PassBlk :=
  let undone (b : PassBlk) : Bool := match s.ctx? b.ctx with
    | some x => x.state == .media && (match x.segs[b.seg]? with | some g => decide (g.base + g.done ≤ b.blk) | none => false)
    | none => false
  if p.endCause ≠ 0 then p.blks.find? (fun b => b.tag == p.endTag) else p.blks.find? undone

/-- The commands of a pass that has gone: ended, completed, or queued for the rest. -/
def requeue (p : SchPass) (s : State) : State :=
  ((p.blks.map (·.ctx)).eraseDups).foldl (fun s c =>
    let s1 := writtenCtx c s
    modCtx c (fun x => if x.state = .media ∧ x.allWritten = false then { x with state := .queued } else x) s1) s

/-- What was fed to the cipher and not written is discarded, and the pass's media job ends (R251). -/
def dropFed (a : Act) (early : Bool) (s : State) : State :=
  let s1 := s.modChan a (fun c => { c with stage := [] })
  let s2 := { s1 with
    shu := { s1.shu with cipherOut := s1.shu.cipherOut.set a [] }
    cip := { s1.cip with cores := s1.cip.cores.map (fun k => match k with
      | some (.enc b _) => if b = a then none else k
      | _ => k) } }
  let feeding := match s2.shu.ch[mediaCh a].job with | some j => j.kind == .mediaOut | none => false
  if early && feeding && s2.shu.ch[mediaCh a].state != .halted then idleCh (mediaCh a) s2 else s2

/-- A write pass of the host ends. -/
def endHostWrite (a : Act) (p : SchPass) (s : State) : State :=
  let s1 := releaseKeys p.keys (s.modSch a (fun h => { h with pass := none }))
  match s.endedAt p with
  | none => requeue p (dropFed a false s1)
  | some b =>
    let s2 := dropFed a true s1
    let s3 := if b.erase && p.endCause != 0 then eraseCut a p b s2 else s2
    requeue p (writeEnded p b s3)

/-- Media channel a runs a MEDIA_IN job. -/
def State.placing (s : State) (a : Act) : Bool :=
  match s.shu.ch[mediaCh a].job with
  | some j => j.kind == .mediaIn && s.shu.ch[mediaCh a].state != .halted
  | none => false

/-- A read pass of the host ends: sectors still decoded, opened or placed stay its own until its job ends (R249). -/
def endHostRead (a : Act) (p : SchPass) (s : State) : State :=
  let s1 := concludeFailed a (s.modSch a (fun h => { h with pass := none, tail := some p }))
  if s1.placing a then s1
  else
    ((p.blks.map (·.ctx)).eraseDups).foldl (fun (s : State) c =>
      modCtx c (fun x => if x.state = .media then { x with state := .queued } else x) s) (retireTail a s1)

/-! ### Passes of internal work (R227 to R231, R266, R276, R279, R297) -/

/-- Slots of a head's recording zone, and of one self-test segment in it. -/
def State.zoneSlots (s : State) (a : Act) (rz : Nat) : Nat × Nat :=
  match s.cfg.acts[a].zones[rz]? with
  | some z => (z.cyls * z.nz, s.segSlots a z)
  | none => (0, 0)

/-- The work of a pass that ran to its end is done. -/
def workDone (a : Act) (p : SchPass) (w : Work) (m : PassEnd) (s : State) : State :=
  match w with
  | .verify _ _ _ => dropWork a w s
  | .defect head .update => defectsSaved a head (s.modSch a (fun h => { h with work := h.work.filter (fun x => x.1 != w) }))
  | .defect _ _ => dropWork a w s
  | .reload g =>
    let s1 := restoreZone g m.forward m.readable (dropWork a w s)
    settleAll ((s1.inOrder.filter (fun e => e.2.cls == 3 && e.2.state == .waiting)).map (fun e => Todo.go e.1)) s1
  | .save r => recordSaved a r ((p.recs.headD []).take 4096) (dropWork a w s)
  | .fill g start =>
    let n := start + p.wrote
    let s1 := dropFed a true s
    if 65536 ≤ n then settleFormats (dropWork a w s1) else turnWork a w (.fill g n) s1
  | .cal _ _ => dropWork a w s
  | .selftest head rz start ext =>
    let z := s.zoneSlots a rz
    let next := if p.wrote = 0 then p.goesOn start z.2 else p.wrote
    settleSelftest ext (if ext = true ∧ next < z.1 then turnWork a w (.selftest head rz next ext) s else dropWork a w s)

/-- A pass of system records has written them all. -/
def SchPass.complete (p : SchPass) : Bool := decide (p.blks.length ≤ p.wrote)

/-- An internal pass ends; slots to be read again keep it going. A pass that could not do its work leaves it pending. -/
def endWork (a : Act) (p : SchPass) (w : Work) (m : PassEnd) (s : State) : State :=
  let s1 := releaseKeys p.keys (s.modSch a (fun h => { h with pass := none }))
  if !p.onTrack then
    match w with
    | .cal _ _ => (dropWork a w s1).incF Reg.CAL_CNT Fld.CAL_CNT_DISCARD
    | _ => dropFed a true s1
  else
    match w with
    | .verify _ _ _ | .selftest _ _ _ _ =>
      let r := rereadPass a p s1
      match r.1 with
      | some q => launch a { q with keys := p.keys } (p.keys.foldl (fun s t => requestKey t s) r.2)
      | none => workDone a p w m r.2
    | .defect _ _ | .save _ => if p.complete then workDone a p w m s1 else s1.modChan a (fun c => { c with stage := [] })
    | _ => workDone a p w m s1

/-! ### PASS_END -/

/-- The motion states in which a pass can run. -/
def AcuState.tracks : AcuState → Bool | .seek | .settle | .follow => true | _ => false

def PassKind.reads : PassKind → Bool
  | .internal (.verify _ _ _) => true
  | .internal (.selftest _ _ _ _) => true
  | _ => false

/-- A pass has ended: its slots have run out or it was cut, its seek failed, or its actuator no longer tracks. -/
def State.passOver (s : State) (a : Act) (p : SchPass) : Bool :=
  let c := s.chan[a]
  let ended := p.onTrack && c.cur.isNone && s.acu[a].calWin.isNone
    && (match c.pass with | none => true | some q => q.slots.isEmpty && decide (p.tracks.length ≤ p.track + 1))
  let failed := !p.onTrack && (match s.acu[a].report with | some .failed => true | some .notReady => true | _ => false)
  let lost := !s.acu[a].state.tracks
  (ended || failed || (lost && c.cur.isNone)) && (!p.kind.reads || s.readsDrained a)

/-- PASS_END (R222 step 2): the time since its dispatch is charged against the prediction, what it means for its commands or its work follows, and a decision that stands is
carried out. -/
def passEnd (a : Act) (m : PassEnd) (s : State) : State :=
  match s.sch[a].pass with
  | none => s
  | some p =>
    if !s.passOver a p then s else
    let s2 := match p.lu with | some u => charge a u (((s.now - p.at_ : Nat) : Int) - (p.predicted : Int)) s | none => s
    let s3 := s2.modChan a (fun c => { c with pass := none })
    let s4 := match p.kind with
      | .host => if p.write then endHostWrite a p s3 else endHostRead a p s3
      | .internal w => endWork a p w m s3
    tryDispatch a s4

def execPassEnd (a : Act) (m : PassEnd) (s : State) : Host.Outcome State Fault Refusal := .next (passEnd a m s)

end Sys2Proof.Machine
end

