-- ==== Sys2Proof/Machine/BringOps.lean ====
section
/-! DEFINITION. Shared operations of bring-up (R29, R366 to R369, R373, R409): the phases of an HDA and of its actuators, and units that
become Ready or Failed. -/

namespace Sys2Proof.Machine

/-! ### GLB_BU -/

def phaseFld (a : Act) : Fld := if a.val % 2 = 0 then Fld.GLB_BU_LO_PHASE else Fld.GLB_BU_HI_PHASE

/-- The phase of an actuator, in the codes of GLB_BU: 0 idle, 1 LOAD, 2 WARP, 3 SKEW, 4 DEFECT, 5 ZONES, 6 READY, 7 FAILED, 8 waiting
for SPIN. -/
def State.phaseOf (s : State) (a : Act) : Nat := s.getF (Reg.GLB_BU (hdaOf a).val) (phaseFld a)
def setPhase (a : Act) (n : Nat) (s : State) : State := s.setF (Reg.GLB_BU (hdaOf a).val) (phaseFld a) n

/-- SPIN of an HDA: 0 idle, 1 waiting for a stagger place, 2 starting from rest, 3 catching, 4 at speed, 5 failed, 6 waiting for
PG_MBUS. -/
def State.spinOf (s : State) (h : Hda) : Nat := s.getF (Reg.GLB_BU h.val) Fld.GLB_BU_SPIN
def setSpin (h : Hda) (n : Nat) (s : State) : State := s.setF (Reg.GLB_BU h.val) Fld.GLB_BU_SPIN n

/-- Configured actuators of an HDA. -/
def State.actsIn (s : State) (h : Hda) : List Act := [lowAct h, highAct h].filter s.hasAct

/-- Actuators of an HDA that its bring-up takes along: not one that is Out of Service or in Maintenance (R395). -/
def State.actsOf (s : State) (h : Hda) : List Act := (s.actsIn h).filter (fun a => !s.actOut a)

/-- Row 8 of R365: with both actuators Ready or Failed and at least one Ready, HDA h has finished bring-up. -/
def settleBringup (h : Hda) (s : State) : State :=
  let ph := (s.actsOf h).map s.phaseOf
  let s1 :=
    if s.power.buRun[h] && (s.spinOf h == 4 || s.spinOf h == 5) && ph.all (fun n => n == 6 || n == 7) then
      (s.modPower (fun p => { p with buRun := p.buRun.set h false })).setBit Reg.GLB_READY (16 + h.val) (ph.contains 6)
    else s
  refreshUst s1

/-! ### Units that fail or become Ready -/

/-- An actuator becomes Failed; its calibration window is discarded (R408), and its phase of a bring-up is final (R367). -/
def failAct (a : Act) (s : State) : State :=
  let s1 := dropCond .act a.val cBecoming (addCond .act a.val cFailed (discardCal a s))
  settleBringup (hdaOf a) (if s1.power.buRun[hdaOf a] then setPhase a 7 s1 else s1)

/-- An HDA becomes Failed; during bring-up its actuators' phases are final too. -/
def failHda (h : Hda) (s : State) : State :=
  let s1 := discardCal (highAct h) (discardCal (lowAct h) s)
  let s2 := dropCond .hda h.val cBecoming (addCond .hda h.val cFailed s1)
  let s3 :=
    if s2.power.buRun[h] then
      let s3 := setSpin h 5 (s2.modPower (fun p => { p with placed := p.placed.set h false }))
      (s3.actsOf h).foldl (fun s a => setPhase a 7 (dropCond .act a.val cBecoming s)) s3
    else s2
  settleBringup h s3

/-- SPIN has failed (R367): the HDA and both actuators become Failed. -/
def failSpin (h : Hda) (s : State) : State :=
  (s.actsIn h).foldl (fun s a => failAct a s) (failHda h (s.modScu h (fun u => { u with waitPlace := false })))

/-- An actuator becomes Ready: its phase is READY and no condition of its own is left but Degraded. -/
def readyAct (a : Act) (s : State) : State :=
  let s1 := dropCond .act a.val cStopped (dropCond .act a.val cFailed (dropCond .act a.val cBecoming s))
  let s2 := s1.modPower (fun p => { p with tables := p.tables.set a true })
  settleBringup (hdaOf a) (setPhase a 6 s2)

/-! ### Heads out of service (R29) -/

/-- Actuator a is stopped as a Unit Stop stops it, and fails, whatever a severity says. -/
def stopFailed (a : Act) (s : State) : State :=
  let s1 := failAct a (stopActuator a s)
  endUnitTasks (.act a) s1

/-- A head with an invalid entry goes out of service: source 5 is raised, its tasks end, a pass on it ends; without head 0, or
without any head, the actuator stops. -/
def headOut (a : Act) (head : Nat) (s : State) : State :=
  if s.headOut a.val head then s else
  let s1 := raiseAct a 5 (setHeadOut a.val head true s)
  let s2 := endHeadTasks a.val head s1
  let s3 := match s2.sch[a].pass with
    | some p => if p.head = head then stopPass a s2 else s2
    | none => s2
  if head = 0 ∨ (List.range s.cfg.acts[a].heads).all (fun n => s3.headOut a.val n) then stopFailed a s3 else s3

/-! ### The phases of an actuator (R367, R373) -/

/-- The channel island starts on its holdover clock (R15, R54). -/
def startChannel (a : Act) (s : State) : State :=
  if s.chan[a].clocked then s
  else showWarpLock a (s.modChan a (fun c => { c with clocked := true, holdover := true, locked := false, goodMarks := 0, badFrames := 0, zone := 0 }))

/-- WARP: the channel is to lock at the middle of the system band, which the actuator seeks unless it is there. -/
def enterWarp (a : Act) (s : State) : State :=
  let s1 := setPhase a 2 (startChannel a s)
  if s1.acu[a].state = .follow ∧ s1.acu[a].posCyl ≠ midBand then sendSeek a ⟨midBand, 0, .read⟩ s1 else s1

/-- LOAD, which an actuator in SETTLE or FOLLOW skips. -/
def enterLoad (a : Act) (s : State) : State :=
  match s.acu[a].state with
  | .settle | .follow => enterWarp a s
  | _ => setPhase a 1 s

/-- The entry windows of an actuator, in ascending zone and then ascending head (R404). -/
def State.entries (s : State) (a : Act) (heads : List Nat) : List (Nat × Nat) :=
  (List.range s.cfg.acts[a].zones.length).flatMap (fun z => heads.map (fun h => (h, z)))

/-- SKEW (R409): every data head is measured in every recording zone, heads out of service with the others; those stay out until it has ended. -/
def enterSkew (a : Act) (s : State) : State :=
  let h := hdaOf a
  let heads := List.range s.cfg.acts[a].heads
  let s2 := s.modCal h (fun r =>
    { r with
      running := true, bringup := true, aborted := false, scu := false, cause := 4
      temp := if r.running && r.bringup then r.temp else signed 8 (s.getF (Reg.CAL_HDA h.val) Fld.CAL_HDA_TEMP)
      first := r.first.filter (fun e => e.1 != a.val)
      left := r.left.set (side a) (s.entries a heads) })
  calRaise a (showCal h (setPhase a 3 s2))

/-- The heads for which SKEW has measured a valid entry in every recording zone return to service (R29). -/
def headsReturn (a : Act) (s : State) : State :=
  (List.range s.cfg.acts[a].heads).foldl (fun s n =>
    if (List.range s.cfg.acts[a].zones.length).all (fun z => skewValid (s.chan[a].skewOf n z)) then setHeadOut a.val n false s else s) s

/-- SKEW has ended: heads return, T_LAST is set, and an actuator whose tables are held is Ready at once. -/
def skewDone (a : Act) (s0 : State) : State :=
  let s := headsReturn a s0
  let h := hdaOf a
  let r := s.cal[h]
  let s1 := (s.setF (Reg.CAL_HDA h.val) Fld.CAL_HDA_T_LAST (twos 8 r.temp)).modCal h (fun r => { r with hours := s.rcd.hours })
  let s2 := if r.left[0].isEmpty && r.left[1].isEmpty then showCal h (s1.modCal h (fun r => { r with running := false, bringup := false })) else s1
  if (List.range s.cfg.acts[a].heads).all (fun n => s2.headOut a.val n) then failAct a s2
  else if s2.power.tables[a] then readyAct a s2 else setPhase a 4 s2

/-- The table that bring-up loads (R46): of the valid copies the one with the higher GEN; and the copy that is rewritten from it, where the other is
not valid. -/
def pickTable (a b : Option Surface) : Option (Surface × Option TableJob) :=
  match a, b with
  | some a, some b => some (if a.gen < b.gen then b else a, none)
  | some a, none => some (a, some .copyB)
  | none, some b => some (b, some .copyA)
  | none, none => none

/-- The same of what was read for a head. -/
def State.tableOf (s : State) (a : Act) (t : TableIn) : Option (Surface × Option TableJob) :=
  let zs := s.cfg.acts[a].zones
  pickTable (readCopy zs a.val t.head.val t.copyA) (readCopy zs a.val t.head.val t.copyB)

/-- DEFECT: tables read from the media replace those held; a head with no valid table has its zones OFFLINE and raises source 6 (R46). -/
def loadTables (a : Act) (l : List TableIn) (s : State) : State :=
  let read := l.filterMap (s.tableOf a)
  let new := read.map (·.1)
  let keep := s.zones.surfaces.filter (fun (f : Surface) => f.act != a.val || !l.any (fun t => t.head.val == f.head))
  let all := (keep ++ new).map (fun (f : Surface) => if f.act = a.val then { f with cap := f.grown.length + 4096 } else f)
  let placed := placeTables 8192 all
  let s1 := placed.1.foldl (fun s f => layTable f s) { s with zones := { s.zones with surfaces := placed.1, defTop := placed.2 } }
  let s2 := read.foldl (fun s t => match t.2 with | some j => raiseWork a.val (.defect t.1.head j) s | none => s) s1
  let lost := (List.range s.cfg.acts[a].heads).any (fun n => (s2.surface a.val n).isNone)
  setPhase a 5 (if lost then raiseAct a 6 s2 else s2)

/-- A copy of a table is still to be rewritten on actuator a (R46). -/
def State.rewriting (s : State) (a : Act) : Bool :=
  s.sch[a].work.any (fun w => match w.1 with | .defect _ .copyA => true | .defect _ .copyB => true | _ => false)

/-- Generation and data of the valid copy of a save record with the newer generation, compared modulo 2^32 (R274). -/
def pickSave (t : SaveIn) : Option (Nat × List Byte) :=
  match sysRead t.rcd t.copyA, sysRead t.rcd t.copyB with
  | some a, some b => if (b.1 + 2 ^ 32 - a.1 % 2 ^ 32) % 2 ^ 32 < 2 ^ 31 then some b else some a
  | some a, none => some a
  | none, b => b

/-- A save record read at bring-up, where this part has not written a newer one. -/
def noteSaved (a : Act) (l : List SaveIn) (s : State) : State :=
  { s with zones := { s.zones with
    saved := l.foldl (fun (k : List SavedRec) r =>
      match pickSave r with
      | some c => if k.any (fun x => x.act == a.val && x.rcd == r.rcd) then k else k ++ [⟨a.val, r.rcd, c.1, s.recHolds a r.rcd c.2⟩]
      | none => k) s.zones.saved } }

/-- Global zones on an actuator. -/
def State.zonesOn (s : State) (a : Act) : List Nat :=
  (s.cfg.lus.flatMap (·.zones)).filter (fun g => s.actOfZone g == some a.val)

/-- ZONES (R274, R277, R308, R441): every zone of the actuator is described; a record with no valid copy raises the zone-table source
once; a sanitize left incomplete is completed. -/
def loadZones (a : Act) (l : List SaveIn) (forward : List (Nat × List (Option FwdSlot))) (s : State) : State :=
  let lost := (l.filter (fun r => (pickSave r).isNone)).map (·.rcd)
  let zs := s.zonesOn a
  let r := zs.foldl (fun (t : State × List Nat) g =>
    let x := applySaved g ((aget forward g).getD []) (!lost.contains (s.imageRec g)) t.1
    (x.1, if x.2 then t.2 else t.2 ++ [g])) (noteSaved a l s, [])
  let recs := (r.2.map (fun g => (r.1.saveRec g).2)).eraseDups
  let s1 := recs.foldl (fun s n =>
    match r.2.find? (fun g => (s.saveRec g).2 == n) with
    | some g => raise 0xAE (match s.luOfZone g with | some (x, _) => .lu x.lu | none => .none) s
    | none => s) r.1
  s1.zones.wiping.foldl (fun s w => if zs.contains w.1 && (s.desc w.1).klabel == w.2 then wipeZone w.1 s else s) s1

/-! ### The phases of an HDA (R367 to R369, R373) -/

/-- SPIN is over: the HDA is at speed, and its actuators go on, each by itself. -/
def spinDone (h : Hda) (s : State) : State :=
  let s1 := dropCond .hda h.val cFailed (dropCond .hda h.val cBecoming s)
  let s2 := setSpin h 4 (s1.modPower (fun p => { p with placed := p.placed.set h false }))
  settleBringup h ((s2.actsOf h).foldl (fun s a => if s.phaseOf a = 8 then enterLoad a s else s) s2)

/-- SPIN begins, from where the spindle stands. -/
def beginSpin (h : Hda) (s : State) : State :=
  if !s.power.mbusHi then setSpin h 6 s
  else match s.scu[h].state with
    | .run => if s.scu[h].inTol then spinDone h s else setSpin h 2 s
    | .stopped | .coast | .decel | .zvbrake => setSpin h 3 (scuRun h s)
    | .detect => setSpin h (if s.scu[h].waitPlace then 1 else 3) s
    | _ => setSpin h 2 s

/-- A unit of the HDA stands in HALTED. -/
def State.anyHalted (s : State) (h : Hda) : Bool :=
  s.scu[h].state == .halted || s.acu[lowAct h].state == .halted || s.acu[highAct h].state == .halted

/-- The HDA is Out of Service or in Maintenance. -/
def State.hdaOut (s : State) (h : Hda) : Bool := s.adm .hda h.val == 2 || s.adm .hda h.val == 3

/-- Phases of the HDA's bring-up end where they stand; its entry windows go with them. -/
def dropPhases (h : Hda) (s : State) : State :=
  let s1 := if s.cal[h].bringup then s.modCal h (fun r => { r with running := false, bringup := false, left := Vector.replicate 2 [], first := [] }) else s
  (s1.actsIn h).foldl (fun s a =>
    let s1 := discardCal a s
    s1.modSch a (fun k => { k with work := k.work.filter (fun w => !w.1.isCal) })) s1

/-- Bring-up of HDA h starts. `revive` says that units in Failed are brought up too; one with a unit in HALTED needs the motion reset
first (R345, R369, R371). -/
def beginBringup (revive : Bool) (h : Hda) (s : State) : State :=
  let failed (k : UnitKind) (i : Nat) : Bool := !revive && s.ownState k i == OpState.failed
  if !s.hasHda h || s.scu[h].state == .halted || (revive && s.anyHalted h) || s.hdaOut h || failed .hda h.val then s else
  let s0 := dropPhases h s
  let starting := match s.scu[h].state with | .align | .openloop | .accel => true | _ => false
  let s1 := s0.modPower (fun p =>
    { p with buRun := p.buRun.set h true, buStart := p.buStart.set h s.now, placed := p.placed.set h (p.placed[h] && starting) })
  let s2 := dropCond .hda h.val cStopped (addCond .hda h.val cBecoming (s1.setBit Reg.GLB_READY (16 + h.val) false))
  let s3 := (s2.actsOf h).foldl (fun s a =>
    if failed .act a.val then setPhase a 7 s
    else setPhase a 8 (dropCond .act a.val cStopped (addCond .act a.val cBecoming s))) s2
  settleBringup h (beginSpin h s3)

/-- Bring-up starts again (R373, R376, R377, R395); a restart of one that has begun before is counted. -/
def restartBringup (revive : Bool) (h : Hda) (s : State) : State :=
  beginBringup revive h (if s.spinOf h = 0 then s else s.incF (Reg.GLB_BU h.val) Fld.GLB_BU_RESTARTS)

def State.inMask (s : State) (h : Hda) : Bool := s.getF Reg.GLB_BU_CFG Fld.GLB_BU_CFG_HDA_MASK / 2 ^ h.val % 2 == 1

/-- Bring-up of every HDA in HDA_MASK. -/
def restartAll (s : State) : State := forHdas (fun h s => if s.inMask h then restartBringup false h s else s) s

/-- Both ports have been started (R365, R369). -/
def State.mayBringup (s : State) : Bool := s.power.portsOn && s.power.mbusHi

end Sys2Proof.Machine
end

