-- ==== Sys2Proof/Machine/FaultRows.lean ====
section
/-! DEFINITION. The commands of chapter 17: the collector, ERR_N, severities, and the sources that no other chapter raises. -/

namespace Sys2Proof.Machine

/-! ### Units that a raise concerns (R330, R331, R394) -/

/-- LUs that a unit concerns: itself, those with zones on it, or every one. -/
def State.lusOf (s : State) (u : FUnit) : List Nat :=
  match u with
  | .lu n => [n]
  | .act a => (s.cfg.lus.filter (fun l => l.acts.contains a.val)).map (·.lu)
  | .hda h => (s.cfg.lus.filter (fun l => l.acts.any (fun a => a / 2 == h.val))).map (·.lu)
  | .none => s.cfg.lus.map (·.lu)

/-- The informational exception of a Degrade (R331); which one is a free value (log entry 17). -/
def degradeException (src : Nat) (u : FUnit) (s : State) : State :=
  let d := Config.degradeSense src
  (s.lusOf u).foldl (fun s n => noteException n (sense d.1 d.2.1 d.2.2) s) s

/-- UST.CAUSE names the source that last set Degraded or Failed. -/
def setCause (k : UnitKind) (i src : Nat) (s : State) : State := s.setF (ustKey k i) Fld.UST_LU_CAUSE src

/-- A unit becomes Degraded, unless it is Stopped, Failed or Locked already. -/
def degradeUnit (k : UnitKind) (i src : Nat) (s : State) : State :=
  let s1 := match s.ownState k i with
    | .stopped | .failed | .locked => s
    | _ => setCause k i src s
  let s2 := addCond k i cDegraded s1
  refreshUst { s2 with own := sset 0 s2.own (degradeKey k i src) 1 }

def failLu (n src : Nat) (s : State) : State := refreshUst (addCond .lu n cFailed (setCause .lu n src s))
def failActBy (src : Nat) (a : Act) (s : State) : State := failAct a (setCause .act a.val src s)
def failHdaBy (src : Nat) (h : Hda) (s : State) : State := failHda h (setCause .hda h.val src s)
def failDevice (src : Nat) (s : State) : State := forHdas (fun h s => if s.hasHda h then failHdaBy src h s else s) s

/-- The operational states that a severity gives (R331, R332, R394). -/
def unitStates (src : Nat) (u : FUnit) (sev : Nat) (s : State) : State :=
  if sev = 0 then s
  else if sev = 1 then
    match u with
    | .none => s
    | .lu n => degradeUnit .lu n src s
    | .act a => degradeUnit .act a.val src s
    | .hda h => degradeUnit .hda h.val src s
  else if sev ≤ 3 then
    match u with
    | .none => failDevice src s
    | .lu n => failLu n src s
    | .act a => if sev = 2 then failActBy src a s else failHdaBy src (hdaOf a) (failActBy src a s)
    | .hda h => failHdaBy src h s
  else
    failDevice src (match u with | .lu n => failLu n src s | .act a => failActBy src a s | _ => s)

/-! ### The collector's registers (R340, R341) -/

/-- No pending bit is set. -/
def State.noPending (s : State) : Bool := (List.range 6).all (fun n => s.reg (Reg.FLT_PEND n) == 0#32)

/-- FLT_LAST takes a raise of at least the severity it holds, or any raise when nothing is pending. -/
def noteLast (r : Raise) (s : State) : State :=
  if s.noPending || !s.bitF Reg.FLT_LAST Fld.FLT_LAST_VALID || decide (s.getF Reg.FLT_LAST Fld.FLT_LAST_SEV ≤ r.sev) then
    let w := r.src + 2 ^ 8 * r.sev + 2 ^ 11 * r.unit.kind + 2 ^ 13 * r.unit.index + 2 ^ 21
    ((s.setReg Reg.FLT_LAST (BitVec.ofNat 32 w)).setReg Reg.FLT_LAST_T_LO (BitVec.ofNat 32 s.stamp)).setReg
      Reg.FLT_LAST_T_HI (BitVec.ofNat 32 (s.stamp / 2 ^ 32))
  else s

/-- ERRN_MIN as it is taken. -/
def State.errnMin (s : State) : Nat := min 4 (s.getF Reg.FLT_CFG Fld.FLT_CFG_ERRN_MIN)

/-- ERR_N is driven low and held; while HOLD is 0 already that is a new pulse of at least 1.0 µs. -/
def assertErrn (s : State) : State :=
  let fresh := !s.bitF Reg.FLT_ERRN Fld.FLT_ERRN_HOLD
  let s1 := (s.setB Reg.FLT_ERRN Fld.FLT_ERRN_HOLD true).setB Reg.FLT_ERRN Fld.FLT_ERRN_PIN true
  if fresh then s1.modPower (fun p => { p with errnLow := true }) else s1

/-- ERR_N is released once nothing holds it: HOLD, the shortest pulse, a Device Stop (R336, R341). -/
def releaseErrn (s : State) : State :=
  if s.bitF Reg.FLT_ERRN Fld.FLT_ERRN_HOLD || s.power.errnLow || s.bitF Reg.FLT_ERRN Fld.FLT_ERRN_DEVSTOP then s
  else s.setB Reg.FLT_ERRN Fld.FLT_ERRN_PIN false

/-! ### FAULT records (R415, R416, R418) -/

def maxSnaps : Nat := 64

/-- A FAULT payload's first eight bytes (log entry 18). -/
def faultHead (r : Raise) (profile nreg flags : Nat) : List Byte :=
  leBytes 1 r.src ++ leBytes 1 r.sev ++ leBytes 1 r.unit.kind ++ leBytes 1 r.unit.index ++ leBytes 1 profile ++ leBytes 1 nreg
    ++ leBytes 1 flags ++ [0#8]

/-- The FAULT record of a raise: at once with no snapshot (late, switched off, or with 64 waiting), or once its snapshot is taken. -/
def recordFault (r : Raise) (s : State) : State :=
  let k := bank r.src Reg.FLT_SEV
  let t := s.getF k Fld.FLT_SEV_PROFILE
  let off := !s.bitF k Fld.FLT_SEV_PROF_EN
  if r.late then recordNow 0x0001 (faultHead r t 0 (if off then 5 else 1)) s
  else if off then recordNow 0x0001 (faultHead r t 0 4) s
  else if maxSnaps ≤ s.rcd.snaps.length then recordNow 0x0001 (faultHead r t 0 2) s
  else s.modRcd (fun d => { d with snaps := d.snaps ++ [⟨⟨0x0001, 0, s.stamp, faultHead r t 0 0⟩, t, []⟩] })

/-! ### FAULT_COLLECT (R333 to R336, R338 to R340, R398, R435) -/

/-- The Loom island runs. -/
def State.loomRuns (s : State) : Bool := s.power.released && s.power.phase != .held

/-- The reaction of a raise that has not reacted at its unit, and whether it repeats a pending one. -/
def reactLate (r : Raise) (s : State) : State × Bool :=
  if r.reacted then (s, r.again)
  else
    let idle := s.isPending r.src && decide (r.sev ≤ sget 0 s.applied (appliedKey r.src r.unit))
    (if idle then s else react r.unit r.sev { s with applied := sset 0 s.applied (appliedKey r.src r.unit) r.sev }, idle)

/-- One raise is recorded. Raises of one source at one unit during a reset are recorded once (R338). -/
def collect (r : Raise) (s : State) : State :=
  let x := reactLate r s
  let pend := x.1.isPending r.src
  let s1 := if x.2 then x.1 else unitStates r.src r.unit r.sev (if 1 ≤ r.sev then degradeException r.src r.unit x.1 else x.1)
  let s2 := noteLast r s1
  let s3 := (s2.setBit (Reg.FLT_PEND (r.src / 32)) (r.src % 32) true).incF (bank r.src Reg.FLT_SRC_CNT) Fld.FLT_SRC_CNT_COUNT
  let s4 := s3.incF Reg.FLT_CNT Fld.FLT_CNT_RAISED
  let s5 := if 2 ≤ r.sev then s4.incF Reg.FLT_CNT Fld.FLT_CNT_STOPS else s4
  let s6 := recordFault r s5
  if s6.errnMin ≤ r.sev then
    let s7 := { s6 with mgmt := { s6.mgmt with ready := s6.mgmt.ready ++ [.event r.src r.sev r.unit] } }
    if !pend then assertErrn s7 else if 4 ≤ r.sev then s7.setB Reg.FLT_ERRN Fld.FLT_ERRN_PIN true else s7
  else s6

/-- FAULT_COLLECT (R338, R340, R341, R391): the raise that has waited longest. While the Loom is in reset only local reactions run. -/
def faultCollect (s : State) : State :=
  if s.loomRuns then
    match s.raised with
    | [] => s
    | r :: t => collect r { s with raised := if r.late then t.filter (fun q => !(q.late && q.src == r.src && q.unit == r.unit)) else t }
  else
    match s.raised.find? (fun r => !r.reacted) with
    | none => s
    | some r =>
      let x := reactLate r s
      { x.1 with raised := x.1.raised.map (fun q => if q = r then { q with reacted := true, again := x.2 } else q) }

def execFaultCollect (s : State) : Host.Outcome State Fault Refusal := .next (faultCollect s)

/-! ### ERR_N and severities (R332, R435) -/

/-- ERRN_HOLD_CLEAR (R341): HOLD is written 1. -/
def errnHoldClear (s : State) : State := releaseErrn (s.setB Reg.FLT_ERRN Fld.FLT_ERRN_HOLD false)

def execErrnHoldClear (n : Fin 4) (s : State) : Host.Outcome State Fault Refusal :=
  .next (if s.may n .operator then errnHoldClear s else s)

/-- ERRN_MIN_PULSE_END. -/
def execErrnMinPulseEnd (s : State) : Host.Outcome State Fault Refusal :=
  .next (releaseErrn (s.modPower (fun p => { p with errnLow := false })))

/-- A severity word for a source: below MIN or from 5 to 7 it is ignored (R338). -/
def writeSeverity (src : Nat) (w : Word) (s : State) : State :=
  let k := bank src Reg.FLT_SEV
  let v := Fld.FLT_SEV_SEV.get w
  if !srcUsed src || decide (v < srcMin src) || decide (4 < v) then s
  else ((s.setF k Fld.FLT_SEV_SEV v).setF k Fld.FLT_SEV_PROFILE (Fld.FLT_SEV_PROFILE.get w)).setF k Fld.FLT_SEV_PROF_EN (Fld.FLT_SEV_PROF_EN.get w)

/-- The source that session n has selected. -/
def State.fltSel (s : State) (n : Fin 4) : Nat := s.getF (bank n.val Reg.FLT_SEL) Fld.FLT_SEL_SRC

/-- SEVERITY_WRITE (R338): in a Keeper session, it reaches every copy. -/
def execSeverityWrite (n : Fin 4) (w : Word) (s : State) : Host.Outcome State Fault Refusal :=
  .next (if s.may n .keeper then writeSeverity (s.fltSel n) w s else s)

/-! ### Clocks and temperatures (R330, R436) -/

def lockFld : Pll → Fld
  | .harness => Fld.GLB_ISLAND_STAT_HARNESS_LOCK
  | .shed => Fld.GLB_ISLAND_STAT_SHED_LOCK
  | .hbm => Fld.GLB_ISLAND_STAT_HBM_LOCK

/-- CLOCK_PLL_LOSES_LOCK: a PLL that had locked. -/
def execClockPllLosesLock (p : Pll) (s : State) : Host.Outcome State Fault Refusal :=
  .next (if s.bitF Reg.GLB_ISLAND_STAT (lockFld p) then
    raise 0xB6 .none ((s.setB Reg.GLB_ISLAND_STAT (lockFld p) false).setB Reg.GLB_READY Fld.GLB_READY_CLOCKS false)
  else s)

/-- DIE_TEMPERATURE_LIMIT: the die reaches TJ_LIM. -/
def execDieTemperatureLimit (s : State) : Host.Outcome State Fault Refusal := .next (raise 0xB7 .none s)

/-- HBM3_TEMPERATURE_THRESHOLD: the refresh rate follows the temperature; above 105 °C HBM3 leaves service. -/
def hbmThreshold (t : HbmTemp) (s : State) : State :=
  let rate (n : Nat) : State := (s.modPower (fun p => { p with hbmRefresh := n })).setF Reg.CREEL_HBM Fld.CREEL_HBM_REFRESH n
  match t with
  | .below85 => rate 0
  | .above85 | .below95 => rate 1
  | .above95 => rate 2
  | .above105 => raise 0xB5 .none ((s.setB Reg.CREEL_HBM Fld.CREEL_HBM_READY false).setB Reg.GLB_READY Fld.GLB_READY_HBM false)

def execHbm3TemperatureThreshold (t : HbmTemp) (s : State) : Host.Outcome State Fault Refusal := .next (hbmThreshold t s)

end Sys2Proof.Machine
end

