-- ==== Sys2Proof/Machine/Loader.lean ====
section
/-! DEFINITION. The check pass over an image (R355, R356): the order of the checks and every range and consistency rule that the manual
assigns to the loader (R16, R20, R36, R93, R101, R103, R106, R130, R97, R113, R117, R158, R169, R191, R236, R255, R264, R275, R311, R338, R353, R406). -/

namespace Sys2Proof

open Machine (crc32c)

/-! ### The header (R349) and the places of the records (R351) -/

def ImageFile.version (f : ImageFile) : Word := BitVec.ofNat 32 (f.field 8 4)
def ImageFile.nrec (f : ImageFile) : Nat := f.field 14 2
def ImageFile.length (f : ImageFile) : Nat := f.field 16 4
def ImageFile.svn (f : ImageFile) : Nat := f.field 20 4
def ImageFile.keyId (f : ImageFile) : Nat := f.field 32 1
def ImageFile.xspiMhz (f : ImageFile) : Nat := f.field 33 1
def ImageFile.xspiDummy (f : ImageFile) : Nat := f.field 34 1
def ImageFile.rtFmt (f : ImageFile) : Nat := f.field 35 1

/-- The header checks of R355, in their order: the offset of the first field that fails. -/
def ImageFile.headerFault (f : ImageFile) : Option Nat :=
  if f.field 0 4 ≠ 0x52465943 then some 0
  else if f.field 4 2 ≠ 1 then some 4
  else if f.field 6 2 ≠ 0x0100 then some 6
  else if f.field 13 1 ≠ 0xB0 then some 13
  else if f.field 252 4 ≠ (crc32c (f.header.take 252)).toNat then some 252
  else none

/-- The header's ranges (R349). -/
def ImageFile.rangesOk (f : ImageFile) : Bool :=
  decide (50 ≤ f.xspiMhz) && decide (f.xspiMhz ≤ 200) && decide (4 ≤ f.xspiDummy) && decide (f.xspiDummy ≤ 31)

/-- The offset of record n: the first stands at 256, each after the one before with its payload padded to 16 bytes. -/
def recOffset (l : List ImgRec) (n : Nat) : Nat := (l.take n).foldl (fun o r => o + 16 + (r.len + 15) / 16 * 16) 256

end Sys2Proof

namespace Sys2Proof.Machine

/-! ### Looking up records (R351, R352) -/

/-- The TYPE of a record (R352). -/
def bodyType : RecBody → Nat
  | .device _ => 0x0001 | .port _ => 0x0002 | .spindle _ => 0x0010 | .scuLoops _ => 0x0011 | .actuator _ => 0x0020
  | .heads _ => 0x0021 | .acuLoops _ => 0x0022 | .preamp _ => 0x0023 | .jacquard _ => 0x0030 | .shuttle _ => 0x0031
  | .checkval _ => 0x0032 | .pools _ => 0x0040 | .lu _ => 0x0041 | .queueing _ => 0x0042 | .faults _ => 0x0050
  | .recorder _ => 0x0051 | .calib _ => 0x0052 | .fin => 0x00FF | .unknown t => t | .malformed t => t

def deviceOf (l : List ImgRec) : Option DeviceRec := l.findSome? (fun r => match r.body with | .device d => some d | _ => none)
def portsOf (l : List ImgRec) : List (BitVec 64) := l.filterMap (fun r => match r.body with | .port p => some p.addr | _ => none)
def spindleOf (l : List ImgRec) (h : Nat) : Option SpindleCfg :=
  l.findSome? (fun r => match r.body with | .spindle c => if r.index = h then some c else none | _ => none)
def actuatorOf (l : List ImgRec) (a : Nat) : Option ActCfg :=
  l.findSome? (fun r => match r.body with | .actuator c => if r.index = a then some c else none | _ => none)
def poolsOf (l : List ImgRec) : List (Nat × Nat) := (l.findSome? (fun r => match r.body with | .pools p => some p | _ => none)).getD []
def lusIn (l : List ImgRec) : List (Nat × LuRec) := l.filterMap (fun r => match r.body with | .lu u => some (r.index, u) | _ => none)
def shuttleOf (l : List ImgRec) : Option ShuttleRec := l.findSome? (fun r => match r.body with | .shuttle p => some p | _ => none)
def spindles (l : List ImgRec) : List SpindleCfg := l.filterMap (fun r => match r.body with | .spindle c => some c | _ => none)

/-- The INDEX values of a TYPE (R352). -/
def indexOk (r : ImgRec) : Bool :=
  match r.body with
  | .port _ => decide (r.index < 2)
  | .spindle _ | .scuLoops _ | .checkval _ => decide (r.index < 8)
  | .actuator _ | .heads _ | .acuLoops _ | .preamp _ => decide (r.index < 16)
  | .jacquard _ => decide (r.index < 5)
  | .lu _ => decide (r.index < 256)
  | .unknown _ | .malformed _ => true
  | _ => r.index == 0xFFFFFFFF

/-! ### Ranges (code 6; R20, R93, R255, R275, R338, R352) -/

def within (lo hi n : Nat) : Bool := decide (lo ≤ n) && decide (n ≤ hi)

/-- An NAA 5 identifier (R169). -/
def naa5 (x : BitVec 64) : Bool := x.toNat / 2 ^ 60 == 5

def deviceOk (d : DeviceRec) : Bool :=
  d.hdas != 0#8 && (List.range 8).all (fun h => d.acts.getLsbD (2 * h) == d.hdas.getLsbD h && d.acts.getLsbD (2 * h + 1) == d.hdas.getLsbD h)
    && within 1 16 d.platters && within 64 4096 d.resSize && within 1 3600 d.idleT && within 100 125 d.tjLim && naa5 d.devName

/-- The back-EMF bound of R130: √3 × KE × 2π × POLE_PAIRS × SPD_MAX / 60 ≤ 10.8 V holds for whole numbers in these units exactly while
the product is at most this. -/
def emfBound : Nat := 5954352

def spindleOk (c : SpindleCfg) : Bool :=
  within 360 720 c.wedges && within 3600 7200 c.spdMax && within 3600 c.spdMax c.target && within 2 12 c.polePairs
    && within 1 10000 c.rPh && within 1 10000 c.lPh && within 1 2000 c.ke && within 1 100 c.gE && within 20 2000 c.pllBw
    && within 20 400 c.deadT && within 480 1200 c.tw && within 1000 40000 c.imaxSp && within 1000 40000 c.ibusMax
    && within 1000 40000 c.izvMax && within 1 2000 c.amaxSp && within 1 20000 c.jmaxSp && within 5 200 c.spdTol
    && within 1 100 c.resThr && within 1 255 c.resN && within 50 2000 c.bemfMin && within 10 1000 c.detectTmo
    && within 10 2000 c.stillT && within 1 120 c.brakeTmo && within 5 100 c.ipdT && within 5 100 c.iStart
    && within 10 1000 c.olAcc && within 100 1000 c.handover && within 1 7 c.startTries && within 1 7 c.catchTries
    && within 1 100 c.retryWait && within 50 1000 c.zvRpm && within 100 10000 c.chopImin && within 20 1000 c.chopFallT
    && within 9000 12000 c.vHold && decide (c.ke * c.polePairs * c.spdMax ≤ emfBound)

/-- P_z, payload bytes of a frame (R21). -/
def payloadOf (z : ZoneCfg) : Nat := z.fz - z.sv - 12

def zoneOk (z : ZoneCfg) : Bool :=
  decide (4626 + z.sv + 12 ≤ z.fz) && within 64 4095 z.sv && within 1 2047 z.nz && decide (z.kz + 1 ≤ z.nz) && decide (z.sz ≤ 4095)
    && within 8 1018 z.bl && decide (4 + 17 + 4 * z.bl ≤ z.sv) && decide (z.headSettle ≤ 65535)

/-- Cylinders of a surface (R38). -/
def cylinders (l : List ZoneCfg) : Nat := l.foldl (fun n z => n + z.cyls) (128 + 1024 + 256 * (l.length - 1) + 128)

def actuatorOk (c : ActCfg) : Bool :=
  within 1 15 c.heads && within 1 64 c.zones.length && c.zones.all zoneOk && decide (cylinders c.zones ≤ 4194304)
    && decide (c.amax ^ 2 ≤ c.vmax * c.jmax) && within 2 15 c.lostN && within 1 255 c.recoverTmo && within 10 1000 c.parkTmo
    && (match c.zones with | z :: _ => decide (129 ≤ z.nz) | [] => false)
    && decide ((c.heads * c.zones.foldl (fun n z => n + mediaZones z) 0 + 127) / 128
        ≤ 384 * (match c.zones with | z :: _ => z.nz | [] => 0))

def fits24 (x : Int) : Bool := decide (-8388608 ≤ x) && decide (x ≤ 8388607)

def stageOk (c : StageCfg) : Bool :=
  decide (-32 ≤ c.ex) && decide (c.ex ≤ 7) && fits24 c.b0 && fits24 c.b1 && fits24 c.b2 && fits24 c.a1 && fits24 c.a2

def loopsOk (l : LoopsCfg) : Bool := decide (l.loops.length ≤ 4) && l.loops.all (fun q => decide (q.length ≤ 12) && q.all stageOk)

def preampOk (c : PreampCfg) : Bool :=
  c.select.all (fun l => decide (l.length ≤ 8)) && decide (c.writeEntry.length ≤ 8) && decide (c.readEntry.length ≤ 8)
    && decide (c.idle.length ≤ 8)

/-- Two ranges (first, length) that share a number. -/
def meet (x y : Nat × Nat) : Bool := decide (x.1 < y.1 + y.2) && decide (y.1 < x.1 + x.2)

/-- Ranges of a list that no two share a number. -/
def apart : List (Nat × Nat) → Bool
  | [] => true
  | x :: t => t.all (fun y => !meet x y) && apart t

/-- Pools (R236): up to 64, none past bobbin 245,759, none overlapping. -/
def poolsOk (l : List (Nat × Nat)) : Bool :=
  decide (l.length ≤ 64) && l.all (fun p => p.2 == 0 || decide (p.1 + p.2 ≤ bobbinCount)) && apart (l.filter (fun p => p.2 != 0))

/-- The runs of an LU record (R353). -/
def runsOf (l : List Byte) : List RunRec :=
  (List.range (l.length / 16)).map (fun i =>
    let b (o n : Nat) : Nat := leNat ((l.drop (16 * i + o)).take n)
    ⟨b 0 4, b 4 1, b 5 1, b 6 1, b 7 1, b 8 4⟩)

def luRuns (u : LuRec) : List RunRec := runsOf u.runBytes

/-- An LU record by itself (R181, R264, R353). -/
def luOk (u : LuRec) : Bool :=
  u.runBytes.length % 16 == 0 && (luRuns u).all (fun r => decide (1 ≤ r.count) && decide (r.ztype ≤ 1)) && ((luRuns u).foldl (fun n r => n + r.count) 0) == u.zcount
    && decide (u.zbase + u.zcount ≤ 18874368) && decide (u.pool < 64) && decide (u.pifmt ≤ 2) && decide (u.ptype ≤ 3)

/-- A FAULTS record (R338): no severity below the source's MIN or above 4. -/
def faultsOk (l : List SevRec) : Bool := l.all (fun r => srcUsed r.src && decide (srcMin r.src ≤ r.sev) && decide (r.sev ≤ 4))

def rangeOk (r : ImgRec) : Bool :=
  indexOk r && match r.body with
  | .device d => deviceOk d
  | .port p => naa5 p.addr
  | .spindle c => spindleOk c
  | .actuator c => actuatorOk c
  | .scuLoops l | .acuLoops l => loopsOk l
  | .preamp c => preampOk c
  | .checkval c => within 8 64 c.width
  | .pools l => poolsOk l
  | .lu u => luOk u
  | .faults l => faultsOk l
  | .malformed _ => false
  | _ => true

/-! ### Consistency between records (code 7) -/

/-- N_z of R36 and the clock bound of R16, from the HDA's SPINDLE record. -/
def zoneFits (c : SpindleCfg) (z : ZoneCfg) : Bool :=
  z.nz == c.wedges * payloadOf z / 4626
    && decide (z.fz * c.wedges * c.spdMax * (10000 + c.spdTol) ≤ 800000000 * 60 * 10000)

/-- Media zones (actuator, head, recording zone, first, count) of an LU. -/
def luMedia (u : LuRec) : List ((Nat × Nat × Nat) × (Nat × Nat)) := (luRuns u).map (fun r => ((r.act, r.head, r.rz), (r.first, r.count)))

/-- Every run lies inside M_z of its surface (R264). -/
def runFits (l : List ImgRec) (r : RunRec) : Bool :=
  match actuatorOf l r.act with
  | none => false
  | some c => decide (r.head < c.heads) && (match c.zones[r.rz]? with | some z => decide (r.first + r.count ≤ mediaZones z) | none => false)

def mediaApart : List ((Nat × Nat × Nat) × (Nat × Nat)) → Bool
  | [] => true
  | x :: t => t.all (fun y => !(x.1 == y.1 && meet x.2 y.2)) && mediaApart t

/-- An LU record against the records before it (R191, R236, R264). -/
def luFits (before : List ImgRec) (u : LuRec) : Bool :=
  let others := (lusIn before).map (·.2)
  let size := ((poolsOf before)[u.pool]?.getD (0, 0)).2
  let mine := others.filter (fun x => x.pool == u.pool)
  decide (0 < size)
    && others.all (fun x => !meet (x.zbase, x.zcount) (u.zbase, u.zcount))
    && (luRuns u).all (runFits before)
    && mediaApart (luMedia u ++ others.flatMap luMedia)
    && decide (4 * (mine.foldl (fun n x => n + x.minBob) u.minBob) ≤ size)
    && decide (others.foldl (fun n x => n + x.minCtx) u.minCtx ≤ ctxCount)

/-- Check-value units that the programs bind (R311). -/
def boundUnits (p : ShuttleRec) : List Nat :=
  (p.info.flatMap (fun e => (p.store.drop e.1).take e.2)).filterMap (fun w => match shuDecode w with
    | .move m => if m.cvop ≠ 0 then some m.cvu else none
    | _ => none)

/-- The parameters of the CRC-32C of R33. -/
def cvIsCrc32c (c : CvRec) : Bool := c == ⟨32, true, true, 0x1EDC6F41#64, 0xFFFFFFFF#64, 0xFFFFFFFF#64⟩

def consistent (before : List ImgRec) (r : ImgRec) : Bool :=
  match r.body with
  | .port p => !(portsOf before).contains p.addr && (match deviceOf before with | some d => d.devName != p.addr | none => true)
  | .actuator c => match spindleOf before (r.index / 2) with | some x => c.zones.all (zoneFits x) | none => false
  | .checkval c => match shuttleOf before with | some p => !(boundUnits p).contains r.index || cvIsCrc32c c | none => true
  | .pools l => match deviceOf before with
    | some d => l.all (fun p => p.2 == 0 || decide (p.1 + p.2 ≤ bobbinCount - d.resSize))
    | none => true
  | .lu u => luFits before u
  | .calib c => (spindles before).all (fun x => decide (2 * x.wedges ≤ c.skewWedges))
  | _ => true

/-! ### Jacquard records (R150 to R158, R354, code 8) -/

/-- The kind of a store, 0 to 4 in the row order of R149. -/
def storeKind (q : Nat) : Nat := if q < 16 then 0 else if q < 32 then 1 else if q < 48 then 2 else if q < 56 then 3 else 4
def kindPick (k : Nat) : Bool := k != 2 && k != 4
def kindWords (k : Nat) : Nat := if kindPick k then 2048 else 4096

/-- The OUT bits that the kind table of R153 assigns: [51] up to these. -/
def outBits (k : Nat) : Nat := if k = 0 then 63 else if k = 1 then 58 else 57

/-- A Pick word breaks no rule of R158. -/
def pickWordOk (k n : Nat) (w : BitVec 128) : Bool :=
  let cond := wf w 33 28
  decide (wf w 16 6 < n) && decide (wf w 27 17 < n) && wf w 36 35 != 3 && (decide (cond ≤ 8) || cond == 63)
    && (wf w 36 35 != 2 || cond == 0) && wf w 127 (outBits k + 1) == 0

/-- A Shed word breaks no rule of R158. -/
def shedWordOk (n : Nat) (w : BitVec 128) : Bool :=
  let cond := wf w 29 24
  decide (wf w 11 0 < n) && decide (wf w 23 12 < n) && (decide (cond ≤ 10) || cond == 63) && decide (wf w 37 32 ≤ 0x0D) && wf w 95 81 == 0

def jacquardOk (k : Nat) (payload : List Byte) : Bool :=
  match jqParse (kindPick k) payload with
  | none => false
  | some j =>
  let n := j.words.length
  (List.range 64).all (fun q => !j.mask.getLsbD q || storeKind q == k)
    && within 1 (kindWords k) n
    && j.words.all (fun w => if kindPick k then pickWordOk k n w else shedWordOk n w)
    && j.words.any (fun w => if kindPick k then wf w 37 37 == 1 else wf w 31 31 == 1)

/-! ### Shuttle programs (R252, R253, R255, code 9) -/

/-- A pair of endpoints that a MOVE may join: on a media channel, on a host channel, with CMP. -/
def pairOk (m : Move) : Bool :=
  match m.src, m.dst with
  | 0, 2 => true
  | 2, 1 | 2, 3 | 4, 2 => !m.cmp
  | _, _ => false

def onMedia (m : Move) : Bool := m.src == 4 || m.dst == 3

/-- Bits above `hi`, and other bits that the table does not assign, are zero. -/
def shuWordOk (i : Nat) (w : BitVec 64) : Bool :=
  match ib w 3 0 with
  | 0 => ib w 63 4 == 0
  | 1 => ib w 63 36 == 0 && (match shuDecode w with
    | .move m => pairOk m && m.cvop != 3 && decide (m.count ≤ 2048)
    | _ => false)
  | 2 => ib w 63 25 == 0 && decide (ib w 11 4 < i)
  | 3 => decide (ib w 7 4 ≤ 2) && ib w 15 8 == 0 && ib w 63 32 == 0
  | 4 => decide (ib w 7 4 ≤ 3) && ib w 63 8 == 0
  | _ => false

/-- The LOOPs of a program: place and target. -/
def loopsIn (l : List (BitVec 64)) : List (Nat × Nat) :=
  l.zipIdx.filterMap (fun e => match shuDecode e.1 with | .loop t _ _ => some (e.2, t) | _ => none)

/-- One program of the record: an empty one has nothing to check. -/
def programOk (store : List (BitVec 64)) (e : Nat × Nat) : Bool :=
  let l := (store.drop e.1).take e.2
  let ls := loopsIn l
  e.2 == 0 || (decide (e.2 ≤ 256) && decide (e.1 + e.2 ≤ 4096)
    && l.zipIdx.all (fun x => shuWordOk x.2 x.1)
    && ls.all (fun x => ls.all (fun y => x == y || !(decide (x.2 ≤ y.1) && decide (y.1 < x.1))))
    && l.any (fun w => ib w 3 0 == 0))

/-- The job kinds name programs that are not empty and that their channels may run (R253, R255). -/
def kindsOk (r : ShuttleRec) : Bool :=
  decide (r.info.length ≤ 32) && r.kinds.length == 5 && r.kinds.zipIdx.all (fun e =>
    let p := r.info.getD e.1 (0, 0)
    p.2 != 0 && ((r.store.drop p.1).take p.2).all (fun w => match shuDecode w with
      | .move m => onMedia m == (e.2 == 2 || e.2 == 3)
      | _ => true))

def shuttleRecOk (r : ShuttleRec) : Bool := r.info.all (programOk r.store) && kindsOk r

/-! ### The check pass -/

/-- The code of a record's first failing range or consistency rule, given the records before it. -/
def recFails (before : List ImgRec) (r : ImgRec) : Option Nat :=
  if !rangeOk r then some 6
  else if !consistent before r then some 7
  else match r.body with
    | .jacquard j => if jacquardOk r.index j then none else some 8
    | .shuttle p => if shuttleRecOk p then none else some 9
    | _ => none

/-- The first record with a failing rule, and its code. -/
def firstFail : List ImgRec → List ImgRec → Nat → Option (Nat × Nat)
  | _, [], _ => none
  | before, r :: t, n => match recFails before r with
    | some c => some (c, n)
    | none => firstFail (before ++ [r]) t (n + 1)

/-- The first record out of the order of R352, or of a type the loader does not know without OPTIONAL; END is the last record. -/
def badOrder : Option (Nat × Nat) → List ImgRec → Nat → Option Nat
  | _, [], n => some n
  | prev, r :: t, n =>
    let k := bodyType r.body
    let ok := match prev with
      | none => true
      | some p => decide (p.1 < k) || (p.1 == k && (decide (p.2 < r.index) || (k == 0x0030 && p.2 == r.index)))
    let known := match r.body with | .unknown _ => r.optional | _ => true
    if !ok || !known then some n
    else if r.body = .fin then (if t.isEmpty then none else some (n + 1))
    else badOrder (some (k, r.index)) t (n + 1)

/-- The first record whose RCRC does not match. -/
def badCrc : List ImgRec → Nat → Option Nat
  | [], _ => none
  | r :: t, n => if r.crcOk then badCrc t (n + 1) else some n

/-- The refusal of an image: its code, its record (0xFFFF: header or signature) and its offset. -/
structure Refused where
  code : Nat
  rcd : Nat
  offset : Nat
  deriving DecidableEq, Repr

/-- The key is trusted (R350). -/
def State.keyTrusted (s : State) (f : ImageFile) : Bool :=
  f.keyOk && decide (f.keyId < 4) && !s.mgmt.revoked.contains f.keyId && decide (s.mgmt.svnMin ≤ f.svn)

/-- The check pass, in the order of R355. The offset of a failing check that no rule places is a free value (log entry 20). NREC counts the
records (R349). -/
def State.checkImage (s : State) (f : ImageFile) : Option Refused :=
  let ofs (c n : Nat) : Nat := recOffset f.recs n + Config.errOffset c n
  match f.headerFault with
  | some o => some ⟨1, 0xFFFF, o⟩
  | none =>
  if !s.keyTrusted f then some ⟨3, 0xFFFF, Config.errOffset 3 0⟩
  else if !f.sigOk then some ⟨2, 0xFFFF, f.length - 96⟩
  else match badCrc f.recs 0 with
  | some n => some ⟨4, n, recOffset f.recs n + 12⟩
  | none => match badOrder none f.recs 0 with
    | some n => some ⟨5, n, ofs 5 n⟩
    | none =>
      if f.nrec ≠ f.recs.length then some ⟨5, f.recs.length, ofs 5 f.recs.length⟩
      else if !f.rangesOk then some ⟨6, 0xFFFF, Config.errOffset 6 0xFFFF⟩
      else match firstFail [] f.recs 0 with
      | some (c, n) => some ⟨c, n, ofs c n⟩
      | none => none

def whenCode : LoadWhen → Nat | .powerOn => 1 | .activation => 2 | .restart => 3

/-- GLB_IMG_ERR and GLB_IMG_ERR_OFS of a refusal. -/
def showRefusal (w : LoadWhen) (r : Refused) (s : State) : State :=
  (s.setReg Reg.GLB_IMG_ERR (BitVec.ofNat 32 (r.code + 2 ^ 4 * (r.rcd % 65536) + 2 ^ 20 * whenCode w))).setReg
    Reg.GLB_IMG_ERR_OFS (BitVec.ofNat 32 r.offset)

end Sys2Proof.Machine
end

