-- ==== Sys2Proof/Machine/ImageOps.lean ====
section
/-! DEFINITION. The apply pass (R355, R360): what each record puts in force, the Jacquard stores (R159, R160, R164, R168), and the values
that the motion domains take (R360, R374, R377). -/

namespace Sys2Proof.Machine

/-! ### DEVICE, PORT, POOLS, LU, QUEUEING -/

def applyDevice (d : DeviceRec) (s : State) : State :=
  let s1 := (s.setF Reg.GLB_GEOM Fld.GLB_GEOM_HDA d.hdas.toNat).setF Reg.GLB_GEOM Fld.GLB_GEOM_ACT d.acts.toNat
  { s1.setF Reg.CREEL_RES Fld.CREEL_RES_SIZE d.resSize with cfg := { s1.cfg with dev := ⟨d.serial, d.devName, d.idleT, d.tjLim⟩ } }

def applyPort (p : Nat) (r : PortRec) (s : State) : State :=
  (s.setReg (Reg.SAS_ADDR_LO p) (r.addr.setWidth 32)).setReg (Reg.SAS_ADDR_HI p) ((r.addr >>> 32).setWidth 32)

/-- Base and size of every pool; one the record does not list is unused. -/
def applyPools (l : List (Nat × Nat)) (s : State) : State :=
  (List.range 64).foldl (fun s p =>
    let e := l.getD p (0, 0)
    (s.setF (bank p Reg.CREEL_POOL_BASE) Fld.CREEL_POOL_BASE_BASE e.1).setF (bank p Reg.CREEL_POOL_SIZE) Fld.CREEL_POOL_SIZE_SIZE e.2) s

/-- An LU as the model keeps it; a format that FORMAT UNIT has set stays (R181). -/
def luCfgOf (formats : List (Nat × Nat × Nat)) (u : Nat) (r : LuRec) : LuCfg :=
  let f := (aget formats u).getD (r.pifmt, r.ptype)
  { lu := u, zbase := r.zbase
    runs := (luRuns r).map (fun x => ⟨x.count, x.act, x.head, x.rz, x.ztype == 1, x.first⟩)
    pool := r.pool, minBob := r.minBob, maxBob := r.maxBob, minCtx := r.minCtx, maxCtx := r.maxCtx
    weight := r.weight, maxOpen := r.maxOpen, pifmt := f.1, ptype := f.2, modes := r.modes }

def applyLu (u : Nat) (r : LuRec) (s : State) : State :=
  let s1 := s.setReg (bank u Reg.INT_LU_BOB) (BitVec.ofNat 32 (r.minBob % 65536 + 65536 * (r.maxBob % 65536)))
  let s2 := s1.setReg (bank u Reg.INT_LU_CTX) (BitVec.ofNat 32 (r.minCtx % 65536 + 65536 * (r.maxCtx % 65536)))
  (s2.setF (bank u Reg.INT_LU_USE_BOB) Fld.INT_LU_USE_BOB_POOL r.pool).setF (bank u Reg.SCH_LU_WT) Fld.SCH_LU_WT_WT r.weight

def applyLus (l : List (Nat × LuRec)) (s : State) : State :=
  l.foldl (fun s e => applyLu e.1 e.2 s) { s with cfg := { s.cfg with lus := l.map (fun e => luCfgOf s.zones.formats e.1 e.2) } }

def applyQueueing (q : QueueRec) (s : State) : State :=
  ((((s.setReg Reg.INT_CFG q.intCfg).setReg Reg.INT_ACT_CFG q.actCfg).setReg Reg.SCH_CFG q.schCfg).setReg Reg.SCH_CFG2 q.schCfg2).setReg
    Reg.SCH_BG_CFG q.bgCfg

/-- The records that the apply pass takes first (R355). -/
def applyFirst (f : ImageFile) (s : State) : State :=
  let s1 := f.recs.foldl (fun s r => match r.body with
    | .device d => applyDevice d s
    | .port p => applyPort r.index p s
    | .pools l => applyPools l s
    | _ => s) s
  f.recs.foldl (fun s r => match r.body with | .queueing q => applyQueueing q s | _ => s) (applyLus (lusIn f.recs) s1)

/-! ### Pools -/

/-- Bobbins of a range that are taken. -/
def State.takenIn (s : State) (base size : Nat) : Nat := (List.range size).countP (fun i => s.bobOwned (base + i))

/-- Every bobbin is free (R247): FREE is SIZE, and FREE_ALL is the sum. -/
def allFree (s : State) : State :=
  let s1 := s.setF Reg.CREEL_STAT Fld.CREEL_STAT_FREE_ALL 0
  (List.range 64).foldl (fun s p => setFree p (s.poolSize p) (s.setF (bank p Reg.CREEL_POOL_FREE) Fld.CREEL_POOL_FREE_FREE 0)) s1

/-- Pool ranges that a live activation changes (R236): FREE follows the bobbins still taken, and every list is threaded anew. -/
def movePools (old : List (Nat × Nat)) (oldRes : Nat) (s : State) : State :=
  let now := (List.range 64).map (fun p => (s.listBase p, s.listSize p))
  if now == old && s.getF Reg.CREEL_RES Fld.CREEL_RES_SIZE == oldRes then s else
  let s1 := (List.range 64).foldl (fun s p =>
    setFree p (s.listSize p - s.takenIn (s.listBase p) (s.listSize p)
      - s.getF (bank p Reg.CREEL_POOL_CREDIT) Fld.CREEL_POOL_CREDIT_CREDIT) s) s
  showRebuild { s1 with creel := { s1.creel with pools := Vector.ofFn (fun p : Fin 65 => ⟨[], none, decide (0 < s1.listSize p.val)⟩) } }

/-! ### Jacquard stores (R160, R168) -/

/-- What the image's JACQUARD records put into store q; of two that name it the later one stands. -/
def progOf (l : List ImgRec) (q : Nat) : Option Prog :=
  l.foldl (fun p r => match r.body with
    | .jacquard l => match jqParse (kindPick r.index) l with
      | some j => if j.mask.getLsbD q then some (bankOf (kindPick r.index) j) else p
      | none => p
    | _ => p) none

/-- The order in which stores are filled (R160). -/
def fillOrder : List (Fin 64) :=
  (List.finRange 64).filter (fun q => 48 ≤ q.val) ++ (List.finRange 64).filter (fun q => 16 ≤ q.val && q.val < 48)
    ++ (List.finRange 64).filter (fun q => q.val < 16)

/-- The unit a store belongs to is configured. -/
def State.storeUsed (s : State) (q : Fin 64) : Bool :=
  match storeUnit q with | .act a => s.hasAct a | .hda h => s.hasHda h | _ => false

/-- Write an active bank, with its shadow, and start the sequencer at word 0 (R159, R160). -/
def fillActive (fills : List BankCheck) (q : Fin 64) (p : Prog) (s : State) : State :=
  let s1 := (writeShadow s.jq[q].slot q (isPick q) p s).modStore q (fun t => { t with
    active := some p, running := true, held := false, pc := 0, lcnt := 0, flags := 0#4, armed := false, waitIdle := false })
  if bankPasses fills q (isPick q) p then setFailed q false s1 else failStore q (s1.modStore q (fun t => { t with running := false }))

/-- Write a staging bank, with its shadow in the second slot (R164). One that fails its check twice is not valid, and the store-failure source is
raised; the active bank and its sequencer are not touched (DEDUCED, log entry 47, from R164 beside R159). -/
def fillStaging (fills : List BankCheck) (q : Fin 64) (p : Prog) (s : State) : State :=
  let ok := bankPasses fills q (isPick q) p
  let s1 := (writeShadow (!s.jq[q].slot) q (isPick q) p s).modStore q (fun t => { t with staging := some p, stgValid := ok, armed := false, waitIdle := false })
  if ok then s1 else raise 0xAA (storeUnit q) s1

/-- Stores of an image at power-on (R160). -/
def fillAll (f : ImageFile) (fills : List BankCheck) (s : State) : State :=
  fillOrder.foldl (fun s q => match progOf f.recs q.val with
    | some p => if s.storeUsed q then fillActive fills q p s else s
    | none => s) s

/-- Stores of an image at its verification (R164). -/
def stageAll (f : ImageFile) (fills : List BankCheck) (s : State) : State :=
  fillOrder.foldl (fun s q => match progOf f.recs q.val with
    | some p => if s.storeUsed q then fillStaging fills q p s else s
    | none => s) s

/-- The active shadow of every running store is rebuilt (R168), when the loader restarts. -/
def rebuildShadows (s : State) : State :=
  fillOrder.foldl (fun s q => match s.jq[q].active with
    | some p => if s.jq[q].running then writeShadow s.jq[q].slot q (isPick q) p s else s
    | none => s) s

/-- Stores at a loader restart (R168): a running store keeps its bank, and is staged where the image's version
differs; one that is empty, as the framer stores are after the reset, is written straight. -/
def restartStores (f : ImageFile) (fills : List BankCheck) (s : State) : State :=
  let s1 := fillOrder.foldl (fun s q => match progOf f.recs q.val with
    | none => s
    | some p =>
      if !s.storeUsed q then s else
      match s.jq[q].active with
      | none => fillActive fills q p s
      | some x =>
        if x.ver = p.ver then s else fillStaging fills q p s) s
  if s1.jq.toList.any (fun t => t.stgValid) then armStores (s1.setF Reg.JQ_ACT Fld.JQ_ACT_SWAP_TMO 10) else s1

/-! ### Values of the motion domains -/

def stageOf (c : StageCfg) : Stage := ⟨c.b0, c.b1, c.b2, c.a1, c.a2, c.ex, 0, 0, 0, 0⟩

/-- A loop as the image gives it, with cleared delay lines (R101, R103). -/
def loopOf (l : List StageCfg) : Loop :=
  { nstage := l.length
    stages := Vector.ofFn (fun i : Fin 12 => match l[i.val]? with | some c => stageOf c | none => stageNone)
    bypass := 0#12, stageSat := 0#12, outSat := false, waiting := [] }

def loopsOf (c : LoopsCfg) : Vector Loop 4 := Vector.ofFn (fun i : Fin 4 => loopOf (c.loops.getD i.val []))

def scuLoopsOf (l : List ImgRec) (h : Nat) : Option LoopsCfg :=
  l.findSome? (fun r => match r.body with | .scuLoops c => if r.index = h then some c else none | _ => none)
def acuLoopsOf (l : List ImgRec) (a : Nat) : Option LoopsCfg :=
  l.findSome? (fun r => match r.body with | .acuLoops c => if r.index = a then some c else none | _ => none)

/-- A SPINDLE record: the parameters, TARGET and OBS_CFG. -/
def applySpindle (h : Hda) (c : SpindleCfg) (s : State) : State :=
  let s1 := { s with cfg := { s.cfg with spin := s.cfg.spin.set h c } }
  ((s1.setF (Reg.SCU_CTRL h) Fld.SCU_CTRL_TARGET c.target).setF (Reg.SCU_OBS_CFG h) Fld.SCU_OBS_CFG_RES_THR c.resThr).setF
    (Reg.SCU_OBS_CFG h) Fld.SCU_OBS_CFG_RES_N c.resN

/-- The register values of ACU[a] that an ACTUATOR record gives. -/
def applyServo (a : Act) (c : ActCfg) (s : State) : State :=
  let s1 := ((s.setReg (Reg.ACU_PES_LIM a) c.pesLim).setF (Reg.ACU_WI_CFG a) Fld.ACU_WI_CFG_NEIGHBOR c.neighbor).setReg
    (Reg.ACU_SETTLE_CFG a) c.settleCfg
  let s2 := ((s1.setF (Reg.ACU_TRD_VMAX a) Fld.ACU_TRD_VMAX_LIMIT c.vmax).setF (Reg.ACU_TRD_AMAX a) Fld.ACU_TRD_AMAX_LIMIT c.amax).setF
    (Reg.ACU_TRD_JMAX a) Fld.ACU_TRD_JMAX_LIMIT c.jmax
  s2.modAcu a (fun u => { u with coilR := c.rCoil })

/-- An actuator's part of a motion domain. -/
def applyMotionAct (l : List ImgRec) (a : Act) (s : State) : State :=
  let s1 := match actuatorOf l a.val with | some c => applyServo a c s | none => s
  match acuLoopsOf l a.val with
  | some c => { s1.modAcu a (fun u => { u with loops := loopsOf c }) with cfg := { s1.cfg with velGains := s1.cfg.velGains.set a c.velGains } }
  | none => s1

/-- The image's values for the motion domain of h (R360). -/
def applyMotion (l : List ImgRec) (h : Hda) (s : State) : State :=
  let s1 := match spindleOf l h.val with | some c => applySpindle h c s | none => s
  let s2 := match scuLoopsOf l h.val with | some c => s1.modScu h (fun u => { u with loops := loopsOf c }) | none => s1
  applyMotionAct l (highAct h) (applyMotionAct l (lowAct h) s2)

/-! ### The remaining records -/

/-- The channel's values of an ACTUATOR record, zone by zone. -/
def applyZones (a : Act) (c : ActCfg) (s : State) : State :=
  c.zones.zipIdx.foldl (fun s e =>
    let k := bank e.2 (Reg.ACU_CH_CTRL a)
    let r := bank e.2 (Reg.ACU_FR_CFG a)
    let s1 := (s.setF k Fld.ACU_CH_CTRL_ITER_MAX e.1.iterMax).setF k Fld.ACU_CH_CTRL_ITER_MAX_RETRY e.1.iterRetry
    ((s1.setF r Fld.ACU_FR_CFG_MODE (b2n e.1.best)).setF r Fld.ACU_FR_CFG_WIN e.1.win).setF r Fld.ACU_FR_CFG_THR e.1.thr)
    { s with cfg := { s.cfg with acts := s.cfg.acts.set a c } }

def applyHeads (a : Act) (l : List HeadCfg) (s : State) : State :=
  l.foldl (fun s e =>
    s.setReg (bank (e.head * 64 + e.zone) (Reg.ACU_PRECOMP_DATA a)) (BitVec.ofNat 32 (e.pc1 % 32 + 2 ^ 8 * (e.pc2 % 32) + 2 ^ 16 * (e.pc3 % 32))))
    { s with cfg := { s.cfg with heads := s.cfg.heads.set a l } }

/-- SHU_PROG_INFO and SHU_KIND follow the bank in force (R263). -/
def showPrograms (s : State) : State :=
  let b := bankIdx s.shu.bank
  let s1 := (List.range 32).foldl (fun s p =>
    let e := s.shu.info[b].getD p (0, 0)
    s.setReg (bank p Reg.SHU_PROG_INFO) (BitVec.ofNat 32 (e.1 % 4096 + 4096 * (e.2 % 512)))) s
  s1.setReg Reg.SHU_KIND (BitVec.ofNat 32 ((List.range 5).foldl (fun n i => n + 32 ^ i * (s.shu.kinds[b].getD i 0 % 32)) 0))

/-- A program-store bank takes the image's programs. -/
def putPrograms (b : Bool) (r : ShuttleRec) (s : State) : State :=
  let i := bankIdx b
  { s with shu := { s.shu with store := s.shu.store.set i r.store, info := s.shu.info.set i r.info, kinds := s.shu.kinds.set i r.kinds } }

/-- A CHECKVAL record, and BOUND as the programs give it (R311). -/
def applyCheckval (v : Nat) (c : CvRec) (bound : Bool) (s : State) : State :=
  let pair (lo hi : Nat) (x : BitVec 64) (s : State) : State := (s.setReg lo (x.setWidth 32)).setReg hi ((x >>> 32).setWidth 32)
  pair (Reg.CV_XOR_LO v) (Reg.CV_XOR_HI v) c.xorout (pair (Reg.CV_INIT_LO v) (Reg.CV_INIT_HI v) c.init
    (pair (Reg.CV_POLY_LO v) (Reg.CV_POLY_HI v) c.poly
      (s.setReg (Reg.CV_CFG v) (BitVec.ofNat 32 (c.width % 128 + 2 ^ 7 * b2n c.refin + 2 ^ 8 * b2n c.refout + 2 ^ 9 * b2n bound)))))

/-- Severities (R338): the default of every source, then the record's rows. -/
def applyFaults (l : List SevRec) (s : State) : State :=
  let s1 := (List.range 0xB9).foldl (fun s n => s.setReg (bank n Reg.FLT_SEV) (BitVec.ofNat 32 (srcDefault n))) s
  l.foldl (fun s r => s.setReg (bank r.src Reg.FLT_SEV) (BitVec.ofNat 32 (r.sev + 2 ^ 8 * (r.profile % 16) + 2 ^ 12 * b2n r.profEn))) s1

def profKey (t e : Nat) : Nat := bank (t * 32 + e) Reg.ER_PROF_ENTRY

/-- A RECORDER record: profiles, histograms, CHKPT_MIN. A histogram whose set-up changes is empty (R419). -/
def applyRecorder (r : RecorderRec) (s : State) : State :=
  let s1 := s.setF Reg.ER_CFG Fld.ER_CFG_CHKPT_MIN r.chkpt
  let s2 := r.profiles.foldl (fun s e => s.setReg (profKey e.1 e.2.1) (BitVec.ofNat 32 (e.2.2 % 2 ^ 24 + 2 ^ 24))) s1
  r.hists.foldl (fun s e =>
    let cfg := BitVec.ofNat 32 (e.2.1 % 16 + 2 ^ 4 * (e.2.2.1 % 256) + 2 ^ 12 * (e.2.2.2.1 % 32))
    let base := BitVec.ofInt 32 e.2.2.2.2
    if s.reg (bank e.1 Reg.ER_HIST_CFG) = cfg ∧ s.reg (bank e.1 Reg.ER_HIST_BASE) = base then s else setHist e.1 cfg base s) s2

def applyCalib (c : CalibRec) (s : State) : State :=
  let s1 := (s.setF Reg.CAL_CFG Fld.CAL_CFG_TEMP_DELTA c.tempDelta).setF Reg.CAL_CFG Fld.CAL_CFG_PERIOD c.period
  (s1.setF Reg.CAL_SKEW_CFG Fld.CAL_SKEW_CFG_SKEW_WEDGES c.skewWedges).setF Reg.CAL_SKEW_CFG Fld.CAL_SKEW_CFG_SKEW_JUMP c.skewJump

/-- The records after the Jacquard stores, in TYPE order, without the values of the motion domains and without the program store. -/
def applyRest (f : ImageFile) (s : State) : State :=
  let bound := match shuttleOf f.recs with | some p => boundUnits p | none => []
  let s1 := applyFaults [] s
  f.recs.foldl (fun s r => match r.body with
    | .actuator c => applyZones (Fin.ofNat 16 r.index) c s
    | .heads l => applyHeads (Fin.ofNat 16 r.index) l s
    | .preamp c => { s with cfg := { s.cfg with preamp := s.cfg.preamp.set (Fin.ofNat 16 r.index) c } }
    | .checkval c => applyCheckval r.index c (bound.contains r.index) s
    | .faults l => applyFaults l s
    | .recorder r => applyRecorder r s
    | .calib c => applyCalib c s
    | _ => s) s1

def applyMotionAll (f : ImageFile) (s : State) : State := forHdas (fun h s => applyMotion f.recs h s) s

/-! ### Islands -/

/-- The Shed islands that the image configures are clocked while their PLL is locked and their rail is up (R7, R10). -/
def clockShed (s : State) : State :=
  let on := s.bitF Reg.GLB_ISLAND_STAT Fld.GLB_ISLAND_STAT_SHED_LOCK && s.power.motHi
  let s1 := forHdas (fun h s =>
    let r := on && s.hasHda h
    (s.modScu h (fun u => { u with clocked := r })).setBit Reg.GLB_ISLAND_STAT (8 + h.val) r) s
  forActs (fun a s =>
    let r := on && s.hasAct a
    (s.modAcu a (fun u => { u with clocked := r })).setBit Reg.GLB_ISLAND_STAT (16 + a.val) r) s1

/-! ### The boot directory as registers show it (R348) -/

def showDir (s : State) : State :=
  let prev := match s.dirNow with | some d => if d.prevOk then d.prevVer else 0 | none => 0
  s.setReg Reg.GLB_IMG_PREV (BitVec.ofNat 32 prev)

/-- PREV_OK of the directory in use; with no valid copy, 1. -/
def State.prevOk (s : State) : Bool := match s.dirNow with | some d => d.prevOk | none => true

/-- Mode pages of the run-time region (R361): the newest complete set of each. -/
def loadModes (s : State) : State :=
  let keys := (s.journalEntries.filter (fun e => e.kind == 0 && e.part == 0)).map (fun e => (e.lu, e.page, e.sub))
  keys.foldl (fun s k => match journalGet s.journalEntries 0 k.1 k.2.1 k.2.2 with
    | some l => s.modIntake (fun i => { i with modes := aset i.modes (modeKey k.1 k.2.1 k.2.2) l })
    | none => s) s

/-! ### An image in force (R338, R359, R360) -/

/-- The image is in force (R355, R365 row 4). -/
def inForce (f : ImageFile) (slot : Nat) (s : State) : State :=
  let s1 := { s with img := some f, cand := none, loader := .idle }
  let s2 := (s1.setB Reg.GLB_IMG_STAT Fld.GLB_IMG_STAT_LOADED true).setF Reg.GLB_IMG_STAT Fld.GLB_IMG_STAT_SLOT slot
  let s3 := (s2.setB Reg.GLB_IMG_STAT Fld.GLB_IMG_STAT_FALLBACK (slot != s.activeSlot)).setReg Reg.GLB_IMG_VER f.version
  showDir (s3.setF Reg.INT_CTX_FMT Fld.INT_CTX_FMT_FMT f.ctxFmt)

/-- IMAGE is ready: the Creel builds its lists (R247). -/
def imageReady (s : State) : State :=
  creelReady (rebuildAll (allFree (s.setB Reg.GLB_READY Fld.GLB_READY_IMAGE true)))

/-- The motion domain of h has been cleared since an image last filled it: its stores are empty. -/
def State.motionEmpty (s : State) (h : Hda) : Bool := s.jq[scuStore h].active.isNone && s.jq[acuStore (lowAct h)].active.isNone

/-- The apply pass at power-on and at a loader restart. `fresh` says that no image was in force; a motion domain takes its values where it
is empty, and keeps them where it has run on (R360). -/
def applyImage (f : ImageFile) (slot : Nat) (fills : List BankCheck) (fresh : Bool) (s : State) : State :=
  let empty := allHdas.filter (fun h => fresh || s.motionEmpty h)
  let s1 := applyFirst f s
  let s2 := clockShed s1
  let s3 := if fresh then fillAll f fills s2 else restartStores f fills s2
  let s4 := match shuttleOf f.recs with | some p => showPrograms (putPrograms s3.shu.bank p s3) | none => showPrograms s3
  let s5 := applyRest f s4
  let s6 := empty.foldl (fun s h => applyMotion f.recs h s) s5
  refreshUst (imageReady (loadModes (inForce f slot s6)))

end Sys2Proof.Machine
end

