-- ==== Sys2Proof/Machine/ImageRows.lean ====
section
/-! DEFINITION. The commands of chapter 18: the two passes of the loader, the staging slot, the boot directory, the run-time journal, and
firmware activation (R212 to R214). -/

namespace Sys2Proof.Machine

/-! ### Power-on and restart (R355, R356, R359) -/

/-- LOADER_START: once HBM is ready, the loader rebuilds the shadows of the stores that run (R168), and reads the slot that ACTIVE names. -/
def loaderStart (s : State) : State :=
  if s.loomRuns && s.bitF Reg.GLB_READY Fld.GLB_READY_HBM && !s.bitF Reg.GLB_READY Fld.GLB_READY_IMAGE && s.loader = .idle then
    showDir { rebuildShadows s with loader := .checking (if s.getF Reg.GLB_RST_CAUSE Fld.GLB_RST_CAUSE_LAST = 0 then .powerOn else .restart) s.activeSlot }
  else s

def execLoaderStart (s : State) : Host.Outcome State Fault Refusal := .next (loaderStart s)

/-- What follows a refusal (R356): at power-on the other slot, once, where PREV_OK allows it, and then nothing; at a restart the image in
force stays, and its values are put back into the domains that were reset. -/
def afterRefusal (w : LoadWhen) (slot : Nat) (fills : List BankCheck) (s : State) : State :=
  let s0 := { s with cand := none }
  match w with
  | .powerOn =>
    if slot = s0.activeSlot ∧ s0.prevOk = true then { s0 with loader := .checking .powerOn (1 - slot) } else { s0 with loader := .stopped }
  | .restart => match s0.img with
    | some f => applyImage f (s0.getF Reg.GLB_IMG_STAT Fld.GLB_IMG_STAT_SLOT) fills false s0
    | none => { s0 with loader := .stopped }
  | .activation => { s0 with loader := .idle }

/-- IMAGE_CHECK_PASS_DONE. -/
def checkPassDone (f : ImageFile) (fills : List BankCheck) (s : State) : State :=
  match s.loader with
  | .checking .activation _ => s
  | .checking w slot => match s.checkImage f with
    | some r => afterRefusal w slot fills (showRefusal w r s)
    | none => { s with loader := .applying w slot, cand := some f }
  | _ => s

def execImageCheckPassDone (f : ImagePass) (s : State) : Host.Outcome State Fault Refusal := .next (checkPassDone f.file f.fills s)

/-- The first record whose RCRC does not match when it is read again. -/
def firstBad : List Bool → Nat → Option Nat
  | [], _ => none
  | b :: t, n => if b then firstBad t (n + 1) else some n

/-- IMAGE_APPLY_PASS_DONE: a mismatch discards every value applied, so nothing of the image takes effect. -/
def applyPassDone (recheck : List Bool) (fills : List BankCheck) (s : State) : State :=
  match s.loader, s.cand with
  | .applying w slot, some f => match firstBad (recheck.take f.recs.length) 0 with
    | some n => afterRefusal w slot fills (showRefusal w ⟨4, n, recOffset f.recs n + 12⟩ s)
    | none => applyImage f slot fills s.img.isNone s
  | _, _ => s

def execImageApplyPassDone (recheck : List Bool) (fills : List BankCheck) (s : State) : Host.Outcome State Fault Refusal :=
  .next (applyPassDone recheck fills s)

/-! ### The staging slot and the directory (R357, R358) -/

/-- A WRITE BUFFER that waits for the erase. -/
def Ctx.downloads (x : Ctx) : Bool := x.op == 0x3B && x.sa == 0x0D && x.state == .media

/-- STAGING_ERASE_DONE: the waiting bytes are programmed, and the writes that waited end. -/
def stagingErased (s : State) : State :=
  if s.staging.erasing then
    let host := s.staging.holder == some Writer.host
    let s1 := { s with
      flash := programFlash s.flash (slotBase s.stagingSlot) (s.staging.waiting.getD [])
      staging := { s.staging with erasing := false, waiting := none } }
    let how : How := if host then .good else .check (sense keyIllegal 0x2C 0x00)
    settleAll ((s1.inOrder.filter (fun e => e.2.downloads)).map (fun e => Todo.fin e.1 how)) s1
  else s

def execStagingEraseDone (s : State) : Host.Outcome State Fault Refusal := .next (stagingErased s)

/-- DIRECTORY_UPDATE_DONE: copy B, then copy A. -/
def directoryDone (s : State) : State :=
  match s.dirDue with
  | none => s
  | some d => showDir ({ s with dirB := dirBytes d, dirA := dirBytes d, dirDue := none }.setB Reg.GLB_IMG_STAT Fld.GLB_IMG_STAT_DIR_PEND false)

def execDirectoryUpdateDone (s : State) : Host.Outcome State Fault Refusal := .next (directoryDone s)

/-! ### The journal (R361, R393) -/

/-- Entries of one half of the region. -/
def halfEntries : Nat := 2 ^ 21 / 64

/-- An anchor command's entry is written (R392): its result is Done, and a removal ends the sessions that rest on the anchor. -/
def anchorDone (s : State) : State :=
  match s.mgmt.anchorJob with
  | none => s
  | some j =>
    let s1 := { s with mgmt := { s.mgmt with anchorJob := none } }
    let s2 := (s1.setB Reg.PROT_ANCHOR_CMD Fld.PROT_ANCHOR_CMD_BUSY false).setF Reg.PROT_ANCHOR_CMD Fld.PROT_ANCHOR_CMD_RESULT 1
    if j.digest.isEmpty then
      { s2 with sess := s2.sess.map (fun e =>
        if e.phase = .opened ∧ e.anchored = true ∧ e.role.rank = j.role ∧ e.slot = j.slot then { e with phase := .closed } else e) }
    else s2

/-- CLAIMED follows the live anchors (R386). -/
def State.anchorAt (s : State) (role slot : Nat) : Option (List Byte) :=
  match journalGet s.journalEntries 1 0 0xF0 (role * 4 + slot) with
  | some l => if l.isEmpty then none else some l
  | none => none

def State.keeperAnchors (s : State) : Nat := (List.range 4).countP (fun i => (s.anchorAt 3 i).isSome)

def showClaimed (s : State) : State := s.setB Reg.PROT_CFG Fld.PROT_CFG_CLAIMED (decide (0 < s.keeperAnchors))

/-- JOURNAL_ENTRY_DONE: the VALID byte of the oldest waiting entry is written; what waited for it goes on. -/
def journalEntryDone (s : State) : State :=
  match s.jpend with
  | [] => s
  | e :: t =>
    if halfEntries ≤ s.journal.length then s else
    let s1 := { s with journal := s.journal ++ [entryBytes e], jpend := t }
    let due := s1.jwait.filter (fun w => w.1 == e.seq)
    let s2 := showClaimed { s1 with jwait := s1.jwait.filter (fun w => w.1 != e.seq) }
    due.foldl (fun s w => match w.2 with
      | .ctx c => finish1 c .good s
      | .anchor => anchorDone s) s2

def execJournalEntryDone (s : State) : Host.Outcome State Fault Refusal := .next (journalEntryDone s)

/-- An entry belongs to the newest complete set of its key. -/
def liveEntry (l : List JEntry) (e : JEntry) : Bool :=
  let es := l.filter (fun x => x.kind == e.kind && x.lu == e.lu && x.page == e.page && x.sub == e.sub)
  let heads := es.filter (fun x => x.part == 0 &&
    (List.range x.parts).all (fun i => es.any (fun y => y.part == i && y.parts == x.parts && y.seq == x.seq + i)))
  let top := heads.foldl (fun n x => max n x.seq) 0
  heads.any (fun x => x.seq == top && x.seq + e.part == e.seq && decide (e.part < x.parts))

/-- The 64-byte entries that are live, and of them those that `p` accepts. -/
def liveEntries (p : JEntry → Bool) (l : List (List Byte)) : List (List Byte) :=
  let es := l.filterMap entryOf
  l.filter (fun b => match entryOf b with | some e => p e && liveEntry es e | none => false)

/-- JOURNAL_COMPACT: a full half's live entries are copied into the other half, and the full half is erased. -/
def execJournalCompact (s : State) : Host.Outcome State Fault Refusal :=
  .next (if halfEntries ≤ s.journal.length then { s with journal := liveEntries (fun _ => true) s.journal } else s)

/-! ### Activation (R212 to R214) -/

def State.actPhase (s : State) : Nat := s.getF Reg.INT_ACT_STAT Fld.INT_ACT_STAT_PHASE
def setActPhase (n : Nat) (s : State) : State := s.setF Reg.INT_ACT_STAT Fld.INT_ACT_STAT_PHASE n

/-- The activating command's context. -/
def State.activator (s : State) : Option Nat := match s.intake.actBy with | some (.ctx c) => some c | _ => none

/-- Held commands are released in effective order. -/
def releaseHeld (s : State) : State :=
  let s1 := s.modIntake (fun i => { i with ctxs := i.ctxs.map (fun e => (e.1, { e.2 with heldFlag := false })) })
  showHeld (settleAll (s1.inOrder.map (fun e => Todo.go e.1)) s1)

/-- The activation ends, its PHASE 4 passed through in this step (log entry 48): the activating command with `how`, every nexus but its own with a unit attention where there is one. -/
def endActivation (how : How) (ua : Option (Nat × Nat)) (s : State) : State :=
  let me := match s.activator with | some c => (s.ctx? c).map (fun x => x.init) | none => none
  let s1 := match ua with
    | some (asc, ascq) => s.cfg.lus.foldl (fun s l => addUaAll (fun i => some i != me) l.lu asc ascq s) s
    | none => s
  let s2 := releaseHeld (setActPhase 0 s1)
  match s2.activator with
  | some c => finish1 c how (s2.modIntake (fun i => { i with actBy := none }))
  | none => s2.modIntake (fun i => { i with actBy := none })

/-- A command other than the activating one has begun and not ended. -/
def State.stillBegun (s : State) : Bool :=
  s.intake.ctxs.any (fun e => e.2.state.begun && e.2.state != .linger && decide (e.2.port < 2) && some e.1 != s.activator)

/-- ACTIVATION_QUIESCE_DONE: step 3 begins. -/
def quiesceDone (s : State) : State :=
  if s.actPhase = 1 ∧ s.stillBegun = false ∧ s.loader = .idle then
    (setActPhase 2 { s with loader := .checking .activation s.stagingSlot }).modIntake (fun i => { i with verifyFrom := i.nextSeq })
  else s

def execActivationQuiesceDone (s : State) : Host.Outcome State Fault Refusal := .next (quiesceDone s)

/-- ACTIVATION_QUIESCE_TIMEOUT: the activation is abandoned. -/
def execActivationQuiesceTimeout (s : State) : Host.Outcome State Fault Refusal :=
  .next (if s.actPhase = 1 then endActivation (.check (sense keyAborted 0x2C 0x00)) none s else s)

/-- An ACTIVATION record (R414): the version in force before, the image's version, and the result (log entry 18). -/
def activationRecord (old new result : Nat) (s : State) : State :=
  recordNow 0x0009 (leBytes 4 old ++ leBytes 4 new ++ leBytes 1 result) s

/-- R214: a new Context Store format ends every command held before step 3. -/
def abortHeld (s : State) : State :=
  let l := s.inOrder.filter (fun e => e.2.heldFlag && decide (e.2.adm < s.intake.verifyFrom) && some e.1 != s.activator)
  showHeld (settleAll (l.map (fun e => Todo.fin e.1 (.check (sense keyAborted 0x84 0x00))))
    (s.setB Reg.INT_ACT_STAT Fld.INT_ACT_STAT_HELD_ABORTED true))

/-- The COMMAND frame of a context. -/
def Ctx.asFrame (x : Ctx) : CmdFrame :=
  { port := Fin.ofNat 2 x.port, init := Fin.ofNat 2048 x.init, tag := BitVec.ofNat 16 x.tag
    lun := if x.lu < 256 then [0#8, BitVec.ofNat 8 x.lu] ++ zeros 6 else beBytes 8 (x.lu / 256 - 1)
    attr := x.attr, addLen := 0, cdb := x.cdb, param := x.param }

/-- R214: with a new Context Store format, what arrived in step 3 gives back the context it holds and waits to be admitted after the swap. -/
def withdrawHeld (s : State) : State :=
  let l := (s.intake.ctxs.filter (fun e => e.2.heldFlag && decide (s.intake.verifyFrom ≤ e.2.adm) && decide (e.2.port < 2) && some e.1 != s.activator)).mergeSort
    (fun a b => decide (a.2.adm ≤ b.2.adm))
  let s1 := l.foldl (fun s e => freeContext e.1 (returnBobs e.2 [] s)) s
  showAdmq (showHeld (s1.modIntake (fun i => { i with admq := (l.map (fun e => (⟨e.2.asFrame, e.2.admitT, e.2.cls == 1⟩ : Waiting)) ++ i.admq).mergeSort (fun a b => decide (a.arrived ≤ b.arrived)) })))

/-- Verification fails (R164, R213): no store stays staged. -/
def verifyFailed (ver : Nat) (r : Refused) (s : State) : State :=
  let s0 := activationRecord (s.reg Reg.GLB_IMG_VER).toNat ver 3 s
  let s1 := { s0 with loader := .idle, cand := none, jq := s0.jq.map (fun t => { t with stgValid := false, armed := false, waitIdle := false }) }
  let s2 := (showRefusal .activation r s1).modIntake (fun i => { i with armAgain := false })
  endActivation (.check (sense keyIllegal 0x26 0x00)) (some (0x84, 0x01)) (s2.setF Reg.INT_ACT_STAT Fld.INT_ACT_STAT_RESULT 3)

/-- ACTIVATION_VERIFY_DONE: the stores and the idle program bank take the image, and activation is armed. -/
def verifyDone (f : ImageFile) (fills : List BankCheck) (s : State) : State :=
  match s.loader with
  | .checking .activation _ => match s.checkImage f with
    | some r => verifyFailed f.version.toNat r s
    | none =>
      let s1 := stageAll f fills { s with loader := .idle, cand := some f }
      let s2 := match shuttleOf f.recs with | some p => putPrograms (!s1.shu.bank) p s1 | none => s1
      let s3 := if f.ctxFmt = s2.getF Reg.INT_CTX_FMT Fld.INT_CTX_FMT_FMT then s2 else abortHeld (withdrawHeld s2)
      armStores (setActPhase 3 (checkpoint s3))
  | _ => s

def execActivationVerifyDone (f : ImageFile) (fills : List BankCheck) (s : State) : Host.Outcome State Fault Refusal :=
  .next (verifyDone f fills s)

/-- A new run-time format erases the mode pages at the swap; anchors and administrative states are carried across (R361, R393). -/
def newRtFmt (f : ImageFile) (s : State) : State :=
  match s.img with
  | some g =>
    if g.rtFmt = f.rtFmt then s else
    ({ s with journal := liveEntries (fun e => e.kind != 0) s.journal, intake := { s.intake with modes := [] } }).setB
      Reg.GLB_IMG_STAT Fld.GLB_IMG_STAT_RT_RESET true
  | none => s

/-- The run-time tables are swapped (step 4 of R212, R263, R360). -/
def swapTables (f : ImageFile) (s : State) : State :=
  let old := (List.range 64).map (fun p => (s.listBase p, s.listSize p))
  let res := s.getF Reg.CREEL_RES Fld.CREEL_RES_SIZE
  let s1 := clockShed (movePools old res (applyFirst f s))
  let s2 := match shuttleOf f.recs with | some _ => showPrograms { s1 with shu := { s1.shu with bank := !s1.shu.bank } } | none => s1
  newRtFmt f (applyMotionAll f (applyRest f s2))

/-- The directory update that follows the swap (R358). -/
def nextDir (f : ImageFile) (slot : Nat) (s : State) : State :=
  let d : BootDir := match s.dirNow with
    | some d => ⟨d.gen + 1, slot, true, f.version.toNat, d.actVer⟩
    | none => ⟨1, slot, true, f.version.toNat, (s.reg Reg.GLB_IMG_VER).toNat⟩
  { s with dirDue := some d }.setB Reg.GLB_IMG_STAT Fld.GLB_IMG_STAT_DIR_PEND true

/-- ACTIVATION_SWAP_DONE: every armed store has swapped or timed out. -/
def swapDone (s : State) : State :=
  match s.cand with
  | none => s
  | some f =>
    if s.actPhase = 3 ∧ s.bitF Reg.JQ_ACT Fld.JQ_ACT_BUSY = false then
      let slot := s.stagingSlot
      let part := s.jqLeft
      let s0 := activationRecord (s.reg Reg.GLB_IMG_VER).toNat f.version.toNat (if part then 2 else 1) s
      let s1 := nextDir f slot (swapTables f s0)
      let s2 := { inForce f slot s1 with staging := ⟨none, false, 0, none⟩ }.setB Reg.GLB_IMG_STAT Fld.GLB_IMG_STAT_STG_BUSY false
      let s3 := (s2.modIntake (fun i => { i with armAgain := part })).setF Reg.INT_ACT_STAT Fld.INT_ACT_STAT_RESULT (if part then 2 else 1)
      refreshUst (endActivation .good (some (0x3F, 0x01)) s3)
    else s

def execActivationSwapDone (s : State) : Host.Outcome State Fault Refusal := .next (swapDone s)

end Sys2Proof.Machine
end

