-- ==== Sys2Proof/Machine/PowerOps.lean ====
section
/-! DEFINITION. Shared operations of chapter 19: what each reset domain clears (R370), what a start of the Loom restores (R386, R393,
R397), and the latch of the standby island (R379). -/

namespace Sys2Proof.Machine

/-! ### Domains (R370) -/

/-- The domain of the register at an address of the space. The Global block, the timestamp, ER_LOST and ER_SEQ are cleared by power-on
only. -/
def addrDomain (a : Nat) : Domain :=
  if a < 0x10000 then .glb
  else if a = Reg.ER_TIME_LO ∨ a = Reg.ER_TIME_HI ∨ a = Reg.ER_LOST ∨ a = Reg.ER_SEQ then .glb
  else if a = Reg.CIP_KEY_STAT then .key
  else if a < 0xC0000 then .loom
  else if a < 0x200000 then .harness
  else if a < 0x300000 then (if a % 0x10000 < 0x200 then .motion else .harness)
  else if a < 0x400000 then .motion
  else .loom

/-- Put every register whose key `p` accepts back to its reset value. -/
def resetKeys (p : Nat → Bool) (s : State) : State :=
  { s with regs := (resetRegs.filter (fun e => p e.1)).foldl (fun m e => sset 0#32 m e.1 e.2) (sdrop p s.regs) }

/-- Keys that a reset of the data path clears. The severities that motion units hold copies of stay, as do the FAILED bits of their
stores, HBM3's own status, and the remap table of macro 202. -/
def dataPathKey (k : Nat) : Bool :=
  let a := keyAddr k
  (match addrDomain a with | .loom => true | .harness => true | _ => false)
    && a != Reg.FLT_SEV && a != Reg.JQ_FAIL_LO && a != Reg.JQ_FAIL_HI && a != Reg.CREEL_HBM
    && !(decide (Reg.HED_REMAP 0 ≤ a) && decide (a ≤ Reg.HED_REMAP 7) && k / 0x1000000 == 203)

/-- Sources that a Shed unit raises: what it has raised is collected when the Loom restarts (R338, R372). -/
def motionSource (src : Nat) : Bool :=
  if src < 0x80 then [1, 2, 3, 4].contains (src % 8) else decide (src ≤ 0xAA) || src == 0xB8

/-- Crossings with an end in the Loom, the Harness or a channel island (R14). Those between Shed islands stay. -/
def dataCrossing : Crossing → Bool
  | .scuAcu _ _ => false
  | _ => true

/-- The Jacquard stores over a reset of the data path: the framer stores are emptied, the others keep what they run; nothing stays staged
(R168, R370). -/
def storesOver (s : State) : Vector Store 64 :=
  Vector.ofFn (fun q : Fin 64 =>
    if q.val < 16 then storeReset else { s.jq[q] with staging := none, stgValid := false, armed := false, waitIdle := false })

/-- The recorder over a reset: what is not marked valid is cut off (R417). -/
def recorderOver (r : Recorder) : Recorder :=
  { r with accepting := false, buf := [], lostNow := 0, snaps := [], running := none, erasing := [], clearing := none }

/-- Zones over a reset: what lies in HBM3 and on the media stays. -/
def zonesOver (z : Zones) : Zones :=
  { zonesReset with
    surfaces := z.surfaces, saved := z.saved, lease := z.lease, savedWp := z.savedWp, defTop := z.defTop, lastW := z.lastW
    wiping := z.wiping, formats := z.formats }

/-- Conditions over a reset of the data path: Failed units stay as they are, Degrade sources are pending no more (R345, R371). -/
def ownOver (l : List (Nat × Nat)) : List (Nat × Nat) :=
  ((l.filter (fun e => e.1 < 4096)).map (fun e => if e.1 < 1024 then (e.1, e.2 - (e.2 &&& (cDegraded + cBecoming))) else e)).filter (fun e => e.2 != 0)

/-- Power and start over a reset: bring-up is halted, and an actuator that was not Ready reads its tables again (R373). -/
def powerOver (s : State) : Power :=
  let p := s.power
  { p with
    buRun := Vector.replicate 8 false, buDue := none, portsOn := false, errnLow := false
    tables := Vector.ofFn (fun a : Act => p.tables[a] && (match s.ownState .act a.val with | .ready => true | .degraded => true | _ => false)) }

/-- Records that wait to be marked valid: those in the buffer and those that wait for their snapshot. -/
def State.unmarked (s : State) : Nat := s.rcd.buf.length + s.rcd.snaps.length + (if s.rcd.running.isSome then 1 else 0)

/-- A reset of the Loom, the Harness and the channel islands (R370 to R372). An SCU then sees no warp channel locked (R14); the counts behind log
pages run from power-on (R186). -/
def resetDataPath (s : State) : State :=
  let s1 := forActs (fun a s => discardCal a (releaseGate a s)) s
  let s2 : State := { resetKeys dataPathKey s1 with
    power := powerOver s
    chan := Vector.replicate 16 chanReset
    retry := Vector.replicate 4 none
    retryTurn := 0
    cross := s1.cross.filter (fun e => !dataCrossing e.1)
    raised := (s1.raised.filter (fun r => motionSource r.src)).map (fun r => { r with late := true, again := false })
    applied := []
    own := ownOver s1.own
    rcd := recorderOver s1.rcd
    sess := Vector.replicate 4 sessReset
    drains := []
    jpend := []
    jwait := []
    dirDue := none
    staging := ⟨none, false, 0, none⟩
    loader := .idle
    cand := none
    jq := storesOver s1
    jqLeft := false
    hed := ⟨s1.hed.damage.filter (fun d => d.1 / 8192 == 202), [], [], 0, [], none⟩
    creel := creelReset
    shu := shuReset
    cip := cipReset s1.cip.keys
    zones := zonesOver s1.zones
    intake := { intakeReset with sent := s1.intake.sent, logs := s1.intake.logs }
    scu := s1.scu.map (fun u => { u with lockLow := false, lockHigh := false })
    sch := Vector.replicate 16 schReset
    cal := Vector.replicate 8 calReset
    mgmt := { endpointReset s1.mgmt.svnMin s1.mgmt.revoked with sent := s1.mgmt.sent, claimOpen := s1.mgmt.claimOpen } }
  let s3 := s2.setReg Reg.JQ_FAIL_LO (BitVec.ofNat 32 ((s2.reg Reg.JQ_FAIL_LO).toNat / 65536 * 65536))
  let s4 := (s3.setReg Reg.GLB_WARP_LOCK 0#32).setReg Reg.GLB_READY (BitVec.ofNat 32 (s3.getF Reg.GLB_READY ⟨2, 1⟩ * 2))
  let s5 := (s4.setB Reg.GLB_IMG_STAT Fld.GLB_IMG_STAT_DIR_PEND false).setB Reg.GLB_IMG_STAT Fld.GLB_IMG_STAT_STG_BUSY false
  let s6 := (s5.setF Reg.ER_LOST Fld.ER_LOST_PENDING (min 65535 (max s.unmarked (s.getF Reg.ER_LOST Fld.ER_LOST_PENDING))))
  forActs (fun a s => setPhase a 0 s) s6

/-- An ACU in LOADING without servo lock parks at once, with CAUSE 1 (R14, R372). -/
def parkLoading (a : Act) (s : State) : State :=
  if s.acu[a].state = .loading ∧ !s.acu[a].servoLock then triggerPark a 1 s else s

/-- The contents of HBM3 are lost (R370). -/
def loseHbm (s : State) : State :=
  let s1 : State := { s with
    hbm := []
    zones := { s.zones with surfaces := [], defTop := 0, lease := [], savedWp := [], lastW := [] } }
  (s1.setReg Reg.CREEL_HBM 0#32).modPower (fun p => { p with tables := Vector.replicate 16 false, hbmRefresh := 0 })

/-- The key domain is cleared (R301, R378). -/
def loseKeys (s : State) : State :=
  resetKeys (fun k => keyAddr k == Reg.CIP_KEY_STAT || (decide (Reg.HED_REMAP 0 ≤ keyAddr k) && decide (keyAddr k ≤ Reg.HED_REMAP 7) && k / 0x1000000 == 203))
    { s with cip := { s.cip with keys := [] }, hed := { s.hed with damage := s.hed.damage.filter (fun d => d.1 / 8192 != 202) } }

/-- Registers of the motion domain of h. -/
def motionKey (h : Hda) (k : Nat) : Bool :=
  let a := keyAddr k
  addrDomain a == .motion && (if a < 0x300000 then (a - 0x200000) / 0x20000 == h.val else (a - 0x300000) / 0x10000 == h.val)

/-- Crossings with an end in the motion domain of h. -/
def motionCrossing (h : Hda) : Crossing → Bool
  | .loomShed u _ | .harnessShed u _ => (match u with | .acu a => hdaOf a == h | .scu k => k == h)
  | .acuChan a _ | .scuAcu a _ | .chanScu a => hdaOf a == h
  | _ => false

/-- The six stores of an HDA's motion domain (R370). -/
def motionStores (h : Hda) : List (Fin 64) :=
  [wedgeStore (lowAct h), wedgeStore (highAct h), acuStore (lowAct h), acuStore (highAct h), sampleStore h, scuStore h]

/-- The motion domain of h is cleared: SCU[h] in STOPPED, both ACUs in RAMP, its stores empty. -/
def resetMotion (h : Hda) (s : State) : State :=
  let s1 := discardCal (highAct h) (discardCal (lowAct h) (releaseGate (highAct h) (releaseGate (lowAct h) s)))
  let s2 := (motionStores h).foldl (fun s q => setFailed q false (s.modStore q (fun _ => storeReset))) (resetKeys (motionKey h) s1)
  let s3 := ((s2.modAcu (lowAct h) (fun _ => acuReset)).modAcu (highAct h) (fun _ => acuReset)).modScu h (fun _ => scuReset)
  let s4 := (s3.clearCross (motionCrossing h)).setBit Reg.FLT_STOP h.val false
  let units := [(lowAct h).val, (highAct h).val, 16 + h.val]
  { s4 with calRef := s4.calRef.filter (fun e => !units.contains (e.1 / 8)) }.modPower (fun p => { p with
    mot := p.mot.set h none
    placed := p.placed.set h false
    hdaStop := p.hdaStop.set h false
    stopWait := (p.stopWait.set (lowAct h) false).set (highAct h) false })

/-- The motion domain of h takes the image in force (R360, R374 steps 4 and 5). -/
def loadMotion (h : Hda) (fills : List BankCheck) (s : State) : State :=
  match s.img with
  | none => clockShed s
  | some f =>
    let s1 := (motionStores h).foldl (fun s q => match progOf f.recs q.val with
      | some p => if s.storeUsed q then fillActive fills q p s else s
      | none => s) (clockShed s)
    refreshWiHda h (applyMotion f.recs h s1)

/-! ### A start of the Loom (R346, R386, R393, R397, R438) -/

/-- Administrative states and generations that the journal keeps. -/
def restoreUnits (s : State) : State :=
  let keys := ((s.journalEntries.filter (fun e => e.kind == 2 && e.part == 0)).map (fun e => (e.page, e.sub))).eraseDups
  keys.foldl (fun s k => match journalGet s.journalEntries 2 0 k.1 k.2 with
    | some [t, g0, g1] =>
      let kind : Option UnitKind := match k.1 with | 0 => some .lu | 1 => some .act | 2 => some .hda | _ => none
      match kind with
      | some u =>
        let key := ustKey u k.2
        let s1 := (s.setF key Fld.UST_LU_ADM t.toNat).setF key Fld.UST_LU_GEN ((leNat [g0, g1] + 4096) % 65536)
        if t = 2#8 ∧ u ≠ .lu then addCond u k.2 cStopped s1 else s1
      | none => s
    | _ => s) s

/-- Every actuator and every HDA is Becoming Ready until its bring-up ends (R366). -/
def becomeAll (s : State) : State :=
  forHdas (fun h s => addCond .hda h.val cBecoming s) (forActs (fun a s => addCond .act a.val cBecoming s) s)

/-- What every start of the Loom does: the anchors and the administrative states come from the journal, and MGMT is ready. -/
def startLoom (s : State) : State :=
  let s1 := s.modPower (fun p => { p with phase := .run, soft := false })
  restoreUnits (showClaimed (becomeAll (s1.setB Reg.GLB_READY Fld.GLB_READY_MGMT true)))

/-! ### The standby island (R379, R433) -/

/-- A power-good input falls; FIRST keeps the one that fell first. -/
def noteFall (n : Nat) (s : State) : State :=
  s.modPower (fun p => { p with firstFell := match p.firstFell with | some k => some k | none => some n })

/-- With every input high again, nothing has fallen. -/
def noteRise (s : State) : State :=
  if s.power.mainHi && s.power.motHi && s.power.mbusHi then s.modPower (fun p => { p with firstFell := none }) else s

/-- The write gate of actuator a was asserted within 1 µs of now. -/
def State.wroteNow (s : State) (a : Act) : Bool := s.chan[a].gate || (decide (0 < s.chan[a].lastGate) && decide (s.now ≤ s.chan[a].lastGate + 1))

/-- The record that a fall of PG_MAIN latches; it is called with the levels as they are at the latch. -/
def State.gasp (s : State) : LastGasp :=
  { fell := b2n (!s.power.mainHi) + 2 * b2n (!s.power.motHi) + 4 * b2n (!s.power.mbusHi)
    first := s.power.firstFell.getD 0
    time := s.stamp
    acu := allActs.map (fun a => s.acu[a].state.code)
    scu := allHdas.map (fun h => min 10 s.scu[h].state.code)
    writing := allActs.foldl (fun n a => n + 2 ^ a.val * b2n (s.wroteNow a)) 0 }

/-- Nibbles, the first lowest. -/
def nibbles : List Nat → Nat
  | [] => 0
  | x :: t => x % 16 + 16 * nibbles t

/-- The 32 bytes of a last-gasp record. -/
def lgBytes (g : LastGasp) : List Byte :=
  let b := leBytes 2 0x474C ++ leBytes 1 g.fell ++ leBytes 1 g.first ++ leBytes 8 g.time ++ leBytes 8 (nibbles g.acu) ++ leBytes 4 (nibbles g.scu)
    ++ leBytes 2 g.writing ++ zeros 2
  b ++ leBytes 4 (crc32c b).toNat

/-- GLB_STBY_STAT, GLB_STBY_OFF and GLB_LG show what the island held at release. -/
def showStandby (p : Power) (s : State) : State :=
  let lg := if p.stbyValid then p.lg else none
  let s1 := (s.setB Reg.GLB_STBY_STAT Fld.GLB_STBY_STAT_VALID p.stbyValid).setB Reg.GLB_STBY_STAT Fld.GLB_STBY_STAT_LG_VALID lg.isSome
  let s2 := s1.setF Reg.GLB_STBY_OFF Fld.GLB_STBY_OFF_SECONDS (if p.stbyValid then p.offSecs else 0)
  match lg with
  | none => s2
  | some g => (List.range 8).foldl (fun s i => s.setReg (Reg.GLB_LG i) (BitVec.ofNat 32 (leNat (((lgBytes g).drop (4 * i)).take 4)))) s2

/-! ### The recorder at power-on (R410, R413) -/

/-- The newest record marked valid. -/
def newestRec (l : List RingSector) : Option Rec :=
  (l.flatMap (·.recs)).foldl (fun (b : Option Rec) r => match b with
    | none => some r
    | some x => if x.seq < r.seq then some r else some x) none

/-- The recorder as power-on release finds it: the ring, and a timestamp that continues from TIME with one more power cycle. -/
def recorderOn (r : Recorder) (lg : Option LastGasp) : Recorder :=
  let last := newestRec r.ring
  let t := match lg with | some g => g.time | none => match last with | some x => x.time | none => 0
  { recorderReset with
    ring := r.ring
    cycles := (t / 2 ^ 40 + 1) % 2 ^ 24
    hours := t / 2 ^ 12 % 2 ^ 28
    secs := t % 2 ^ 12
    accepting := true
    nextSeq := match last with | some x => x.seq + 1 | none => 0 }

end Sys2Proof.Machine
end

