-- ==== Sys2Proof/Machine/PowerRows.lean ====
section
/-! DEFINITION. The commands of chapter 19: power-on, readiness, bring-up, resets, power loss, the standby island. -/

namespace Sys2Proof.Machine

/-! ### Power-on and readiness (R364, R365) -/

/-- POWER_ON_RELEASE: every domain is at its reset values but the standby island; flash, the media and one-time-programmable bits keep
what they hold. `mbus` is the level of PG_MBUS. -/
def powerOnRelease (mbus : Bool) (s : State) : State :=
  if s.power.released then s else
  let p := s.power
  let lg := if p.stbyValid then p.lg else none
  let s1 : State := { State.reset with
    pending := s.pending
    now := s.now
    free := s.free
    flash := s.flash
    dirA := s.dirA
    dirB := s.dirB
    journal := s.journal
    jseq := s.jseq
    rcd := recorderOn s.rcd lg
    zones := { zonesReset with saved := s.zones.saved, wiping := s.zones.wiping, formats := s.zones.formats }
    mgmt := endpointReset s.mgmt.svnMin s.mgmt.revoked
    power := { powerReset with released := true, mainHi := true, motHi := true, mbusHi := mbus, stbyValid := true, buDue := some false } }
  let s2 := (showStandby p s1).setReg Reg.ER_SEQ (BitVec.ofNat 32 (match newestRec s.rcd.ring with | some r => r.seq | none => 0))
  let s3 := startLoom ((s2.setB Reg.GLB_PWR Fld.GLB_PWR_MBUS mbus).setB Reg.GLB_PWR Fld.GLB_PWR_MOT true)
  let open_ := decide (0 < s3.getF Reg.PROT_CFG Fld.PROT_CFG_CLAIM_WIN) && !s3.bitF Reg.PROT_CFG Fld.PROT_CFG_CLAIMED
  let s4 : State := { s3 with mgmt := { s3.mgmt with claimOpen := open_ } }
  match lg with
  | some g => recordNow 0x0002 (lgBytes g ++ leBytes 4 (s4.reg Reg.GLB_STBY_OFF).toNat) s4
  | none => s4

def execPowerOnRelease (mbus : Bool) (s : State) : Host.Outcome State Fault Refusal := .next (powerOnRelease mbus s)

/-- PLL_LOCK: the PLLs that are not locked lock, and CLOCKS is set. -/
def execPllLock (s : State) : Host.Outcome State Fault Refusal :=
  .next (if s.power.released && s.power.mainHi then
    let s1 := [Pll.harness, Pll.shed, Pll.hbm].foldl (fun s p => s.setB Reg.GLB_ISLAND_STAT (lockFld p) true) s
    clockShed (s1.setB Reg.GLB_READY Fld.GLB_READY_CLOCKS true)
  else s)

/-- HBM_TRAINED: HBM3 enters service, or training fails (R330). -/
def execHbmTrained (ok : Bool) (s : State) : Host.Outcome State Fault Refusal :=
  .next (if s.loomRuns && s.bitF Reg.GLB_READY Fld.GLB_READY_MGMT && s.bitF Reg.GLB_READY Fld.GLB_READY_CLOCKS
      && !s.bitF Reg.GLB_READY Fld.GLB_READY_HBM then
    if ok then (s.setB Reg.CREEL_HBM Fld.CREEL_HBM_READY true).setB Reg.GLB_READY Fld.GLB_READY_HBM true
    else raise 0xB5 .none (s.setB Reg.CREEL_HBM Fld.CREEL_HBM_TRAIN_FAIL true)
  else s)

/-- CIPHER_SELF_TEST_DONE: a failure raises the key-store source at Device Stop, whatever its severity. -/
def execCipherSelfTestDone (ok : Bool) (s : State) : Host.Outcome State Fault Refusal :=
  .next (if s.bitF Reg.GLB_READY Fld.GLB_READY_IMAGE && !s.bitF Reg.GLB_READY Fld.GLB_READY_CIPHER then
    if ok then
      enablePorts ({ s with cip := { s.cip with ready := true } }.setB Reg.GLB_READY Fld.GLB_READY_CIPHER true)
    else raiseAt 0xAF .none 4 s
  else s)

/-! ### Bring-up (R367 to R369) -/

/-- BRINGUP_START: the start that is due takes place; one at power-on only where AUTO is set. -/
def execBringupStart (s : State) : Host.Outcome State Fault Refusal :=
  .next (if s.mayBringup then
    match s.power.buDue with
    | some forced =>
      if forced || s.bitF Reg.GLB_BU_CFG Fld.GLB_BU_CFG_AUTO then restartAll (s.modPower (fun p => { p with buDue := none }))
      else s
    | none => s
  else s)

/-- A write of GLB_BU_CFG.START: before the ports are up, the start waits for them. -/
def buStart (s : State) : State :=
  if s.power.portsOn then
    forHdas (fun h s => if s.inMask h && !s.power.buRun[h] then beginBringup true h s else s) (s.modPower (fun p => { p with buDue := none }))
  else s.modPower (fun p => { p with buDue := some true })

/-- BU_START (R369): in a Keeper session. -/
def execBuStart (n : Fin 4) (s : State) : Host.Outcome State Fault Refusal := .next (if s.may n .keeper then buStart s else s)

/-- STAGGER_PLACE_FREE (R368): the lowest HDA that waits takes the place; no spindle starts while PG_MBUS is low (R364). -/
def execStaggerPlaceFree (s : State) : Host.Outcome State Fault Refusal :=
  .next (if s.placesUsed < s.staggerN && s.power.mbusHi then
    match allHdas.find? (fun h => s.scu[h].waitPlace && s.scu[h].state == .detect) with
    | some h => refreshUst (startFromRest h (setSpin h 2 (s.modPower (fun p => { p with placed := p.placed.set h true }))))
    | none => s
  else s)

/-- A phase of an actuator ends; a phase that has not met its end goes on. -/
def actPhaseDone (a : Act) (r : PhaseResult) (s : State) : State :=
  if !s.power.buRun[hdaOf a] then s else
  match s.phaseOf a, r with
  | 1, .failed => if s.acu[a].state.tracks || s.acu[a].state == .loading then s else failAct a s
  | 1, _ => if s.acu[a].state = .follow ∧ s.acu[a].servoLock then enterWarp a s else s
  | 2, _ => if s.chan[a].locked then enterSkew a s else s
  | 3, _ => if (s.calLeft a).isEmpty && !s.calBusy a then skewDone a s else s
  | 4, .tables l => loadTables a l s
  | 4, _ => loadTables a [] s
  | 5, .saved l forward => if s.rewriting a then s else readyAct a (loadZones a l forward s)
  | 5, _ => if s.rewriting a then s else readyAct a (loadZones a [] [] s)
  | _, _ => s

/-- BRINGUP_PHASE_DONE (R367): SPIN ends with IN_TOL. -/
def bringupPhaseDone (u : BuUnit) (r : PhaseResult) (s : State) : State :=
  match u with
  | .spin h => if s.power.buRun[h] && (s.spinOf h == 2 || s.spinOf h == 3) && s.scu[h].inTol then spinDone h s else s
  | .act a => actPhaseDone a r s

def execBringupPhaseDone (u : BuUnit) (r : PhaseResult) (s : State) : Host.Outcome State Fault Refusal := .next (bringupPhaseDone u r s)

/-- BRINGUP_WARP_TIMEOUT (R367): no lock within 16 revolutions. -/
def execBringupWarpTimeout (a : Act) (s : State) : Host.Outcome State Fault Refusal :=
  .next (if s.power.buRun[hdaOf a] && s.phaseOf a == 2 && !s.chan[a].locked then failAct a (raiseAct a 7 s) else s)

/-! ### SYS_RST_N and the soft reset (R346, R371 to R373, R433) -/

/-- The merging buffer is written out (R284). -/
def drainMerge (s : State) : State := s.zones.temple.mb.foldl (fun s _ => drainOldest s) s

/-- What qualification does: intake admits nothing more, each channel that writes finishes its sector, the merging buffer is written
out, and the recorder stops accepting records (R371, R417). -/
def qualifyReset (soft : Bool) (s : State) : State :=
  if s.loomRuns && s.power.phase == .run then
    let s1 := s.modPower (fun p => { p with phase := .qualified, soft := soft, sysLow := !soft })
    let s2 := forActs (fun a s => match s.chan[a].pass with | some p => if p.write then stopPass a s else s | none => s) s1
    let s3 := (drainMerge s2).modRcd (fun r => { r with accepting := false })
    s3.setF Reg.ER_LOST Fld.ER_LOST_PENDING (min 65535 s.unmarked)
  else if soft then s
  else s.modPower (fun p => { p with sysLow := true })

/-- SYS_RST_QUALIFY. -/
def execSysRstQualify (s : State) : Host.Outcome State Fault Refusal := .next (qualifyReset false s)

/-- SOFT_RESET: in a Keeper session. -/
def execSoftReset (n : Fin 4) (s : State) : Host.Outcome State Fault Refusal := .next (if s.may n .keeper then qualifyReset true s else s)

/-- RESET_DOMAIN_ENTER: the Loom and Harness domains enter reset. -/
def enterReset (s : State) : State :=
  if s.power.phase = .qualified then
    let s1 := resetDataPath (forActs parkLoading s)
    s1.modPower (fun p => { p with phase := .held, cause := if s.power.soft then 2 else 1 })
  else s

def execResetDomainEnter (s : State) : Host.Outcome State Fault Refusal := .next (enterReset s)

/-- SYS_RST_RELEASE. -/
def execSysRstRelease (s : State) : Host.Outcome State Fault Refusal := .next (s.modPower (fun p => { p with sysLow := false }))

/-- LOOM_RESTART: the Loom starts again, and bring-up restarts once the ports are up. -/
def loomRestart (s : State) : State :=
  if s.power.released && s.power.mainHi && !s.power.sysLow && s.power.phase == .held then
    let s1 := startLoom (s.modPower (fun p => { p with buDue := some true }))
    let s2 := (s1.setF Reg.GLB_RST_CAUSE Fld.GLB_RST_CAUSE_LAST s.power.cause).incF Reg.GLB_RST_CAUSE Fld.GLB_RST_CAUSE_COUNT
    let s3 := s2.modRcd (fun r => { r with accepting := true, nextSeq := match newestRec r.ring with | some x => x.seq + 1 | none => 0 })
    refreshUst (recordNow 0x0003 (leBytes 1 s.power.cause ++ leBytes 2 (s3.getF Reg.ER_LOST Fld.ER_LOST_PENDING)) s3)
  else s

def execLoomRestart (s : State) : Host.Outcome State Fault Refusal := .next (loomRestart s)

/-! ### Motion reset (R374) -/

/-- Every unit of the HDA is Failed, HALTED, Out of Service or in Maintenance. -/
def State.mayReset (s : State) (h : Hda) : Bool :=
  let out (k : UnitKind) (i : Nat) : Bool := s.adm k i == 2 || s.adm k i == 3
  let hda := s.ownState .hda h.val == .failed || s.scu[h].state == .halted || out .hda h.val
  s.hasHda h && hda && (s.actsIn h).all (fun a =>
    s.ownState .act a.val == .failed || s.ownState .hda h.val == .failed || s.acu[a].state == .halted || s.actOut a)

/-- MOT_BUSY follows the resets in progress, and the last of them sets the result. -/
def showMot (s : State) : State :=
  let busy := allHdas.any (fun h => s.power.mot[h].isSome)
  let s1 := s.setB Reg.GLB_RST Fld.GLB_RST_MOT_BUSY busy
  if !busy && s.getF Reg.GLB_RST Fld.GLB_RST_MOT_RESULT = 0 then s1.setF Reg.GLB_RST Fld.GLB_RST_MOT_RESULT 1 else s1

/-- A write of MOT_GO: each HDA named is refused, or its actuators park with CAUSE 6. -/
def motionGo (s : State) : State :=
  if s.bitF Reg.GLB_RST Fld.GLB_RST_MOT_BUSY then s else
  let named := allHdas.filter (fun h => s.getF Reg.GLB_RST Fld.GLB_RST_MOT_HDA / 2 ^ h.val % 2 == 1)
  let ok (h : Hda) : Bool := s.actPhase == 0 && s.mayReset h
  let s1 := s.setF Reg.GLB_RST Fld.GLB_RST_MOT_RESULT (if named.all ok then 0 else 2)
  showMot ((named.filter ok).foldl (fun s h =>
    triggerPark (highAct h) 6 (triggerPark (lowAct h) 6 (s.modPower (fun p => { p with mot := p.mot.set h (some .parking) })))) s1)

/-- MOTION_RESET: in a Keeper session. -/
def execMotionReset (n : Fin 4) (s : State) : Host.Outcome State Fault Refusal := .next (if s.may n .keeper then motionGo s else s)

/-- MOTION_RESET_GATES_OFF: both actuators are down, or PARK_TMO has passed; the spindle coasts and the domain is held in reset. -/
def execMotionResetGatesOff (h : Hda) (s : State) : Host.Outcome State Fault Refusal :=
  .next (if s.power.mot[h] = some .parking then
    let off : Acu → Acu := fun u => { u with gatesOn := false }
    let s1 := ((s.modAcu (lowAct h) off).modAcu (highAct h) off).modPower (fun p => { p with mot := p.mot.set h (some .held) })
    if s1.scu[h].state = .halted then s1 else scuCoast h s1
  else s)

/-- MOTION_RESET_DONE: the domain is cleared and loaded again; with AUTO set, bring-up of h starts. -/
def motionResetDone (h : Hda) (fills : List BankCheck) (s : State) : State :=
  if s.power.mot[h] = some .held then
    let s1 := (loadMotion h fills (resetMotion h s)).setBit Reg.GLB_RST_CAUSE (8 + h.val) true
    let s2 := showMot s1
    let auto := s2.bitF Reg.GLB_BU_CFG Fld.GLB_BU_CFG_AUTO && s2.power.portsOn
    refreshUst (if auto then restartBringup true h s2 else s2)
  else s

def execMotionResetDone (h : DomainLoad) (s : State) : Host.Outcome State Fault Refusal := .next (motionResetDone h.hda h.fills s)

/-! ### Power loss (R362, R375 to R378) -/

/-- PG_MAIN_FALL: gates released, the last-gasp record latched, the data path in reset, every actuator parking with CAUSE 4. -/
def mainFall (s : State) : State :=
  if !s.power.mainHi then s else
  let s1 := noteFall 0 (s.modPower (fun p => { p with mainHi := false, offSecs := 0 }))
  let s2 := s1.modPower (fun p => { p with lg := some s1.gasp })
  if !s2.power.released then s2 else
  let s3 := loseKeys (loseHbm (resetDataPath (forActs (fun a s => releaseGate a s) s2)))
  let s4 := s3.modPower (fun p => { p with phase := .held, cause := 3 })
  let s5 := (s4.setReg Reg.GLB_READY 0#32).setReg Reg.GLB_ISLAND_STAT
    (BitVec.ofNat 32 ((s4.reg Reg.GLB_ISLAND_STAT).toNat - (s4.reg Reg.GLB_ISLAND_STAT).toNat % 32 + 2 * s4.getF Reg.GLB_ISLAND_STAT Fld.GLB_ISLAND_STAT_SHED_LOCK))
  forActs (fun a s => triggerPark a 4 s) (raise 0xB8 .none s5)

def execPgMainFall (s : State) : Host.Outcome State Fault Refusal := .next (mainFall s)

/-- PG_MAIN_RISE: with PG_MOT high all along, the Loom restarts as after SYS_RST_N (LOOM_RESTART), and every LU is Locked. -/
def execPgMainRise (s : State) : Host.Outcome State Fault Refusal :=
  .next (if s.power.mainHi then s else refreshUst (noteRise (s.modPower (fun p => { p with mainHi := true }))))

/-- PG_MOT_FALL: every motion domain loses its supply; with the main rails down too, the part is off. -/
def motFall (s : State) : State :=
  if !s.power.motHi then s else
  let s1 := noteFall 1 (s.modPower (fun p => { p with motHi := false }))
  if !s1.power.released then s1 else
  let s2 := (s1.setB Reg.GLB_PWR Fld.GLB_PWR_MOT false).setB Reg.GLB_PWR Fld.GLB_PWR_MOT_LOST true
  let s3 := forHdas (fun h s => (resetMotion h (dropPhases h s)).modPower (fun p => { p with buRun := p.buRun.set h false })) (raise 0xB8 .none s2)
  let s4 := showMot (clockShed s3)
  if s4.power.mainHi then refreshUst s4 else s4.modPower (fun p => { p with released := false })

def execPgMotFall (s : State) : Host.Outcome State Fault Refusal := .next (motFall s)

/-- PG_MOT_RISE: every motion domain starts as at power-on, and bring-up restarts. -/
def motRise (fills : List BankCheck) (s : State) : State :=
  if s.power.motHi then s else
  let s1 := noteRise (s.modPower (fun p => { p with motHi := true }))
  if !s1.power.released then s1 else
  let s2 := (if s1.loomRuns then forHdas (fun h s => if s.hasHda h then loadMotion h fills s else s) else clockShed) (s1.setB Reg.GLB_PWR Fld.GLB_PWR_MOT true)
  refreshUst (if s2.power.portsOn && s2.power.buDue.isNone then restartAll s2 else s2)

/-- What the read-backs of the banks find is a free value (log entry 47), which the rise advances. -/
def execPgMotRise (s : State) : Host.Outcome State Fault Refusal :=
  .next (if s.power.motHi then s else motRise (Config.bankReads s.free) { s with free := s.free + 1 })

/-- A spindle as PG_MBUS falls (R146). -/
def busLost (h : Hda) (s : State) : State :=
  match s.scu[h].state with
  | .accel | .run | .decel => driveSpeedWires h (setScuState h .bushold .on s)
  | .align | .openloop | .zvbrake => scuCoast h s
  | .coast => s.modScu h (fun u => { u with tryWait := false })   -- R148: only a run command leaves COAST now
  | _ => s

/-- PG_MBUS_FALL: the spindles act, every actuator parks with CAUSE 4, the HDAs become Stopped, and a bring-up waits in SPIN. -/
def mbusFall (s : State) : State :=
  if !s.power.mbusHi then s else
  let s1 := noteFall 2 (s.modPower (fun p => { p with mbusHi := false, mbusDelay := false }))
  if !s1.power.released then s1 else
  let s2 := raise 0xB8 .none ((s1.setB Reg.GLB_PWR Fld.GLB_PWR_MBUS false).setB Reg.GLB_PWR Fld.GLB_PWR_MBUS_LOST true)
  let s3 := forHdas (fun h s => if s.hasHda h then
      let s1 := addCond .hda h.val cStopped (triggerPark (highAct h) 4 (triggerPark (lowAct h) 4 (busLost h s)))
      if s1.power.buRun[h] then
        let s2 := (dropPhases h (setSpin h 6 s1)).modPower (fun p => { p with placed := p.placed.set h false })
        (s2.actsOf h).foldl (fun s a => if s.phaseOf a = 7 then s else setPhase a 8 s) s2
      else s1
    else s) s2
  refreshUst s3

def execPgMbusFall (s : State) : Host.Outcome State Fault Refusal := .next (mbusFall s)

/-- Bring-up has begun on h since power-on. -/
def State.begun (s : State) (h : Hda) : Bool := s.spinOf h != 0

/-- PG_MBUS_RISE: a spindle in BUSHOLD enters ACCEL and its HDA is brought up again; one at rest that waited in SPIN begins; the others
wait 100 ms. -/
def mbusRise (s : State) : State :=
  if s.power.mbusHi then s else
  let s1 := noteRise (s.modPower (fun p => { p with mbusHi := true, mbusDelay := p.released }))
  if !s1.power.released then s1 else
  let up (h : Hda) (s : State) : State := if s.power.portsOn && s.power.buDue.isNone && s.inMask h && s.begun h then restartBringup false h s else s
  refreshUst (forHdas (fun h s =>
    if !s.hasHda h then s else
    match s.scu[h].state with
    | .bushold => up h (driveSpeedWires h (setScuState h .accel .on s))
    | .stopped | .detect => if s.power.buRun[h] && s.spinOf h == 6 then beginSpin h s else s
    | _ => s) (s1.setB Reg.GLB_PWR Fld.GLB_PWR_MBUS true))

def execPgMbusRise (s : State) : Host.Outcome State Fault Refusal := .next (mbusRise s)

/-- MBUS_RUN_DELAY_END: bring-up issues the run command of each spindle that coasts, and catches the rotor. -/
def mbusDelayEnd (s : State) : State :=
  if s.power.mbusHi && s.power.mbusDelay then
    forHdas (fun h s =>
      if s.hasHda h && s.inMask h && s.begun h && s.scu[h].state == .coast && s.power.portsOn && s.power.buDue.isNone then
        restartBringup false h s
      else s) (s.modPower (fun p => { p with mbusDelay := false }))
  else s

def execMbusRunDelayEnd (s : State) : Host.Outcome State Fault Refusal := .next (mbusDelayEnd s)

/-! ### The standby island (R379) -/

/-- STANDBY_SECOND: the off-time counter counts while PG_MAIN is low, and saturates. -/
def execStandbySecond (s : State) : Host.Outcome State Fault Refusal :=
  .next (if s.power.mainHi then s else s.modPower (fun p => { p with offSecs := min (2 ^ 32 - 1) (p.offSecs + 1) }))

/-- STANDBY_SUPPLY_LOSS: the valid flag clears, and what the island held is lost. -/
def execStandbySupplyLoss (s : State) : Host.Outcome State Fault Refusal :=
  .next (s.modPower (fun p => { p with stbyValid := false, lg := none, offSecs := 0 }))

end Sys2Proof.Machine
end

