-- ==== Sys2Proof/Machine/Calib.lean ====
section
/-! DEFINITION. The commands of chapter 21: reference steps, temperatures, runs, entry windows. -/

namespace Sys2Proof

/-! ### What a window's samples come to (R406) -/

def CalWindow.missing (m : CalWindow) : Nat := m.wedges.countP (·.isNone)
def CalWindow.marks (m : CalWindow) : Nat := m.fronts.length

/-- RADIAL: the most frequent difference of the cylinder codes. -/
def CalWindow.radial (m : CalWindow) : Int :=
  let l := m.wedges.filterMap id
  let most := (l.map (fun x => l.count x)).foldl max 0
  match l.eraseDups.filter (fun x => l.count x == most) with
  | [x] => x
  | t => t.getD (Config.modeTie l % t.length) 0

end Sys2Proof

namespace Sys2Proof.Machine

/-! ### Reference steps (R401, R402) -/

/-- An ADC input of a Shed unit, as a number. -/
def refKey (u : ShedUnit) (input : Fin 8) : Nat := 8 * (match u with | .acu a => a.val | .scu h => 16 + h.val) + input.val

/-- The sum of a list of integers. -/
def isum (l : List Int) : Int := l.foldl (· + ·) 0

/-- The mean as a register shows it. -/
def refMean (l : List Int) : Int :=
  if l.isEmpty then 0 else
  let n := isum l
  let q := n / (l.length : Int)
  if n % (l.length : Int) = 0 then q else if Config.refRoundUp n l.length then q + 1 else q

/-- The value of the greatest magnitude. -/
def worstOf (l : List Int) : Int := l.foldl (fun w x => if w.natAbs < x.natAbs then x else w) 0

def clamp8 (x : Int) : Int := max (-128) (min 127 x)

/-- CAL_REF_STAT shows the worst corrections in use. -/
def showRef (s : State) : State :=
  let g := worstOf (s.calRef.map (fun e => refMean (e.2.map (·.1))))
  let o := worstOf (s.calRef.map (fun e => refMean (e.2.map (·.2))))
  (s.setF Reg.CAL_REF_STAT Fld.CAL_REF_STAT_GAIN_ERR (twos 8 (clamp8 g))).setF Reg.CAL_REF_STAT Fld.CAL_REF_STAT_OFS_ERR (twos 8 (clamp8 o))

/-- A reference pair, as the gain in 0.01 % and the offset in codes that it implies: beyond 1 % of the present correction it is discarded,
otherwise it joins the last sixteen. -/
def referenceStep (u : ShedUnit) (input : Fin 8) (gain ofs : Int) (s : State) : State :=
  let on := match u with | .acu a => s.acu[a].clocked | .scu h => s.scu[h].clocked
  if !on then s else
  let k := refKey u input
  let l := (aget s.calRef k).getD []
  let g := l.map (·.1)
  if !l.isEmpty && decide (100 * l.length < ((l.length : Int) * gain - isum g).natAbs) then
    showRef (s.setB Reg.CAL_REF_STAT Fld.CAL_REF_STAT_REF_BAD true)
  else showRef { s with calRef := aset s.calRef k (((gain, ofs) :: l).take 16) }

/-- CAL_REFERENCE_STEP. -/
def execCalReferenceStep (u : ShedUnit) (input : Fin 8) (gain ofs : Int) (s : State) : Host.Outcome State Fault Refusal :=
  .next (referenceStep u input gain ofs s)

/-! ### Runs (R403, R404) -/

def State.calTemp (s : State) (h : Hda) : Int := signed 8 (s.getF (Reg.CAL_HDA h.val) Fld.CAL_HDA_TEMP)
def State.calLast (s : State) (h : Hda) : Int := signed 8 (s.getF (Reg.CAL_HDA h.val) Fld.CAL_HDA_T_LAST)

/-- Data heads of an actuator that are in service. -/
def State.goodHeads (s : State) (a : Act) : List Nat := (List.range s.cfg.acts[a].heads).filter (fun n => !s.headOut a.val n)

/-- A pending window is withdrawn; one under way is not touched. -/
def withdrawCal (a : Act) (s : State) : State :=
  if s.calBusy a then s else s.modSch a (fun k => { k with work := k.work.filter (fun w => !w.1.isCal) })

/-- A run starts, or starts again from its first entry. A run of bring-up keeps to the actuators in SKEW. -/
def startRunOf (h : Hda) (cause : Nat) (s : State) : State :=
  if !s.hasHda h || !s.loomRuns then s else
  let r := s.cal[h]
  let left (a : Act) : List (Nat × Nat) :=
    if !s.hasAct a then []
    else if r.running && r.bringup then (if s.phaseOf a = 3 then s.entries a (s.goodHeads a) else r.left[side a])
    else s.entries a (s.goodHeads a)
  let s1 := s.modCal h (fun q =>
    { q with
      running := true
      scu := !(r.running && r.bringup)
      aborted := false
      temp := s.calTemp h
      first := []
      cause := if r.running && r.bringup then 4 else cause
      left := (q.left.set 0 (left (lowAct h))).set 1 (left (highAct h)) })
  calRaise (highAct h) (calRaise (lowAct h) (showCal h s1))

/-- The temperature trigger. -/
def State.tempMoved (s : State) (h : Hda) : Bool :=
  s.bitF Reg.CAL_CFG Fld.CAL_CFG_AUTO
    && decide (atLeast1 (s.getF Reg.CAL_CFG Fld.CAL_CFG_TEMP_DELTA) ≤ (s.calTemp h - s.calLast h).natAbs)

/-- The period trigger is enabled. -/
def State.periodOn (s : State) : Bool :=
  s.bitF Reg.CAL_CFG Fld.CAL_CFG_AUTO && decide (0 < s.getF Reg.CAL_CFG Fld.CAL_CFG_PERIOD)

/-- The triggers, evaluated while no run is in progress. -/
def calTriggers (h : Hda) (s : State) : State :=
  if s.cal[h].running then s
  else if s.tempMoved h then startRunOf h 1 s
  else if s.periodOn && decide (s.cal[h].hours + s.getF Reg.CAL_CFG Fld.CAL_CFG_PERIOD ≤ s.rcd.hours) then startRunOf h 2 s
  else s

/-- A run ends when both of its parts have: T_LAST takes the temperature of its start, unless it was aborted, and the triggers are
evaluated again. A run of bring-up ends with SKEW. -/
def endRunOf (h : Hda) (s : State) : State :=
  let r := s.cal[h]
  let busy := s.calBusy (lowAct h) || s.calBusy (highAct h)
  if !r.running || r.bringup then s
  else if r.aborted then
    if busy then s else showCal h (s.modCal h (fun q => { q with running := false, aborted := false, first := [] }))
  else if r.scu || !r.left[0].isEmpty || !r.left[1].isEmpty || busy then s
  else
    let s1 := (s.setF (Reg.CAL_HDA h.val) Fld.CAL_HDA_T_LAST (twos 8 r.temp)).modCal h (fun q => { q with running := false, first := [], hours := s.rcd.hours })
    calTriggers h (showCal h s1)

/-- THERMISTOR_READ: every 100 ms. -/
def execThermistorRead (h : Hda) (temp : BitVec 8) (s : State) : Host.Outcome State Fault Refusal :=
  .next (if s.loomRuns && s.hasHda h then
    let s1 := s.setF (Reg.CAL_HDA h.val) Fld.CAL_HDA_TEMP temp.toNat
    if !s1.cal[h].running && s1.tempMoved h then startRunOf h 1 s1 else s1
  else s)

/-- CAL_PERIOD_EXPIRE. -/
def execCalPeriodExpire (h : Hda) (s : State) : Host.Outcome State Fault Refusal :=
  .next (if s.periodOn && !s.cal[h].running then startRunOf h 2 s else s)

/-- HDAs that CAL_CMD.HDA names. -/
def State.calNamed (s : State) : List Hda := allHdas.filter (fun h => s.getF Reg.CAL_CMD Fld.CAL_CMD_HDA / 2 ^ h.val % 2 == 1)

def calGo (s : State) : State := s.calNamed.foldl (fun s h => startRunOf h 3 s) s

/-- CAL_GO: in an Operator session. -/
def execCalGo (n : Fin 4) (s : State) : Host.Outcome State Fault Refusal := .next (if s.may n .operator then calGo s else s)

/-- A run is ended by command (R408): windows not begun go, one that has begun finishes. SKEW of bring-up goes on until every entry is
measured. -/
def abortRun (h : Hda) (s : State) : State :=
  let r := s.cal[h]
  if !r.running || r.bringup then s else
  let s1 := withdrawCal (highAct h) (withdrawCal (lowAct h) s)
  endRunOf h (showCal h (s1.modCal h (fun q => { q with aborted := true, scu := false, left := Vector.replicate 2 [] })))

def calAbort (s : State) : State := s.calNamed.foldl (fun s h => abortRun h s) s

/-- CAL_ABORT: in an Operator session. -/
def execCalAbort (n : Fin 4) (s : State) : Host.Outcome State Fault Refusal := .next (if s.may n .operator then calAbort s else s)

/-! ### R_PH (R404, R407) -/

/-- The phase resistance that the image gives. -/
def State.imageRph (s : State) (h : Hda) : Nat :=
  match s.img with
  | some f => (match spindleOf f.recs h.val with | some c => c.rPh | none => s.cfg.spin[h].rPh)
  | none => s.cfg.spin[h].rPh

/-- RPH_MEASURE_DONE: the SCU part of a run, in mΩ. -/
def execRphMeasureDone (h : Hda) (r : Nat) (s : State) : Host.Outcome State Fault Refusal :=
  .next (if s.cal[h].running && s.cal[h].scu && s.scu[h].state == .run then
    let s1 := if nearImage (s.imageRph h) r then { s with cfg := { s.cfg with spin := s.cfg.spin.set h { s.cfg.spin[h] with rPh := r } } }
      else s.incF Reg.CAL_CNT2 Fld.CAL_CNT2_REJECT
    endRunOf h (s1.modCal h (fun q => { q with scu := false }))
  else s)

/-! ### Entry windows (R406 to R409) -/

/-- SKEW_WEDGES and SKEW_JUMP as they are taken. -/
def State.skewWedges (s : State) (a : Act) : Nat :=
  max (s.getF Reg.CAL_SKEW_CFG Fld.CAL_SKEW_CFG_SKEW_WEDGES) (2 * s.cfg.spin[hdaOf a].wedges)
def State.skewJump (s : State) : Nat := atLeast1 (s.getF Reg.CAL_SKEW_CFG Fld.CAL_SKEW_CFG_SKEW_JUMP)

/-- A skew entry. -/
def skewWord (angle radial : Int) (valid : Bool) : Word :=
  BitVec.ofNat 32 (twos 16 angle + 2 ^ 16 * twos 8 radial + 2 ^ 24 * b2n valid)
def skewAngle (w : Word) : Int := signed 16 (Fld.ACU_SKEW_DATA_ANGLE.get w)

def putSkew (a : Act) (hd z : Nat) (w : Word) (s : State) : State :=
  s.modChan a (fun c => { c with skew := sset 0#32 c.skew (headZone hd z) w })

/-- Entries of a run that are still to be measured on actuator a. -/
def setLeft (a : Act) (l : List (Nat × Nat)) (s : State) : State :=
  s.modCal (hdaOf a) (fun q => { q with left := q.left.set (side a) l })

/-- An entry that is marked invalid takes its head out of service, and the head's entries with it. -/
def invalidEntry (a : Act) (hd z : Nat) (s : State) : State :=
  let w := s.chan[a].skewOf hd z
  let s1 := putSkew a hd z (skewWord (skewAngle w) (skewRadial w) false) s
  headOut a hd (setLeft a ((s1.calLeft a).filter (fun e => e.1 != hd)) s1)

/-- The first measurement of an entry that jumped. -/
def State.firstOf (s : State) (a : Act) (hd z : Nat) : Option Int :=
  (s.cal[hdaOf a].first.find? (fun e => e.1 == a.val && e.2.1 == hd && e.2.2.1 == z)).map (·.2.2.2)
def dropFirst (a : Act) (hd z : Nat) (s : State) : State :=
  s.modCal (hdaOf a) (fun q => { q with first := q.first.filter (fun e => !(e.1 == a.val && e.2.1 == hd && e.2.2.1 == z)) })

/-- The entry is measured: the next one is due. -/
def entryDone (a : Act) (hd z : Nat) (s : State) : State :=
  dropFirst a hd z (setLeft a ((s.calLeft a).filter (fun e => e != (hd, z))) s)

/-- The skew part of a window. -/
def applySkew (a : Act) (hd z : Nat) (m : CalWindow) (s : State) : State :=
  let old := s.chan[a].skewOf hd z
  let fresh := putSkew a hd z (skewWord m.angle m.radial true)
  let done (s : State) : State := (entryDone a hd z s).incF Reg.CAL_CNT Fld.CAL_CNT_DONE
  if 127 < m.radial.natAbs then invalidEntry a hd z (entryDone a hd z s)
  else match s.firstOf a hd z with
    | some x =>
      let s1 := s.incF Reg.CAL_CNT2 Fld.CAL_CNT2_JUMP
      if (m.angle - x).natAbs ≤ 4 then done (fresh s1)
      else invalidEntry a hd z (entryDone a hd z (s1.incF Reg.CAL_CNT2 Fld.CAL_CNT2_REJECT))
    | none =>
      if skewValid old && decide (s.skewJump < (m.angle - skewAngle old).natAbs) then
        (s.incF Reg.CAL_CNT2 Fld.CAL_CNT2_REJECT).modCal (hdaOf a) (fun q => { q with first := q.first ++ [(a.val, hd, z, m.angle)] })
      else done (fresh s)

/-- Factory values and the limit around them, as the image gives them. -/
def State.factory (s : State) (a hd z : Nat) : Option (FrontEnd × Nat) :=
  match s.img with
  | none => none
  | some f =>
    let limit := f.recs.findSome? (fun r => match r.body with | .calib c => some c.frontLimit | _ => none)
    let front := f.recs.findSome? (fun r => match r.body with
      | .heads l => if r.index = a then (l.find? (fun e => e.head == hd && e.zone == z)).map (·.front) else none
      | _ => none)
    match front, limit with
    | some x, some n => some (x, n)
    | _, _ => none

/-- The mean of every loop value over the sectors recorded (R406). -/
def frontMean (l : List FrontEnd) : FrontEnd :=
  let mean (f : FrontEnd → Int) : Int := refMean (l.map f)
  let taps := (l.map (fun e => e.fir.length)).foldl max 0
  { gain := (mean (fun e => e.gain)).toNat, baseline := mean (·.baseline), asym := (mean (fun e => e.asym)).toNat
    fir := (List.range taps).map (fun i => mean (fun e => e.fir.getD i 0)), timing := mean (·.timing) }

/-- Every mean lies within the limit around the factory value (R407). -/
def frontNear (l : List FrontEnd) (y : FrontEnd) (lim : Nat) : Bool :=
  let ok (f : FrontEnd → Int) : Bool := decide ((isum (l.map f) - l.length * f y).natAbs ≤ lim * l.length)
  ok (fun e => e.gain) && ok (·.baseline) && ok (fun e => e.asym) && ok (·.timing)
    && (List.range y.fir.length).all (fun i => ok (fun e => e.fir.getD i 0))

/-- The front-end part: with 64 sectors of outcome MARK, within the limit around the factory values. -/
def applyFront (a : Act) (hd z : Nat) (m : CalWindow) (s : State) : State :=
  if m.marks < 64 then s else
  match s.factory a.val hd z with
  | none => s
  | some (x, lim) =>
    if frontNear m.fronts x lim then
      { s with cfg := { s.cfg with heads := s.cfg.heads.set a (s.cfg.heads[a].map (fun e =>
          if e.head = hd ∧ e.zone = z then { e with front := frontMean m.fronts } else e)) } }
    else s.incF Reg.CAL_CNT2 Fld.CAL_CNT2_REJECT

/-- CAL_WINDOW_END: the window's pass ends with it; the results are applied or rejected, and the next window is raised. -/
def calWindowEnd (a : Act) (m : CalWindow) (s : State) : State :=
  match s.acu[a].calWin with
  | none => s
  | some w =>
    if s.acu[a].state ≠ .follow then s else
    let hd := w / 64
    let z := w % 64
    let s1 := (s.modAcu a (fun u => { u with calWin := none })).modChan a (fun c => { c with pass := none })
    let s2 := s1.modSch a (fun k => { k with pass := none, work := k.work.filter (fun v => !v.1.isCal) })
    let s3 :=
      if s.skewWedges a < 2 * m.missing then s2.incF Reg.CAL_CNT Fld.CAL_CNT_DISCARD
      else
        let s3 := applySkew a hd z m s2
        if s.cal[hdaOf a].bringup then s3 else applyFront a hd z m s3
    tryDispatch a (endRunOf (hdaOf a) (calRaise a (showCal (hdaOf a) s3)))

def execCalWindowEnd (a : Act) (m : CalWindow) (s : State) : Host.Outcome State Fault Refusal := .next (calWindowEnd a m s)

end Sys2Proof.Machine
end

