-- ==== Sys2Proof/Machine/CtxBytes.lean ====
section
/-! DEFINITION. The 160 bytes of a context in the Context Store (R194), as INT_CTX_DATA and the Heddle memories show them. -/

namespace Sys2Proof.Machine

def attrCode : TaskAttr → Nat | .simple => 0 | .ordered => 1 | .headOfQueue => 2

/-- A zone segment, 16 bytes. -/
def Seg.bytes (g : Seg) : List Byte :=
  leBytes 4 g.zone ++ leBytes 2 g.start ++ leBytes 2 g.count ++ leBytes 2 g.done ++ leBytes 1 g.act ++ leBytes 1 g.head ++ leBytes 1 g.passes ++ zeros 3

/-- The first context on a context's list of dependents; zero where there is none. -/
def State.succOf (s : State) (c : Nat) : Nat :=
  match s.intake.ctxs.find? (fun e => e.2.preds.contains c) with | some e => e.1 | none => 0

/-- CLASS as R194 counts it: 5 marks an internal reassignment, so one that the host asked for shows as a write. -/
def Ctx.classCode (x : Ctx) : Nat := if x.cls = 5 ∧ x.port < 2 then 1 else x.cls

def ctxBytes (s : State) (c : Nat) (x : Ctx) : List Byte :=
  let seg (i : Nat) : List Byte := match x.segs[i]? with | some g => g.bytes | none => zeros 16
  let held := x.bobs.filter (· != 0x3FFFF)
  let e := x.err
  let se : List Byte := match e with | some (_, y) => leBytes 1 y.key ++ leBytes 1 y.asc ++ leBytes 1 y.ascq ++ [1#8] | none => zeros 4
  let sd : List Byte := match e with | some (_, y) => (match y.sdesc with | some d => padTo 10 (d.take 10) | none => zeros 10) | none => zeros 10
  leBytes 1 x.state.code ++ leBytes 1 (attrCode x.attr + 4 * b2n x.heldFlag + 8 * b2n x.pinned + 16 * b2n x.abort)
    ++ leBytes 1 x.lu ++ leBytes 1 (min 2 x.segs.length) ++ leBytes 2 (x.init % 2048 + 32768 * (x.port % 2)) ++ leBytes 2 x.tag
    ++ padTo 16 (x.cdb.take 16) ++ leBytes 8 x.lba ++ leBytes 4 x.nblk ++ leBytes 4 x.seq ++ leBytes 4 x.admitT
    ++ leBytes 4 (held.headD 0) ++ leBytes 2 held.length ++ leBytes 2 x.preds.length ++ leBytes 4 (s.succOf c)
    ++ seg 0 ++ seg 1 ++ leBytes 4 x.hostDone ++ leBytes 4 x.placed.length ++ leBytes 8 (match e with | some y => y.1 | none => 0) ++ se ++ sd
    ++ zeros 2 ++ leBytes 4 x.pinCnt ++ leBytes 4 (Config.ctxLink s.free c) ++ leBytes 4 (if x.pifmt = 0 then 0 else x.lba) ++ zeros 4
    ++ leBytes 1 (x.prot % 8 + 8 * (x.pifmt % 4)) ++ leBytes 1 x.classCode ++ zeros 22

/-- The bytes that context c shows. A free one is on the free list and has nothing but LINK; one that there is not shows zeros. -/
def State.ctxShown (s : State) (c : Nat) : List Byte :=
  match s.ctx? c with
  | some x => ctxBytes s c x
  | none => if c < ctxCount then zeros 124 ++ leBytes 4 (Config.ctxLink s.free c) ++ zeros 32 else zeros 160

/-! ### A write of context bytes -/

def stateOfCode : Nat → Option CState
  | 1 => some .held | 2 => some .dataIn | 3 => some .waiting | 4 => some .queued | 5 => some .media | 6 => some .dataOut
  | 7 => some .responding | 8 => some .stopping | 9 => some .linger | _ => none

/-- The low bits of a counter are replaced. -/
def lowBits (n old new : Nat) : Nat := old - old % 2 ^ n + new % 2 ^ n

def Seg.ofBytes (old : Seg) (l : List Byte) : Seg :=
  { old with
    zone := leNat (l.take 4), start := leNat ((l.drop 4).take 2), count := leNat ((l.drop 6).take 2), done := leNat ((l.drop 8).take 2)
    act := leNat ((l.drop 10).take 1), head := leNat ((l.drop 11).take 1), passes := leNat ((l.drop 12).take 1) }

/-- A context as its bytes give it; what they show of other state (chain, dependents, places) stays as it is. -/
def ctxOfBytes (x : Ctx) (l : List Byte) : Ctx :=
  let f (o n : Nat) : Nat := leNat ((l.drop o).take n)
  let a := f 1 1
  { x with
    state := (stateOfCode (f 0 1)).getD x.state
    attr := match a % 4 with | 0 => .simple | 1 => .ordered | 2 => .headOfQueue | _ => x.attr
    heldFlag := a / 4 % 2 == 1, pinned := a / 8 % 2 == 1, abort := a / 16 % 2 == 1
    lu := f 2 1, init := f 4 2 % 2048, port := if x.port < 2 then f 4 2 / 32768 else x.port, tag := lowBits 16 x.tag (f 6 2)
    cdb := (l.drop 8).take 16, lba := f 24 8, nblk := f 32 4, seq := f 36 4, admitT := lowBits 32 x.admitT (f 40 4)
    segs := x.segs.mapIdx (fun i g => if i < 2 then Seg.ofBytes g ((l.drop (56 + 16 * i)).take 16) else g)
    hostDone := f 88 4, prot := f 136 1 % 8, pifmt := f 136 1 / 8 % 4
    cls := if f 137 1 = x.classCode then x.cls else f 137 1 }

end Sys2Proof.Machine
end

