-- ==== Sys2Proof/Machine/Heddle.lean ====
section
/-! DEFINITION. The commands of chapter 16: the Heddle code, reads, mending, remapping, narrow writes, scrubbing, test operations. -/

namespace Sys2Proof.Machine

/-! ### The code (R321, R322) -/

def parity (n : Nat) (p : Nat → Bool) : Bool := (List.range n).foldl (fun b i => b != p i) false

/-- The sixteen check bits: P_0 to P_7, then Q_0 to Q_7. -/
def checkBits (d : BitVec 64) : BitVec 16 :=
  (List.range 8).foldl (fun (v : BitVec 16) i =>
    let v1 := if parity 8 (fun y => d.getLsbD (8 * i + y)) then v ||| (1#16 <<< i) else v
    if parity 8 (fun r => d.getLsbD (8 * r + i)) then v1 ||| (1#16 <<< (8 + i)) else v1) 0#16

/-- The 80 stored bits of a word. -/
def codeWord (d : BitVec 64) : BitVec 80 := checkBits d ++ d

def dataOf (w : BitVec 80) : BitVec 64 := w.extractLsb' 0 64
def chkOf (w : BitVec 80) : BitVec 16 := w.extractLsb' 64 16

/-- What a read decides: no error, one stored bit corrected, or uncorrectable. -/
inductive HedJudge | clean | corrected (bit : Nat) | uncorrectable
  deriving DecidableEq, Repr

/-- The set bit of a syndrome that has exactly one. -/
def oneBit (x : BitVec 8) : Option Nat := (List.range 8).find? (fun i => x == 1#8 <<< i)

def hedJudge (w : BitVec 80) : HedJudge :=
  let syn := chkOf w ^^^ checkBits (dataOf w)
  let sr := syn.extractLsb' 0 8
  let sc := syn.extractLsb' 8 8
  match sr == 0#8, sc == 0#8, oneBit sr, oneBit sc with
  | true, true, _, _ => .clean
  | false, false, some r, some y => .corrected (8 * r + y)
  | false, true, some r, _ => .corrected (64 + r)
  | true, false, _, some y => .corrected (72 + y)
  | _, _, _, _ => .uncorrectable

/-- The data delivered. -/
def hedDeliver (w : BitVec 80) : BitVec 64 :=
  match hedJudge w with
  | .corrected b => if b < 64 then dataOf w ^^^ (1#64 <<< b) else dataOf w
  | _ => dataOf w

/-! ### The memories (R320) -/

def macroSize (m : Nat) : Nat := if m = 201 ∨ m = 203 then 512 else if m = 202 then 1024 else 4096

def hedKey (m loc : Nat) : Nat := m * 8192 + loc

/-- Eight bytes of a list as a word. -/
def word64 (l : List Byte) (i : Nat) : BitVec 64 := BitVec.ofNat 64 (leNat ((l.drop (8 * i)).take 8))

/-- The content of a word by its address, as the state that it stands for gives it; tags and words beyond the used range are `raw`. -/
def State.hedContent (s : State) (m w : Nat) : BitVec 64 :=
  let raw := sget 0#64 s.hed.raw (hedKey m w)
  if m < 200 then
    let n := m * 4096 + w
    if (s.ctx? (n / 20)).isSome then word64 (s.ctxShown (n / 20)) (n % 20) else raw
  else if m = 200 then (if w < 3840 then sget 0#64 s.creel.owned w else raw)
  else if m = 201 then
    if w < 240 then
      (if w % 5 < 4 then (match s.zones.temple.entries.toList[w / 5]? with | some e => word64 e.bytes (w % 5) | none => raw) else raw)
    else if w < 280 ∧ w % 5 < 4 then
      (match s.zones.temple.mb[(w - 240) / 5]? with | some e => word64 (e.bytes.map (fun b => b.getD 0#8)) (w % 5) | none => raw)
    else raw
  else if m = 202 then (if w < 1024 then (match aget s.cip.keys (w / 4) with | some k => word64 k (w % 4) | none => raw) else raw)
  else if w < 320 ∧ w % 5 < 4 then
    (match s.cip.derived[w / 5]? with | some d => (match d.key with | some k => word64 k (w % 5) | none => raw) | none => raw)
  else raw

/-- Where a word stands: the remap word that has taken its address, or its own place (R324). -/
def State.hedLoc (s : State) (m w : Nat) : Nat :=
  match (List.range 8).reverse.find? (fun n =>
      s.bitF (bank m (Reg.HED_REMAP n)) Fld.HED_REMAP_VALID && s.getF (bank m (Reg.HED_REMAP n)) Fld.HED_REMAP_ADDR == w) with
  | some n => macroSize m + n
  | none => w

/-- The address that a place of a macro stands for: a remap word's is the one it replaces. -/
def State.hedAddr (s : State) (m loc : Nat) : Nat :=
  if macroSize m ≤ loc then s.getF (bank m (Reg.HED_REMAP (loc - macroSize m))) Fld.HED_REMAP_ADDR else loc

/-- The content that a place holds, or is to hold. A remap word not in use holds what was last put there. -/
def State.hedAt (s : State) (m loc : Nat) : BitVec 64 :=
  if macroSize m ≤ loc ∧ s.bitF (bank m (Reg.HED_REMAP (loc - macroSize m))) Fld.HED_REMAP_VALID = false then sget 0#64 s.hed.raw (hedKey m loc)
  else s.hedContent m (s.hedAddr m loc)

/-- The 80 bits stored at a place. -/
def State.hedStored (s : State) (m loc : Nat) : BitVec 80 :=
  let d := s.hedAt m loc
  match aget s.hed.damage (hedKey m loc) with
  | some (w, was) => if was = d then w else codeWord d
  | none => codeWord d

def State.modHed (s : State) (f : Heddle → Heddle) : State := { s with hed := f s.hed }

/-- Store 80 bits at a place. -/
def hedPut (m loc : Nat) (w : BitVec 80) (s : State) : State :=
  let d := s.hedAt m loc
  s.modHed (fun h => { h with damage := if w = codeWord d then adel h.damage (hedKey m loc) else aset h.damage (hedKey m loc) (w, d) })

/-! ### Errors (R323, R324, R327) -/

/-- HED_ERR_LAST. -/
def hedErr (m w bit : Nat) (uncorr : Bool) (src : Nat) (s : State) : State :=
  s.setReg Reg.HED_ERR_LAST (BitVec.ofNat 32 (m + 2 ^ 8 * (w % 4096) + 2 ^ 20 * bit + 2 ^ 27 * b2n uncorr + 2 ^ 28 * src))

/-- The lowest free remap word of a macro. -/
def State.freeRemap (s : State) (m : Nat) : Option Nat :=
  (List.range 8).find? (fun n => !s.bitF (bank m (Reg.HED_REMAP n)) Fld.HED_REMAP_VALID)

/-- HEDDLE_REMAP: an address that is a hard fault moves to a remap word, or stays in place (R324). -/
def hedRemap (m loc : Nat) (s : State) : State :=
  let w := s.hedAddr m loc
  match s.freeRemap m with
  | some n =>
    let s1 := s.setReg (bank m (Reg.HED_REMAP n)) (BitVec.ofNat 32 (w % 4096 + 4096))
    recordNow 0x0005 (leBytes 1 m ++ leBytes 2 w ++ leBytes 1 n) s1
  | none => raise 0xB3 .none (s.setB Reg.HED_STAT Fld.HED_STAT_REMAP_FULL true)

/-- The words of a context are written with zeros; one that still fails with no remap word free retires the context. -/
def clearCtxWords (c : Nat) (bad : Bool) (s : State) : State :=
  let s1 := s.modHed (fun h => { h with damage := h.damage.filter (fun e => !(e.1 / 8192 < 200 && (e.1 / 8192 * 4096 + e.1 % 8192) / 20 == c && e.1 % 8192 < 4096)) })
  if bad && (s1.freeRemap (20 * c / 4096)).isNone && !s1.hed.retired.contains c then
    (s1.modHed (fun h => { h with retired := h.retired ++ [c] })).setF Reg.INT_STAT Fld.INT_STAT_CTX_FREE (s1.ctxFree - 1)
  else s1

/-- The task of a context whose words are lost ends (R327). -/
def loseCtx (c : Nat) (bad : Bool) (s : State) : State :=
  let s1 := match s.ctx? c with
    | none => s
    | some x =>
      if x.state = .linger then releaseLinger c s
      else match s.writingNow c with
        | some _ => let r := doomOne c (sense keyHardware 0x85 0x01) s; settleAll r.2 r.1
        | none => finish1 c (.check (sense keyHardware 0x85 0x01)) s
  clearCtxWords c bad s1

/-- The action of a memory whose word w is uncorrectable (R303, R327). -/
def hedLose (m w : Nat) (bad : Bool) (s : State) : State :=
  if m < 200 then loseCtx ((m * 4096 + w) / 20) bad s
  else if m = 200 then
    if w < 3840 ∧ s.creel.bitmapWait.contains w = false then
      raise 0xAC .none { s with creel := { s.creel with bitmapWait := s.creel.bitmapWait ++ [w] } }
    else s
  else if m = 201 then
    if h : w < 240 then
      let i : Fin 48 := ⟨w / 5, by omega⟩
      let e := mEntry i s
      match e.state with
      | .valid => setEntry i { e with bytes := zeros 32, state := .filling } s
      | _ => s
    else match s.zones.temple.mb[(w - 240) / 5]? with
      | some e => reloadZone e.g (s.modTemple (fun t => { t with mb := t.mb.filter (fun x => x.g != e.g) }))
      | none => s
  else if m = 202 then
    if (aget s.cip.keys (w / 4)).isSome then keyClear (w / 4) (raise 0xAF (.lu (w / 4)) s) else raise 0xAF (.lu (w / 4)) s
  else match s.cip.derived[w / 5]? with
    | some d => { s with cip := { s.cip with
        derived := s.cip.derived.map (fun k => if k == d then { k with key := none } else k)
        derivQ := s.cip.derivQ ++ [(d.lu, d.zone, d.label)] } }
    | none => s

/-- Judge the word at a place: deliver it, correct it and have it written back, or act on its loss. A word whose write-back is due is
read from the forwarding register. -/
def hedJudged (m loc src : Nat) (bad : Bool) (s : State) : State :=
  let w := s.hedStored m loc
  let a := s.hedAddr m loc
  if s.hed.due.contains (m, loc) then s.modHed (fun h => { h with out := some (s.hedAt m loc) })
  else match hedJudge w with
    | .clean => s.modHed (fun h => { h with out := some (dataOf w) })
    | .corrected b =>
      let s1 := raise 0xB1 .none (hedErr m a b false src (s.incF Reg.HED_CNT Fld.HED_CNT_CE))
      s1.modHed (fun h => { h with out := some (hedDeliver w), due := h.due ++ [(m, loc)] })
    | .uncorrectable =>
      let s1 := raise 0xB2 .none (hedErr m a 0x7F true src (s.incF Reg.HED_CNT Fld.HED_CNT_UE))
      let s2 := hedLose m a bad s1
      s2.modHed (fun h => { h with out := none, damage := adel h.damage (hedKey m loc) })

/-- The word at a place is damaged before it is read. -/
def hedFlip (m loc : Nat) (flip : BitVec 80) (s : State) : State :=
  if flip = 0#80 then s else hedPut m loc (s.hedStored m loc ^^^ flip) s

def State.hedInRange (m w : Nat) : Bool := decide (m < 204) && decide (w < macroSize m)

/-- HEDDLE_READ. `flip` is what has befallen the stored bits since they were written; `bad` says that the words of a lost context fail
their read-back after they are written with zeros. -/
def execHeddleRead (m : Fin 204) (w : Fin 4096) (flip : BitVec 80) (bad : Bool) (s : State) : Host.Outcome State Fault Refusal :=
  .next (if w.val < macroSize m.val then
    let loc := s.hedLoc m.val w.val
    hedJudged m.val loc 0 bad (hedFlip m.val loc flip s) else s)

/-- HEDDLE_WRITEBACK (R323, R324): the oldest corrected word is written back and read back; `hard` says that it still needs
correction. -/
def execHeddleWriteback (hard : Bool) (s : State) : Host.Outcome State Fault Refusal :=
  .next (match s.hed.due with
    | [] => s
    | (m, loc) :: rest =>
      let s1 := s.modHed (fun h => { h with due := rest })
      if hard then hedRemap m loc s1 else hedPut m loc (codeWord (s1.hedAt m loc)) s1)

/-! ### Narrow writes (R325, R326: HEDDLE_RMW_START reads, HEDDLE_WRITEBACK writes) -/

/-- Bytes of a word replaced under a mask. -/
def mergeWord (old new : BitVec 64) (mask : BitVec 8) : BitVec 64 :=
  BitVec.ofNat 64 (leNat ((List.range 8).map (fun i => (leBytes 8 (if mask.getLsbD i then new else old).toNat).getD i 0#8)))

/-- Bytes with word i replaced. -/
def putWord64 (l : List Byte) (i : Nat) (v : BitVec 64) : List Byte := (l.take (8 * i) ++ leBytes 8 v.toNat ++ l.drop (8 * i + 8)).take l.length

/-- Put a content into the state that a word stands for. -/
def hedSet (m w : Nat) (v : BitVec 64) (s : State) : State :=
  let raw (s : State) : State := s.modHed (fun h => { h with raw := sset 0#64 h.raw (hedKey m w) v })
  if m < 200 then
    let n := m * 4096 + w
    if (s.ctx? (n / 20)).isSome then modCtx (n / 20) (fun x => ctxOfBytes x (putWord64 (ctxBytes s (n / 20) x) (n % 20) v)) s else raw s
  else if m = 200 then (if w < 3840 then { s with creel := { s.creel with owned := sset 0#64 s.creel.owned w v } } else raw s)
  else if m = 201 then
    if h : w < 240 then
      (if w % 5 < 4 then let i : Fin 48 := ⟨w / 5, by omega⟩; setEntry i { mEntry i s with bytes := putWord64 (mEntry i s).bytes (w % 5) v } s else raw s)
    else if w < 280 ∧ w % 5 < 4 ∧ (w - 240) / 5 < s.zones.temple.mb.length then
      s.modTemple (fun t => { t with mb := t.mb.mapIdx (fun i e => if i = (w - 240) / 5 then
        { e with bytes := (putWord64 (e.bytes.map (fun b => b.getD 0#8)) (w % 5) v).mapIdx (fun k b =>
            if b = ((e.bytes.getD k none).getD 0#8) then e.bytes.getD k none else some b) } else e) })
    else raw s
  else if m = 202 then
    match aget s.cip.keys (w / 4) with
    | some k => { s with cip := { s.cip with keys := aset s.cip.keys (w / 4) (putWord64 k (w % 4) v) } }
    | none => raw s
  else if w < 320 ∧ w % 5 < 4 ∧ w / 5 < s.cip.derived.length then
    { s with cip := { s.cip with derived := s.cip.derived.mapIdx (fun i d => if i = w / 5 then { d with key := d.key.map (fun k => putWord64 k (w % 5) v) } else d) } }
  else raw s

/-- HEDDLE_NARROW_WRITE: the word is read and corrected, the bytes under the mask are merged, the check bits computed and the word
written. A word found uncorrectable is not written. -/
def execHeddleNarrowWrite (m : Fin 204) (w : Fin 4096) (mask : BitVec 8) (data : BitVec 64) (flip : BitVec 80) (s : State) :
    Host.Outcome State Fault Refusal :=
  .next (if w.val < macroSize m.val then
    let loc := s.hedLoc m.val w.val
    let s1 := hedFlip m.val loc flip s
    let lost := !s1.hed.due.contains (m.val, loc) && hedJudge (s1.hedStored m.val loc) == .uncorrectable
    let s2 := hedJudged m.val loc 2 false s1
    if lost then s2
    else
      let s3 := hedSet m.val w.val (mergeWord (s2.hedContent m.val w.val) data mask) s2
      (hedPut m.val loc (codeWord (s3.hedAt m.val loc)) s3).modHed (fun h => { h with due := h.due.filter (· != (m.val, loc)) })
  else s)

/-! ### Scrubbing (R328) -/

/-- Words of a macro with its remap words. -/
def scrubSize (m : Nat) : Nat := macroSize m + 8

/-- The Heddle place of a scrub number. -/
def scrubPlace : List Nat → Nat → Option (Nat × Nat)
  | [], _ => none
  | m :: t, n => if n < scrubSize m then some (m, n) else scrubPlace t (n - scrubSize m)

def hedWords : Nat := 826976
def jqWords (q : Fin 64) : Nat := if isPick q then 2048 else 4096

/-- The Jacquard word of a scrub number past the Heddle words: store, staging bank, address. -/
def scrubStore : List (Fin 64) → Nat → Option (Fin 64 × Bool × Nat)
  | [], _ => none
  | q :: t, n =>
    if n < jqWords q then some (q, false, n)
    else if n < 2 * jqWords q then some (q, true, n - jqWords q)
    else scrubStore t (n - 2 * jqWords q)

def scrubTotal : Nat := 1187424

/-- A Jacquard word that the scrubber reads: a corrected one as R161 states, an uncorrectable one repaired from its bank's shadow
without holding the sequencer. -/
def scrubJq (q : Fin 64) (stg : Bool) (w : Nat) (e : FetchErr) (rp : ShadowRead) (s : State) : State :=
  let t := s.jq[q]
  match if stg then t.staging else t.active with
  | none => s
  | some p =>
  match p.read (isPick q) w e with
  | none | some (.clean _) => s
  | some (.corrected _) => jqCorrect q stg w s
  | some .uncorrectable =>
    let s1 := raise 0xA9 (storeUnit q) (eccLast q stg w true (s.incF Reg.JQ_ECC Fld.JQ_ECC_UE))
    match s.repaired (t.slot ^^ stg) q (isPick q) p w rp with
    | some p' => s1.modStore q (fun t => if stg then { t with staging := some p' } else { t with active := some p' })
    | none => if stg then s1.modStore q (fun t => { t with stgValid := false }) else failStore q s1

/-- The scrubber moves on to a scrub number; at the end a pass is complete. -/
def scrubTo (n : Nat) (s : State) : State :=
  if scrubTotal ≤ n then
    (s.setF Reg.HED_STAT Fld.HED_STAT_PASSES ((s.getF Reg.HED_STAT Fld.HED_STAT_PASSES + 1) % 65536)).modHed (fun h => { h with scrub := 0 })
  else s.modHed (fun h => { h with scrub := n })

/-- HEDDLE_SCRUB_READ: the next word of every protected macro, then of both banks of every store; a staging bank that is not valid is
skipped. -/
def scrubRead (flip : BitVec 80) (bad : Bool) (e : FetchErr) (rp : ShadowRead) (s : State) : State :=
  if !s.bitF Reg.HED_SCRUB Fld.HED_SCRUB_EN then s else
  let n := s.hed.scrub
  if n < hedWords then
    match scrubPlace (List.range 204) n with
    | some (m, loc) => scrubTo (n + 1) (hedJudged m loc 1 bad (hedFlip m loc flip s))
    | none => s
  else match scrubStore (List.finRange 64) (n - hedWords) with
    | some (q, stg, w) =>
      if stg && !s.jq[q].stgValid then scrubTo (n + (jqWords q - w)) s
      else scrubTo (n + 1) (scrubJq q stg w e rp s)
    | none => scrubTo scrubTotal s

def execHeddleScrubRead (flip : BitVec 80) (bad : Bool) (e : FetchErr) (rp : ShadowRead) (s : State) : Host.Outcome State Fault Refusal :=
  .next (scrubRead flip bad e rp s)

/-! ### Test modes (R329) -/

def testResult (op r : Nat) (s : State) : State :=
  (s.setF Reg.HED_TEST_CMD Fld.HED_TEST_CMD_OP op).setF Reg.HED_TEST_CMD Fld.HED_TEST_CMD_RESULT r

/-- A test operation of a session: taken in a Keeper session while none is in progress. Key memories refuse RAW_READ and DATA_ONLY. -/
def testOp (n : Fin 4) (op : Nat) (run : Nat → Nat → State → State) (s : State) : State :=
  if !s.may n .keeper || s.bitF Reg.HED_TEST_CMD Fld.HED_TEST_CMD_BUSY then s else
  let m := s.getF Reg.HED_TEST_ADDR Fld.HED_TEST_ADDR_MACRO
  let w := s.getF Reg.HED_TEST_ADDR Fld.HED_TEST_ADDR_WORD
  if 204 ≤ m ∨ macroSize m ≤ w then testResult op 3 s
  else if (op = 1 ∨ op = 3) ∧ (m = 202 ∨ m = 203) then testResult op 2 s
  else testResult op 1 (run m (s.hedLoc m w) s)

def State.testData (s : State) : BitVec 64 := s.reg Reg.HED_TEST_DATA_HI ++ s.reg Reg.HED_TEST_DATA_LO
def State.testFlip (s : State) : BitVec 80 :=
  BitVec.ofNat 16 (s.getF Reg.HED_TEST_CHK Fld.HED_TEST_CHK_FLIP) ++ (s.reg Reg.HED_FLIP_HI ++ s.reg Reg.HED_FLIP_LO : BitVec 64)

/-- HEDDLE_RAW_READ: the 80 stored bits, uncorrected. -/
def heddleRawRead (n : Fin 4) (s : State) : State :=
  testOp n 1 (fun m loc s =>
    let w := s.hedStored m loc
    ((s.setReg Reg.HED_TEST_DATA_LO (w.extractLsb' 0 32)).setReg Reg.HED_TEST_DATA_HI (w.extractLsb' 32 32)).setF
      Reg.HED_TEST_CHK Fld.HED_TEST_CHK_CHK (chkOf w).toNat) s

def execHeddleRawRead (n : Fin 4) (s : State) : Host.Outcome State Fault Refusal := .next (heddleRawRead n s)

/-- HEDDLE_INJECT: the word is read and corrected, and written with bits inverted. One that is uncorrectable is not written. -/
def heddleInject (n : Fin 4) (s : State) : State :=
  testOp n 2 (fun m loc s =>
    let lost := !s.hed.due.contains (m, loc) && hedJudge (s.hedStored m loc) == .uncorrectable
    let s1 := hedJudged m loc 3 false s
    if lost then s1 else
    (hedPut m loc (codeWord (s1.hedAt m loc) ^^^ s.testFlip) s1).modHed (fun h => { h with due := h.due.filter (· != (m, loc)) })) s

def execHeddleInject (n : Fin 4) (s : State) : Host.Outcome State Fault Refusal := .next (heddleInject n s)

/-- HEDDLE_DATA_ONLY. -/
def heddleDataOnly (n : Fin 4) (s : State) : State :=
  testOp n 3 (fun m loc s => hedPut m loc (chkOf (s.hedStored m loc) ++ s.testData) s) s

def execHeddleDataOnly (n : Fin 4) (s : State) : Host.Outcome State Fault Refusal := .next (heddleDataOnly n s)

/-- HEDDLE_CHECK_ONLY. -/
def heddleCheckOnly (n : Fin 4) (s : State) : State :=
  testOp n 4 (fun m loc s =>
    hedPut m loc (BitVec.ofNat 16 (s.getF Reg.HED_TEST_CHK Fld.HED_TEST_CHK_CHK) ++ dataOf (s.hedStored m loc)) s) s

def execHeddleCheckOnly (n : Fin 4) (s : State) : Host.Outcome State Fault Refusal := .next (heddleCheckOnly n s)

end Sys2Proof.Machine
end

