-- ==== Sys2Proof/Machine/RegRead.lean ====
section
/-! DEFINITION. What a read of a register shows (R4, R6, R7, R422 to R425): the index of registers, the windows that selection registers
govern, and the values that a register shows of other state. -/

namespace Sys2Proof.Machine

/-! ### The index (R422) -/

/-- The block instance and the replica that an address names in a row of the index. -/
def RegDesc.find (d : RegDesc) (a : Nat) : Option (Nat × Nat) :=
  if a < d.base then none
  else
    let i := (a - d.base) / 0x10000
    let r := (a - d.base) % 0x10000
    if d.blocks ≤ i then none
    else if d.stride = 0 then (if r = 0 then some (i, 0) else none)
    else if r % d.stride = 0 ∧ r / d.stride < d.count then some (i, r / d.stride)
    else none

/-- The row of the register at an address, with its instance and replica; none where the address holds no register. -/
def regAt (a : Nat) : Option (RegDesc × Nat × Nat) := regTable.findSome? (fun d => (d.find a).map (fun x => (d, x.1, x.2)))

/-- Bits of a register whose field `p` accepts. -/
def RegDesc.mask (d : RegDesc) (p : FldDesc → Bool) : Nat :=
  d.fields.foldl (fun m f => if p f then m ||| (⟨f.hi, f.lo⟩ : Fld).mask else m) 0

/-! ### Geometry and clocks (R7, R424) -/

/-- The image declares the unit that a register belongs to. -/
def State.declared (s : State) (base i r : Nat) : Bool :=
  let act (k : Nat) : Bool := s.bit Reg.GLB_GEOM (8 + k)
  let hda (k : Nat) : Bool := s.bit Reg.GLB_GEOM k
  if 0x200000 ≤ base ∧ base < 0x300000 then act i
  else if 0x300000 ≤ base ∧ base < 0x400000 then hda i
  else if base = Reg.UST_LU 0 then (s.luCfg r).isSome
  else if base = Reg.UST_ACT 0 ∨ base = Reg.SCH_ACT_STAT 0 ∨ base = Reg.SCH_ACT_AGE 0 ∨ base = Reg.SCH_ACT_WORK 0 ∨ base = Reg.SCH_ACT_CNT 0 then act r
  else if base = Reg.UST_HDA 0 ∨ base = Reg.GLB_BU 0 ∨ base = Reg.CAL_HDA 0 then hda r
  else true

/-- The island of a Shed unit's or a channel's register is clocked. -/
def State.regClocked (s : State) (base i : Nat) : Bool :=
  if 0x200000 ≤ base ∧ base < 0x300000 then
    if base % 0x10000 < 0x200 then s.acu[Fin.ofNat 16 i].clocked else s.chan[Fin.ofNat 16 i].clocked
  else if 0x300000 ≤ base ∧ base < 0x400000 then s.scu[Fin.ofNat 8 i].clocked
  else true

/-! ### Selections (R423, R425) -/

/-- Registers of which each session has its own copy, by the base of their row; the captured halves stand apart. -/
def sessionCopy (base : Nat) : Bool :=
  [Reg.ACU_SKEW_SEL 0, Reg.ACU_PRECOMP_SEL 0, Reg.ACU_FR_SEL 0, Reg.ACU_CLE_SEL 0, Reg.SCU_CLE_SEL 0, Reg.JQ_SEL, Reg.INT_LU_SEL, Reg.INT_CTX_SEL,
   Reg.SCH_LU_SEL, Reg.CREEL_POOL_SEL, Reg.SHU_CH_SEL, Reg.SHU_PROG_SEL, Reg.ZT_SEL, Reg.CIP_KEY_SEL, Reg.FLT_SEL, Reg.HED_MACRO_SEL,
   Reg.ER_HIST_SEL, Reg.ER_PROF_SEL, Reg.PROT_ANCHOR_SEL, Reg.UST_SEL, Reg.ER_RD_ADDR, Reg.ER_RD_CTRL, Reg.ER_RD_DATA 0].contains base

/-- Where a session's captured high half stands. -/
def capKey (n a : Nat) : Nat := bank (32 + n) a

/-- The selection register at an address: a session's own copy, or its reset value, zero, for the snapshot engine. -/
def State.selWord (s : State) (n : Option (Fin 4)) (a : Nat) : Word :=
  match n with | some n => s.reg (bank n.val a) | none => 0#32

/-- The recording zone that a session's FR_SEL selects, if actuator a has it. -/
def State.selZone (s : State) (n : Option (Fin 4)) (a : Fin 16) : Option Nat :=
  let z := Fld.ACU_FR_SEL_RZONE.get (s.selWord n (Reg.ACU_FR_SEL a.val))
  if z < s.cfg.acts[a].zones.length then some z else none

/-- The head and zone that a selection word names, as one number, if the actuator has them. -/
def State.selHeadZone (s : State) (a : Fin 16) (w : Word) : Option Nat :=
  let hd := Fld.ACU_SKEW_SEL_HEAD.get w
  let z := Fld.ACU_SKEW_SEL_RZONE.get w
  if hd < s.cfg.acts[a].heads ∧ z < s.cfg.acts[a].zones.length then some (hd * 64 + z) else none

def State.selLu (s : State) (n : Option (Fin 4)) (selReg : Nat) : Nat := (s.selWord n selReg).toNat % 256

def State.luKey (s : State) (u a : Nat) : Option Nat := if (s.luCfg u).isSome then some (bank u a) else none

/-- Where the register table keeps the register of a row at an address, as session n's selections have it; none where a selection names
nothing. -/
def State.regKey (s : State) (n : Option (Fin 4)) (base i a : Nat) : Option Nat :=
  let act : Fin 16 := Fin.ofNat 16 i
  let sel (r : Nat) : Nat := (s.selWord n r).toNat
  if sessionCopy base then n.map (fun n => bank n.val a)
  else if base = Reg.FLT_SEV ∨ base = Reg.FLT_SRC_CNT then
    let src := sel Reg.FLT_SEL
    if srcUsed src then some (bank src a) else none
  else if base = Reg.ER_HIST_CFG ∨ base = Reg.ER_HIST_BASE ∨ base = Reg.ER_HIST_MIN ∨ base = Reg.ER_HIST_MAX ∨ base = Reg.ER_HIST_MAXT_LO
      ∨ base = Reg.ER_HIST_MAXT_HI ∨ base = Reg.ER_HIST_BIN 0 then some (bank (sel Reg.ER_HIST_SEL) a)
  else if base = Reg.ER_PROF_ENTRY then
    let w := s.selWord n Reg.ER_PROF_SEL
    some (bank (Fld.ER_PROF_SEL_PROF.get w * 32 + Fld.ER_PROF_SEL_ENTRY.get w) a)
  else if base = Reg.INT_LU_BOB ∨ base = Reg.INT_LU_CTX ∨ base = Reg.INT_LU_USE_BOB ∨ base = Reg.INT_LU_USE_CTX then s.luKey (s.selLu n Reg.INT_LU_SEL) a
  else if base = Reg.SCH_LU_WT then s.luKey (s.selLu n Reg.SCH_LU_SEL) a
  else if Reg.CREEL_POOL_BASE ≤ base ∧ base ≤ Reg.CREEL_POOL_CNT2 then some (bank (sel Reg.CREEL_POOL_SEL) a)
  else if base = Reg.SHU_CH_STAT ∨ base = Reg.SHU_CH_ERR then some (bank (sel Reg.SHU_CH_SEL) a)
  else if base = Reg.SHU_PROG_INFO then some (bank (sel Reg.SHU_PROG_SEL) a)
  else if base = Reg.CIP_KEY_STAT then some (bank (s.selLu n Reg.CIP_KEY_SEL) a)
  else if base = Reg.HED_REMAP 0 then
    let m := sel Reg.HED_MACRO_SEL
    if m < 204 then some (bank m a) else none
  else if base = Reg.ACU_FR_CFG 0 then (s.selZone n act).map (fun z => bank z a)
  else if base = Reg.ACU_PRECOMP_DATA 0 then (s.selHeadZone act (s.selWord n (Reg.ACU_PRECOMP_SEL i))).map (fun k => bank k a)
  else some a

/-! ### Values shown of other state (R18, R29) -/

/-- 32 bits of a list of bytes, from byte 4i on. -/
def wordOfBytes (l : List Byte) (i : Nat) : Nat := leNat ((l.drop (4 * i)).take 4)

/-- Seconds since a session's last message. -/
def State.sessIdle (s : State) (n : Fin 4) : Nat := (s.now - s.sess[n].lastMsg) / 1000000

def State.sessWord (s : State) (n : Fin 4) : Nat :=
  let x := s.sess[n]
  if x.phase = .opened then 1 + 2 * x.role.rank + 8 * (if x.anchored then x.slot else 0) + 65536 * min 65535 (s.sessIdle n) else 0

/-- The word that JQ_SEL names. -/
def State.jqWord (s : State) (w : Word) : BitVec 128 :=
  let t := s.jq[Fin.ofNat 64 (Fld.JQ_SEL_STORE.get w)]
  match (if Fld.JQ_SEL_BANK.get w = 1 then t.staging else t.active) with
  | some p => p.words.getD (Fld.JQ_SEL_WORD.get w) 0#128
  | none => 0#128

def State.jqStat (s : State) (q : Fin 64) : Nat :=
  let t := s.jq[q]
  let p := match t.active with | some p => p.iface % 256 + 256 * (if isPick q then 0 else p.layout % 256) | none => 0
  p + 2 ^ 16 * b2n t.stgValid + 2 ^ 17 * b2n t.armed + 2 ^ 18 * b2n t.waitIdle + 2 ^ 19 * b2n (s.storeFailed q.val) + 2 ^ 20 * b2n t.held

/-- Commands still in progress with a block on a unit (R399). -/
def Ctx.onUnit (x : Ctx) (k : UnitKind) (i : Nat) : Bool :=
  match k with
  | .lu => x.lu == i
  | .act => x.segs.any (fun g => g.act == i)
  | .hda => x.segs.any (fun g => g.act / 2 == i)

def State.onUnit (s : State) (k : UnitKind) (i : Nat) : List Nat :=
  (s.intake.ctxs.filter (fun e => decide (e.2.port < 2) && !e.2.reserve && e.2.state != .linger && e.2.onUnit k i)).map (·.1)

def State.drainOf (s : State) (k : UnitKind) (i : Nat) : Option Drain := s.drains.find? (fun d => d.kind == k && d.index == i)

/-- Time to a drain's deadline, in units of 100 ms. -/
def State.drainLeft (s : State) (d : Drain) : Nat :=
  match d.deadline with | none => 0xFFFF | some t => t - (s.now - d.started) / 100000

def unitKind : Nat → Option UnitKind | 0 => some .lu | 1 => some .act | 2 => some .hda | _ => none

def State.drainWord (s : State) (w : Word) : Nat :=
  match unitKind (Fld.UST_SEL_KIND.get w) with
  | none => 0
  | some k =>
    let i := Fld.UST_SEL_INDEX.get w
    match s.drainOf k i with
    | none => 0
    | some d => min 65535 (s.onUnit k i).length + 65536 * s.drainLeft d

def State.cipStat (s : State) : Nat :=
  let busy := (List.finRange 4).foldl (fun n k => n + 2 ^ k.val * b2n (s.cip.cores[k]).isSome) 0
  let queued := (s.shu.cipherOut.toList.map (·.length)).sum + (s.shu.cipherIn.toList.map (·.length)).sum
  busy + 16 * b2n (!s.cip.derivQ.isEmpty) + 32 * min 127 s.cip.derived.length + 4096 * min 2047 queued

/-- The control-law registers of a unit, for the loop, stage and item of a selection word (R101 to R104). -/
def State.cleWord (s : State) (u : ShedUnit) (w : Word) (off : Nat) : Nat :=
  let l := s.loopOf u (Fin.ofNat 4 (Fld.ACU_CLE_SEL_LOOP.get w))
  if off = 4 then l.itemValue (Fld.ACU_CLE_SEL_STAGE.get w) (Fld.ACU_CLE_SEL_ITEM.get w)
  else if off = 8 then l.bypass.toNat + 4096 * (l.nstage % 16) + 65536 * b2n (!l.waiting.isEmpty)
  else l.stageSat.toNat + 4096 * b2n l.outSat

/-- The value of a register that shows other state than the register table keeps; none for one that the table keeps. -/
def State.shownWord (s : State) (n : Option (Fin 4)) (base i r : Nat) : Option Nat :=
  let sel (a : Nat) : Word := s.selWord n a
  let cap (a : Nat) : Nat := match n with | some n => (s.reg (capKey n.val a)).toNat | none => 0
  if base = Reg.GLB_GEOM then some (if s.bitF Reg.GLB_READY Fld.GLB_READY_IMAGE then (s.reg Reg.GLB_GEOM).toNat else 0)
  else if base = Reg.GLB_BU 0 then
    let h : Hda := Fin.ofNat 8 r
    let t := if s.power.buRun[h] then min 65535 ((s.now - s.power.buStart[h]) / 10000) else 0
    some ((s.reg (Reg.GLB_BU r)).toNat % 65536 + 65536 * t)
  else if base = Reg.PROT_SESS 0 then some (s.sessWord (Fin.ofNat 4 r))
  else if base = Reg.PROT_ANCHOR_CMD then
    let w := sel Reg.PROT_ANCHOR_SEL
    some ((s.reg Reg.PROT_ANCHOR_CMD).toNat % 64
      + 64 * b2n (s.anchorAt (Fld.PROT_ANCHOR_SEL_ROLE.get w) (Fld.PROT_ANCHOR_SEL_SLOT.get w)).isSome)
  else if base = Reg.FLT_SEV then
    let src := Fld.FLT_SEL_SRC.get (sel Reg.FLT_SEL)
    some (if srcUsed src then (s.reg (bank src base)).toNat % 8 + 16 * srcMin src + 256 * ((s.reg (bank src base)).toNat / 256 % 32) + 65536 * srcDefault src else 0)
  else if base = Reg.ER_TIME_LO then some (s.stamp % 2 ^ 32)
  else if base = Reg.ER_TIME_HI ∨ base = Reg.ER_HIST_MAXT_HI then some (cap base)
  else if base = Reg.JQ_DATA0 then some ((s.jqWord (sel Reg.JQ_SEL)).toNat % 2 ^ 32)
  else if base = Reg.JQ_DATA1 then some ((s.jqWord (sel Reg.JQ_SEL)).toNat / 2 ^ 32 % 2 ^ 32)
  else if base = Reg.JQ_DATA2 then some ((s.jqWord (sel Reg.JQ_SEL)).toNat / 2 ^ 64 % 2 ^ 32)
  else if base = Reg.JQ_DATA3 then
    some (if isPick (Fin.ofNat 64 (Fld.JQ_SEL_STORE.get (sel Reg.JQ_SEL))) then 0 else (s.jqWord (sel Reg.JQ_SEL)).toNat / 2 ^ 96)
  else if base = Reg.JQ_VER_ACT then
    some (match (s.jq[Fin.ofNat 64 (Fld.JQ_SEL_STORE.get (sel Reg.JQ_SEL))]).active with | some p => p.ver.toNat | none => 0)
  else if base = Reg.JQ_VER_STG then
    let t := s.jq[Fin.ofNat 64 (Fld.JQ_SEL_STORE.get (sel Reg.JQ_SEL))]
    some (match t.staging with | some p => (if t.stgValid then p.ver.toNat else 0) | none => 0)
  else if base = Reg.JQ_STAT then some (s.jqStat (Fin.ofNat 64 (Fld.JQ_SEL_STORE.get (sel Reg.JQ_SEL))))
  else if base = Reg.INT_CTX_DATA 0 then some (wordOfBytes (s.ctxShown (sel Reg.INT_CTX_SEL).toNat) r)
  else if base = Reg.SCH_LU_DEF then
    let w := sel Reg.SCH_LU_SEL
    let u := Fld.SCH_LU_SEL_LU.get w
    let a : Act := Fin.ofNat 16 (Fld.SCH_LU_SEL_ACT.get w)
    some (if (s.luCfg u).isSome then twos 24 (s.defNow a u) + 2 ^ 24 * b2n (s.backlogged a u) else 0)
  else if base = Reg.CREEL_HBM then some ((s.reg Reg.CREEL_HBM).toNat % 16 + 256 * (Config.hbmTemp s.now).toNat)
  else if base = Reg.ZT_DESC 0 then
    let g := Fld.ZT_SEL_ZONE.get (sel Reg.ZT_SEL)
    some (if (s.luOfZone g).isSome then wordOfBytes (s.zoneBytes g) r else 0)
  else if base = Reg.CIP_STAT then some s.cipStat
  else if base = Reg.CV_RUN_LO 0 then some (if s.cvBound r then 0 else (s.reg (Reg.CV_RUN_LO r)).toNat)
  else if base = Reg.CV_RUN_HI 0 then some (if s.cvBound r then 0 else cap (Reg.CV_RUN_HI r))
  else if base = Reg.CV_RESULT_HI 0 then some (cap (Reg.CV_RESULT_HI r))
  else if base = Reg.ACU_CLE_DATA 0 ∨ base = Reg.ACU_CLE_CTRL 0 ∨ base = Reg.ACU_CLE_SAT 0 then
    some (s.cleWord (.acu (Fin.ofNat 16 i)) (sel (Reg.ACU_CLE_SEL i)) (base % 256))
  else if base = Reg.SCU_CLE_DATA 0 ∨ base = Reg.SCU_CLE_CTRL 0 ∨ base = Reg.SCU_CLE_SAT 0 then
    some (s.cleWord (.scu (Fin.ofNat 8 i)) (sel (Reg.SCU_CLE_SEL i)) (base % 256))
  else if base = Reg.ACU_CH_CTRL 0 then
    let low := match s.selZone n (Fin.ofNat 16 i) with | some z => (s.reg (bank z (Reg.ACU_CH_CTRL i))).toNat % 4096 | none => 0
    some (low + 4096 * ((s.reg (Reg.ACU_CH_CTRL i)).toNat / 4096))
  else if base = Reg.ACU_SKEW_DATA 0 then
    let a : Act := Fin.ofNat 16 i
    some (match s.selHeadZone a (sel (Reg.ACU_SKEW_SEL i)) with | some k => (sget 0#32 s.chan[a].skewShown k).toNat | none => 0)
  else if base = Reg.UST_DRAIN then some (s.drainWord (sel Reg.UST_SEL))
  else none

/-- The word a read shows, as session n's selections have it (none: as the snapshot engine reads it). -/
def State.readWord (s : State) (n : Option (Fin 4)) (a : Nat) : Word :=
  match regAt a with
  | none => 0#32
  | some (d, i, r) =>
    if !s.declared d.base i r || !s.regClocked d.base i then 0#32
    else
      let v := match s.shownWord n d.base i r with
        | some v => v
        | none => match s.regKey n d.base i a with
          | some k => (s.reg k).toNat
          | none => 0
      BitVec.ofNat 32 (v &&& d.mask (fun f => f.acc != .wo))

/-- The register at an address belongs to an island that is not clocked (R416). -/
def State.noClock (s : State) (a : Nat) : Bool :=
  match regAt a with
  | none => false
  | some (d, i, _) => !s.regClocked d.base i

/-! ### What a read of a message does beside (R4, R5, R6, R8, R319, R389, R390, R426) -/

/-- Captured high halves: the read register and the one that shows the half, with its value. -/
def State.capture (s : State) (n : Option (Fin 4)) (base r : Nat) : Option (Nat × Nat) :=
  if base = Reg.ER_TIME_LO then some (Reg.ER_TIME_HI, s.stamp / 2 ^ 32)
  else if base = Reg.ER_HIST_MAXT_LO then
    some (Reg.ER_HIST_MAXT_HI, (s.reg (bank ((s.selWord n Reg.ER_HIST_SEL).toNat) Reg.ER_HIST_MAXT_HI)).toNat)
  else if base = Reg.CV_RUN_LO 0 then some (Reg.CV_RUN_HI r, (s.reg (Reg.CV_RUN_HI r)).toNat)
  else if base = Reg.CV_RESULT_LO 0 then some (Reg.CV_RESULT_HI r, (s.reg (Reg.CV_RESULT_HI r)).toNat)
  else none

/-- A READ of one register in session n: the word, with its RC fields cleared after it and its high half captured. A pool's PEAK rises to
the present value again. -/
def readReg (n : Fin 4) (a : Nat) (s : State) : Word × State :=
  let w := s.readWord (some n) a
  match regAt a with
  | none => (w, s)
  | some (d, i, r) =>
    if !s.declared d.base i r || !s.regClocked d.base i then (w, s)
    else
      let rc := d.mask (fun f => f.acc == .rc)
      let s0 := match s.regKey (some n) d.base i a with
        | some k => if rc = 0 then s else s.setReg k (s.reg k &&& ~~~(BitVec.ofNat 32 rc))
        | none => s
      let p := (s.selWord (some n) Reg.CREEL_POOL_SEL).toNat
      let s1 := if d.base = Reg.CREEL_POOL_PEAK then s0.setF (bank p Reg.CREEL_POOL_PEAK) Fld.CREEL_POOL_PEAK_PEAK (s.poolSize p - s.poolFree p) else s0
      match s1.capture (some n) d.base r with
      | some (k, v) => (w, s1.setReg (capKey n.val k) (BitVec.ofNat 32 v))
      | none => (w, s1)

end Sys2Proof.Machine
end

