-- ==== Sys2Proof/Machine/Recorder.lean ====
section
/-! DEFINITION. The commands of the event recorder (chapter 22): the ring in flash, snapshots, histograms, clearing, and the read window. -/

namespace Sys2Proof.Machine

/-! ### Bytes of the region (R411, R412) -/

def markBytes : List Byte := leBytes 4 0x5AA50FF0

/-- A record with its mark. -/
def Rec.bytes (r : Rec) : List Byte :=
  let n := recLen r.payload.length
  let b := leBytes 2 r.typ ++ leBytes 2 n ++ leBytes 4 r.seq ++ leBytes 8 r.time ++ padTo (n - 24) r.payload
  b ++ leBytes 4 (crc32c b).toNat ++ markBytes

/-- A sector's header. -/
def RingSector.header (x : RingSector) : List Byte :=
  let b := leBytes 4 0x52455943 ++ leBytes 4 x.sseq ++ leBytes 4 x.first ++ zeros 12
  b ++ leBytes 4 (crc32c b).toNat ++ markBytes

/-- The bytes of a sector; what has not been programmed is erased. -/
def RingSector.bytes (x : RingSector) : List Byte :=
  let b := x.header ++ x.recs.flatMap Rec.bytes
  b ++ List.replicate (4096 - b.length) 0xFF#8

/-- `n` bytes of the region from an offset in one sector. -/
def State.regionBytes (s : State) (off n : Nat) : List Byte :=
  match s.rcd.ring.find? (fun x => x.pos == off / 4096) with
  | some x => (x.bytes.drop (off % 4096)).take n
  | none => List.replicate n 0xFF#8

/-! ### Programming (R411, R417) -/

/-- An image is in force, the append point is known, and no pass of the loader runs. -/
def State.mayProgram (s : State) : Bool :=
  s.loomRuns && s.bitF Reg.GLB_READY Fld.GLB_READY_IMAGE && s.bitF Reg.ER_STAT Fld.ER_STAT_READY
    && (match s.loader with | .checking _ _ => false | .applying _ _ => false | _ => true)

/-- The sector in use. -/
def newestSector (l : List RingSector) : Option RingSector :=
  l.foldl (fun (b : Option RingSector) x => match b with
    | none => some x
    | some y => if y.sseq < x.sseq then some x else some y) none

def RingSector.used (x : RingSector) : Nat := 32 + (x.recs.map (fun r => recLen r.payload.length)).sum

/-- A CLEAR record that clears the log. -/
def Rec.clearsLog (r : Rec) : Bool := r.typ == 0x0007 && (match r.payload with | b :: _ => decide (2 ≤ b.toNat) | [] => false)

/-- Begin erasing sectors of the ring, in the order given. -/
def eraseSectors (ps : List Nat) (d : Recorder) : Recorder :=
  { d with ring := d.ring.filter (fun x => !ps.contains x.pos), erasing := d.erasing ++ ps }

/-- Open a sector with a record in it, and erase the sector after it; none while that sector is not erased. -/
def openSector (pos sseq : Nat) (r : Rec) (d : Recorder) : Option Recorder :=
  if d.erasing.contains pos || d.ring.any (fun x => x.pos == pos) then none
  else
    let next := (pos + 1) % 2048
    let d1 := { d with ring := d.ring ++ [⟨pos, sseq, r.seq, [r]⟩] }
    some (if d1.ring.any (fun x => x.pos == next) then eraseSectors [next] d1 else d1)

/-- Put a record behind the newest one; the record that clears the log opens a sector. -/
def appendRec (r : Rec) (d : Recorder) : Option Recorder :=
  match newestSector d.ring with
  | none => openSector 0 0 r d
  | some x =>
    if !r.clearsLog && decide (x.used + recLen r.payload.length ≤ 4096) then
      some { d with ring := d.ring.map (fun y => if y.pos = x.pos then { y with recs := y.recs ++ [r] } else y) }
    else openSector ((x.pos + 1) % 2048) (x.sseq + 1) r d

/-- The sectors that a clear erases: every one but the newest, oldest first. -/
def olderSectors (l : List RingSector) : List Nat :=
  match newestSector l with
  | none => []
  | some x => ((l.filter (fun y => y.pos != x.pos)).mergeSort (fun a b => decide (a.sseq ≤ b.sseq))).map (·.pos)

/-- A clear has erased everything: a checkpoint follows it (R420). -/
def clearDone (s : State) : State :=
  if s.rcd.clearing.isSome && s.rcd.erasing.isEmpty then
    checkpoint ((s.modRcd (fun d => { d with clearing := none })).setB Reg.ER_STAT Fld.ER_STAT_ERASING false)
  else s

/-- The record at the head of the buffer is programmed and marked valid. -/
def programRec (s : State) : State :=
  match s.rcd.buf with
  | [] => s
  | r :: t =>
    match appendRec r s.rcd with
    | none => s
    | some d =>
      let s1 := showBuf ((s.modRcd (fun _ => { d with buf := t })).setReg Reg.ER_SEQ (BitVec.ofNat 32 r.seq))
      if r.clearsLog then
        clearDone ((s1.modRcd (fun d => { eraseSectors (olderSectors d.ring) d with clearing := some r.seq })).setB Reg.ER_STAT Fld.ER_STAT_ERASING true)
      else s1

/-- RECORDER_PROGRAM_DONE. -/
def execRecorderProgramDone (s : State) : Host.Outcome State Fault Refusal := .next (if s.mayProgram then programRec s else s)

/-- RECORDER_ERASE_DONE: the sector whose erase began first is erased. -/
def execRecorderEraseDone (s : State) : Host.Outcome State Fault Refusal :=
  .next (if s.loomRuns then clearDone (s.modRcd (fun d => { d with erasing := d.erasing.drop 1 })) else s)

/-! ### The scan (R413, R420) -/

/-- Histogram n as a checkpoint has it; where an image is in force and its set-up differs, what the checkpoint counted stays out. -/
def restoreHist (n : Nat) (l : List Byte) (s : State) : State :=
  let f (o k : Nat) : Nat := fieldAt l o k
  let cfg := BitVec.ofNat 32 (f 0 1 % 16 + 2 ^ 4 * f 1 1 + 2 ^ 12 * (f 2 1 % 32))
  let base := BitVec.ofNat 32 (f 4 4)
  let same := decide (s.reg (bank n Reg.ER_HIST_CFG) = cfg) && decide (s.reg (bank n Reg.ER_HIST_BASE) = base)
  if s.bitF Reg.GLB_READY Fld.GLB_READY_IMAGE && !same then s
  else
    let put (r o : Nat) (s : State) : State := s.setReg (bank n r) (BitVec.ofNat 32 (f o 4))
    let s1 := (s.setReg (bank n Reg.ER_HIST_CFG) cfg).setReg (bank n Reg.ER_HIST_BASE) base
    let s2 := put Reg.ER_HIST_MAXT_HI 20 (put Reg.ER_HIST_MAXT_LO 16 (put Reg.ER_HIST_MAX 12 (put Reg.ER_HIST_MIN 8 s1)))
    (List.range 32).foldl (fun s i => put (Reg.ER_HIST_BIN i) (24 + 4 * i) s) s2

/-- The self-test results of a checkpoint, newest first; the parameter of a result ends its hours with FF bytes. -/
def selftestsOf (l : List Byte) : List (Nat × Nat × Nat) :=
  ((List.range 20).filter (fun i => fieldAt l (20 * i + 8) 1 == 0xFF)).map (fun i =>
    (fieldAt l (20 * i + 4) 1 / 32, fieldAt l (20 * i + 4) 1 % 32, beNat ((l.drop (20 * i + 6)).take 2)))

/-- The newest CHECKPOINT restores its values. -/
def restoreCheckpoint (l : List Byte) (s : State) : State :=
  let s1 := (List.range 16).foldl (fun s n => restoreHist n (l.drop (152 * n)) s) s
  let s2 : State := { s1 with intake := { s1.intake with selftests := selftestsOf (l.drop 2432) } }
  s2.modRcd (fun d => { d with maxHda := signed 8 (fieldAt l 2832 1), maxDie := signed 8 (fieldAt l 2833 1), clearGen := fieldAt l 2836 4 })

/-- Records older than the newest CLEAR of the log are gone, and their sectors are erased. -/
def finishClear (d : Recorder) : Recorder :=
  match (d.ring.flatMap (·.recs)).foldl (fun n r => if r.clearsLog then max n (r.seq + 1) else n) 0 with
  | 0 => d
  | n + 1 =>
    let d1 := eraseSectors ((d.ring.filter (fun x => x.recs.all (fun r => decide (r.seq < n)))).map (·.pos)) d
    { d1 with ring := d1.ring.map (fun x => { x with recs := x.recs.filter (fun r => decide (n ≤ r.seq)) }) }

/-- RECORDER_SCAN_DONE. -/
def recorderScan (s : State) : State :=
  if s.loomRuns && !s.bitF Reg.ER_STAT Fld.ER_STAT_READY then
    let s1 := (s.modRcd finishClear).setB Reg.ER_STAT Fld.ER_STAT_READY true
    let last := (s1.rcd.ring.flatMap (·.recs)).foldl (fun (b : Option Rec) r => if r.typ ≠ 0x0008 then b else match b with
      | none => some r
      | some x => if x.seq < r.seq then some r else some x) none
    match last with
    | some r => restoreCheckpoint r.payload s1
    | none => s1
  else s

def execRecorderScanDone (s : State) : Host.Outcome State Fault Refusal := .next (recorderScan s)

/-! ### Snapshots (R415, R416, R425) -/

/-- The addresses a profile lists, in order. -/
def State.profileAddrs (s : State) (t : Nat) : List Nat :=
  ((List.range 32).map (fun e => s.reg (profKey t e))).filterMap (fun w =>
    if Fld.ER_PROF_ENTRY_USED.get w = 1 then some (Fld.ER_PROF_ENTRY_ADDR.get w / 4 * 4) else none)

/-- SNAPSHOT_START: the snapshot that has waited longest takes its profile's list. -/
def execSnapshotStart (s : State) : Host.Outcome State Fault Refusal :=
  .next (match s.rcd.running, s.rcd.snaps with
    | none, x :: t => if s.loomRuns then s.modRcd (fun d => { d with running := some { x with addrs := s.profileAddrs x.profile }, snaps := t }) else s
    | _, _ => s)

/-- An entry of a FAULT record: the address, NOCLK, the value. -/
def State.snapEntry (s : State) (a : Nat) : List Byte := leBytes 4 (a + 2 ^ 24 * b2n (s.noClock a)) ++ leBytes 4 (s.readWord none a).toNat

/-- A FAULT payload's head with NREG in it. -/
def withNreg (head : List Byte) (n : Nat) : List Byte := head.take 5 ++ leBytes 1 n ++ head.drop 6

/-- SNAPSHOT_DONE: the record of the raise is written, with the values its profile's registers had. -/
def snapshotDone (s : State) : State :=
  match s.rcd.running with
  | none => s
  | some x =>
    let body := x.addrs.flatMap s.snapEntry
    record x.rcd.typ x.rcd.time (withNreg x.rcd.payload x.addrs.length ++ body) (s.modRcd (fun d => { d with running := none }))

def execSnapshotDone (s : State) : Host.Outcome State Fault Refusal := .next (if s.loomRuns then snapshotDone s else s)

/-! ### Time (R410, R419, R420) -/

/-- CHECKPOINT_TIMER: CHKPT_MIN minutes have passed. -/
def execCheckpointTimer (s : State) : Host.Outcome State Fault Refusal := .next (if s.loomRuns then checkpoint s else s)

/-- A second of the timestamp. -/
def tickSecond (d : Recorder) : Recorder :=
  if 3599 ≤ d.secs then { d with secs := 0, hours := (d.hours + 1) % 2 ^ 28 } else { d with secs := d.secs + 1 }

/-- What is sampled of HDA h each second. -/
def sampleHda (h : Hda) (s : State) : State :=
  if !s.hasHda h then s else
  let temp := signed 8 (s.getF (Reg.CAL_HDA h.val) Fld.CAL_HDA_TEMP)
  let s1 := if s.scu[h].state = .run then sample 7 h.val ((s.scu[h].speed16 : Int) - (s.target16 h : Int)) s else s
  let s2 := sample 9 h.val temp (sample 8 h.val (s1.scu[h].vbus : Int) s1)
  s2.modRcd (fun d => { d with maxHda := max d.maxHda temp })

/-- RECORDER_SECOND: the seconds run while PG_MAIN is high; the Loom samples while it runs. -/
def recorderSecond (s : State) : State :=
  if s.power.released && s.power.mainHi then
    let s1 := s.modRcd tickSecond
    if s1.loomRuns then
      let die := Config.dieTemp s1.now
      (sample 10 0 die (forHdas sampleHda s1)).modRcd (fun d => { d with maxDie := max d.maxDie die })
    else s1
  else s

def execRecorderSecond (s : State) : Host.Outcome State Fault Refusal := .next (recorderSecond s)

/-! ### Clearing (R421) -/

/-- A CLEAR record: its scope, the session's role and anchor slot, the oldest and the newest SEQ removed. -/
def clearRecord (n : Fin 4) (scope oldest newest : Nat) (s : State) : State :=
  recordNow 0x0007 (leBytes 1 scope ++ leBytes 1 s.sess[n].role.rank ++ leBytes 1 s.sess[n].slot ++ leBytes 4 oldest ++ leBytes 4 newest) s

/-- Every histogram and extreme is cleared. -/
def clearHists (s : State) : State :=
  ((List.range 16).foldl (fun s n => clearHist n s) s).modRcd (fun d => { d with maxHda := -128, maxDie := -128, clearGen := (d.clearGen + 1) % 2 ^ 32 })

/-- SEQ of the oldest record kept or waiting. -/
def State.oldestSeq (s : State) : Nat :=
  ((s.rcd.ring.flatMap (·.recs)) ++ s.rcd.buf).foldl (fun n r => min n r.seq) s.rcd.nextSeq

/-- The CLEAR record of the log goes behind what waits to be written. -/
def clearLog (n : Fin 4) (scope : Nat) (s : State) : State :=
  let first := s.rcd.nextSeq + (if s.rcd.lostNow = 0 then 0 else 1)
  clearRecord n scope s.oldestSeq (first - 1) s

def erClear (n : Fin 4) (scope : Nat) (s : State) : State :=
  match scope with
  | 1 => checkpoint (clearRecord n 1 0 0 (clearHists s))
  | 2 => clearLog n 2 s
  | 3 => clearLog n 3 (clearHists s)
  | _ => s

/-- ER_CLEAR_HIST: in a Keeper session. -/
def execErClearHist (n : Fin 4) (s : State) : Host.Outcome State Fault Refusal := .next (if s.may n .keeper then erClear n 1 s else s)
/-- ER_CLEAR_LOG. -/
def execErClearLog (n : Fin 4) (s : State) : Host.Outcome State Fault Refusal := .next (if s.may n .keeper then erClear n 2 s else s)
/-- ER_CLEAR_BOTH. -/
def execErClearBoth (n : Fin 4) (s : State) : Host.Outcome State Fault Refusal := .next (if s.may n .keeper then erClear n 3 s else s)

/-! ### The read window (R411, R423) -/

/-- GO: a read of the session's window begins, unless one is in progress. -/
def erReadGo (n : Fin 4) (s : State) : State := s.setB (bank n.val Reg.ER_RD_CTRL) Fld.ER_RD_CTRL_BUSY true

/-- ER_READ_GO. -/
def execErReadGo (n : Fin 4) (s : State) : Host.Outcome State Fault Refusal := .next (if s.may n .operator then erReadGo n s else s)

/-- ER_READ_DONE: 64 bytes from OFFSET. -/
def erReadDone (n : Fin 4) (s : State) : State :=
  if s.loomRuns && s.bitF (bank n.val Reg.ER_RD_CTRL) Fld.ER_RD_CTRL_BUSY then
    let b := s.regionBytes (s.getF (bank n.val Reg.ER_RD_ADDR) Fld.ER_RD_ADDR_OFFSET / 64 * 64) 64
    let s1 := (List.range 16).foldl (fun s i => s.setReg (bank n.val (Reg.ER_RD_DATA i)) (BitVec.ofNat 32 (wordOfBytes b i))) s
    s1.setB (bank n.val Reg.ER_RD_CTRL) Fld.ER_RD_CTRL_BUSY false
  else s

def execErReadDone (n : Fin 4) (s : State) : Host.Outcome State Fault Refusal := .next (erReadDone n s)

/-! ### Configuration of a histogram (R419) -/

/-- A word for a histogram's CFG or BASE; a QTY of 11 to 15 is ignored. -/
def writeHist (k : Nat) (base : Bool) (w : Word) (s : State) : State :=
  if base then setHist k (s.reg (bank k Reg.ER_HIST_CFG)) w s
  else
    let q := Fld.ER_HIST_CFG_QTY.get w
    let old := s.reg (bank k Reg.ER_HIST_CFG)
    let v := w &&& 0x1FFFF#32
    setHist k (if 11 ≤ q then Fld.ER_HIST_CFG_QTY.set v (Fld.ER_HIST_CFG_QTY.get old) else v) (s.reg (bank k Reg.ER_HIST_BASE)) s

/-- HIST_CONFIG_WRITE: of the histogram that the session has selected, in a Keeper session. -/
def execHistConfigWrite (n : Fin 4) (base : Bool) (w : Word) (s : State) : Host.Outcome State Fault Refusal :=
  .next (if s.may n .keeper then writeHist (s.reg (bank n.val Reg.ER_HIST_SEL)).toNat base w s else s)

end Sys2Proof.Machine
end

