-- ==== Sys2Proof/Machine/RegWrite.lean ====
section
/-! DEFINITION. What a write of a register does (R4 to R7, R389): the fields that a mask touches, each by its access code, and the action
that a field triggers at its unit. Also the anchors that PROT_ANCHOR_CMD changes (R392). -/

namespace Sys2Proof.Machine

/-! ### Anchors (R392) -/

/-- The 48 staged digest bytes. -/
def State.stagedDigest (s : State) : List Byte := (List.range 12).flatMap (fun i => leBytes 4 (s.reg (Reg.PROT_ANCHOR_DIG i)).toNat)

def anchorResult (r : Nat) (s : State) : State := s.setF Reg.PROT_ANCHOR_CMD Fld.PROT_ANCHOR_CMD_RESULT r

/-- The role and slot that session n has selected. -/
def State.anchorSel (s : State) (n : Fin 4) : Nat × Nat :=
  let w := s.reg (bank n.val Reg.PROT_ANCHOR_SEL)
  (Fld.PROT_ANCHOR_SEL_ROLE.get w, Fld.PROT_ANCHOR_SEL_SLOT.get w)

/-- An entry of the journal is written for the anchor; the command is done with its VALID byte (R393). -/
def anchorJob (role slot : Nat) (digest : List Byte) (s : State) : State :=
  let s1 := { s with mgmt := { s.mgmt with anchorJob := some ⟨role, slot, digest⟩ } }
  journalPut 1 0 0xF0 (role * 4 + slot) digest (some .anchor) ((anchorResult 0 s1).setB Reg.PROT_ANCHOR_CMD Fld.PROT_ANCHOR_CMD_BUSY true)

def anchorInstall (n : Fin 4) (s : State) : State :=
  let (role, slot) := s.anchorSel n
  let d := s.stagedDigest
  if role = 0 then s
  else if d.all (· == 0#8) then anchorResult 4 s
  else if (s.anchorAt role slot).isSome then anchorResult 3 s
  else anchorJob role slot d (sessionRecord n 2 (role * 4 + slot) s)

def anchorRemove (n : Fin 4) (s : State) : State :=
  let (role, slot) := s.anchorSel n
  if role = 0 then s
  else if role = 3 ∧ (s.anchorAt role slot).isSome = true ∧ s.keeperAnchors ≤ 1 then anchorResult 2 s
  else anchorJob role slot [] (sessionRecord n 3 (role * 4 + slot) s)

/-- The installed digest goes to staging; an empty slot leaves staging as it is. -/
def anchorCopy (n : Fin 4) (s : State) : State :=
  let (role, slot) := s.anchorSel n
  if role = 0 then s
  else match s.anchorAt role slot with
    | some d => anchorResult 1 ((List.range 12).foldl (fun s i => s.setReg (Reg.PROT_ANCHOR_DIG i) (BitVec.ofNat 32 (wordOfBytes d i))) s)
    | none => anchorResult 1 s

/-- OP of PROT_ANCHOR_CMD; ignored while BUSY. -/
def anchorCmd (n : Fin 4) (op : Nat) (s : State) : State :=
  if s.bitF Reg.PROT_ANCHOR_CMD Fld.PROT_ANCHOR_CMD_BUSY then s
  else match op with
    | 1 => anchorInstall n s
    | 2 => anchorRemove n s
    | 3 => anchorCopy n s
    | _ => s

/-- ANCHOR_INSTALL. -/
def execAnchorInstall (n : Fin 4) (s : State) : Host.Outcome State Fault Refusal := .next (if s.may n .keeper then anchorCmd n 1 s else s)
/-- ANCHOR_REMOVE. -/
def execAnchorRemove (n : Fin 4) (s : State) : Host.Outcome State Fault Refusal := .next (if s.may n .keeper then anchorCmd n 2 s else s)
/-- ANCHOR_COPY. -/
def execAnchorCopy (n : Fin 4) (s : State) : Host.Outcome State Fault Refusal := .next (if s.may n .keeper then anchorCmd n 3 s else s)

/-! ### Who may write a field (R385, R390) -/

/-- Registers whose WO fields are refused outside a Keeper session. -/
def keeperWo (base : Nat) : Bool :=
  [Reg.GLB_BU_CFG, Reg.GLB_RST, Reg.PROT_ANCHOR_CMD, Reg.ER_CLEAR, Reg.JQ_ACT, Reg.CIP_KEY_CMD, Reg.CIP_KEY_DATA 0, Reg.CIP_REKEY_CMD].contains base

/-- A field that only a Keeper session may write; of JQ_ACT that is every field that can be written (R165). -/
def keeperField (base : Nat) (f : FldDesc) : Bool :=
  match f.acc with
  | .rwk => true
  | .wo => keeperWo base
  | .w1c => base == Reg.JQ_ACT
  | _ => false

/-- A write with this mask at an address names a field that only a Keeper may write. -/
def keeperOnly (a : Nat) (m : Word) : Bool :=
  match regAt a with
  | none => false
  | some (d, _, _) => d.fields.any (fun f => keeperField d.base f && (m.toNat &&& (⟨f.hi, f.lo⟩ : Fld).mask) != 0)

/-! ### Fields by their access codes (R4, R389) -/

/-- The word that acts: in fields that read back, bits outside the mask keep their present value; the others are 0 there. -/
def RegDesc.acting (d : RegDesc) (cur m v : Word) : Word :=
  let keep := BitVec.ofNat 32 (d.mask (fun f => match f.acc with | .rw => true | .rwk => true | _ => false))
  let all := BitVec.ofNat 32 (d.mask (fun _ => true))
  ((cur &&& keep &&& ~~~m) ||| (v &&& m)) &&& all

/-- The table's word after a write: RW and RWK bits are set, W1C bits with a 1 are cleared, W1S bits with a 1 are set. -/
def RegDesc.after (d : RegDesc) (old x : Word) : Word :=
  let m (p : Access → Bool) : Word := BitVec.ofNat 32 (d.mask (fun f => p f.acc))
  let rw := m (fun a => a == .rw || a == .rwk)
  ((old &&& ~~~rw &&& ~~~(m (· == .w1c) &&& x)) ||| (rw &&& x)) ||| (m (· == .w1s) &&& x)

/-- The fields of a row that a mask touches, as a mask. -/
def touches (f : Fld) (m : Word) : Bool := (m.toNat &&& f.mask) != 0

/-! ### Actions (R6, R8) -/

/-- Pending bits are cleared: what their sources applied is forgotten, and units they degraded are Ready again (R340, R345). -/
def clearPending (i : Nat) (x : Word) (s : State) : State :=
  let hit (k : Nat) : Bool := k % 256 / 32 == i && x.getLsbD (k % 32)
  refreshUst (refreshDegraded { s with applied := sdrop hit s.applied })

/-- A control-law register of a unit (R103, R104); whether its loop is computing as the write lands is a free value (log entry 22). -/
def writeCle (n : Fin 4) (u : ShedUnit) (off : Nat) (m x : Word) (s : State) : State :=
  let busy := Config.cleBusy s.free
  let l := s.cleLoop n u
  if off = 4 then advanceCle n u (landCleData n u x busy { s with free := s.free + 1 })
  else if off = 8 then
    if touches Fld.ACU_CLE_CTRL_BYPASS m then
      ({ s with free := s.free + 1 }).setLoop u l ((s.loopOf u l).land (.bypass (BitVec.ofNat 12 x.toNat)) busy)
    else s
  else
    let p := s.loopOf u l
    s.setLoop u l { p with stageSat := p.stageSat &&& ~~~(BitVec.ofNat 12 x.toNat), outSat := p.outSat && !x.getLsbD 12 }

/-- CMD of SCU[h]_CTRL, in Maintenance of the HDA (R395). -/
def scuCmd (h : Hda) (cmd : Nat) (s : State) : State :=
  if s.getF (Reg.UST_HDA h) Fld.UST_HDA_ADM ≠ 3 then s
  else refreshUst (match cmd with
    | 1 => if s.power.mbusHi then scuRun h s else s
    | 2 => scuStop h s
    | 3 => scuCoastCmd h s
    | _ => s)

/-- ITER_MAX and ITER_MAX_RETRY of the selected zone, and ADAPT_RESET, beside the fields of CH_CTRL that the table keeps. -/
def writeChCtrl (n : Fin 4) (a : Act) (x : Word) (s : State) : State :=
  let k := Reg.ACU_CH_CTRL a
  let s1 := match s.selZone (some n) a with
    | some z => (s.setF (bank z k) Fld.ACU_CH_CTRL_ITER_MAX (Fld.ACU_CH_CTRL_ITER_MAX.get x)).setF (bank z k) Fld.ACU_CH_CTRL_ITER_MAX_RETRY
        (Fld.ACU_CH_CTRL_ITER_MAX_RETRY.get x)
    | none => s
  let s2 := (s1.setF k Fld.ACU_CH_CTRL_RETRY_EN (Fld.ACU_CH_CTRL_RETRY_EN.get x)).setF k Fld.ACU_CH_CTRL_ADAPT_FREEZE (Fld.ACU_CH_CTRL_ADAPT_FREEZE.get x)
  if Fld.ACU_CH_CTRL_ADAPT_RESET.get x = 1 then s2.modChan a (fun c => { c with adaptReset := true }) else s2

/-- A write of HED_TEST_CMD. -/
def hedTest (n : Fin 4) (op : Nat) (s : State) : State :=
  match op with
  | 1 => heddleRawRead n s
  | 2 => heddleInject n s
  | 3 => heddleDataOnly n s
  | 4 => heddleCheckOnly n s
  | _ => s.setF Reg.HED_TEST_CMD Fld.HED_TEST_CMD_OP op

/-- A write of a Treadle limit that is ignored (R106): zero, or one that would leave VMAX below AMAX² / JMAX. -/
def State.trdIgnored (s : State) (base : Nat) (a : Act) (x : Word) : Bool :=
  let get (r : Nat) (f : Fld) (own : Nat) : Nat := f.get (if base = own then x else s.reg r)
  let v := get (Reg.ACU_TRD_VMAX a) Fld.ACU_TRD_VMAX_LIMIT (Reg.ACU_TRD_VMAX 0)
  let m := get (Reg.ACU_TRD_AMAX a) Fld.ACU_TRD_AMAX_LIMIT (Reg.ACU_TRD_AMAX 0)
  let j := get (Reg.ACU_TRD_JMAX a) Fld.ACU_TRD_JMAX_LIMIT (Reg.ACU_TRD_JMAX 0)
  (base == Reg.ACU_TRD_VMAX 0 || base == Reg.ACU_TRD_AMAX 0 || base == Reg.ACU_TRD_JMAX 0)
    && (v == 0 || m == 0 || j == 0 || decide (v * j < m ^ 2))

/-- Registers whose whole write is the unit's own; none for those that the table keeps, whose actions follow the write. -/
def ownWrite (n : Fin 4) (base i r : Nat) (m x : Word) (s : State) : Option State :=
  let a : Act := Fin.ofNat 16 i
  let h : Hda := Fin.ofNat 8 i
  if base = Reg.PROT_ANCHOR_CMD then some (anchorCmd n (Fld.PROT_ANCHOR_CMD_OP.get x) s)
  else if base = Reg.FLT_SEV then some (writeSeverity (s.fltSel n) x s)
  else if base = Reg.FLT_ERRN then some (if x.getLsbD 0 then errnHoldClear s else s)
  else if base = Reg.ER_CLEAR then some (erClear n (Fld.ER_CLEAR_SCOPE.get x) s)
  else if base = Reg.ER_RD_CTRL then some (if x.getLsbD 0 then erReadGo n s else s)
  else if base = Reg.ER_HIST_CFG then some (writeHist (s.reg (bank n.val Reg.ER_HIST_SEL)).toNat false x s)
  else if base = Reg.ER_HIST_BASE then some (writeHist (s.reg (bank n.val Reg.ER_HIST_SEL)).toNat true x s)
  else if base = Reg.INT_LU_BOB then some (quotaWrite (s.getF (bank n.val Reg.INT_LU_SEL) Fld.INT_LU_SEL_LU) false x s)
  else if base = Reg.INT_LU_CTX then some (quotaWrite (s.getF (bank n.val Reg.INT_LU_SEL) Fld.INT_LU_SEL_LU) true x s)
  else if base = Reg.SHU_CH_CTRL then
    some (if x.getLsbD 0 then clearCh (Fin.ofNat 64 (s.getF (bank n.val Reg.SHU_CH_SEL) Fld.SHU_CH_SEL_CH)) s else s)
  else if base = Reg.TMP_MAINT then some (templeMaint x s)
  else if base = Reg.CIP_KEY_CMD then
    some (match Fld.CIP_KEY_CMD_OP.get x with
      | 1 => keyLoadCmd n (BitVec.ofNat 24 (Fld.CIP_KEY_CMD_KCV.get x)) s
      | 2 => keyClearCmd n s
      | _ => s)
  else if base = Reg.CIP_KEY_DATA 0 then some { s with cip := { s.cip with staged := s.cip.staged.set (Fin.ofNat 8 r) x } }
  else if base = Reg.CIP_REKEY_CMD then some (if x.getLsbD 0 then rekeyCmd s else s)
  else if base = Reg.CV_FEED 0 then some (cvFeed r x s)
  else if base = Reg.CV_CTRL 0 then some (cvCtrl r x s)
  else if base = Reg.CV_RUN_LO 0 then some (cvRunLo r x s)
  else if base = Reg.CV_RUN_HI 0 then some (cvRunHi r x s)
  else if Reg.CV_CFG 0 ≤ base ∧ base ≤ Reg.CV_XOR_HI 0 ∧ s.cvBound r = true then some s
  else if base = Reg.HED_TEST_CMD then some (if touches Fld.HED_TEST_CMD_OP m then hedTest n (Fld.HED_TEST_CMD_OP.get x) s else s)
  else if base = Reg.ACU_CLE_DATA 0 ∨ base = Reg.ACU_CLE_CTRL 0 ∨ base = Reg.ACU_CLE_SAT 0 then some (writeCle n (.acu a) (base % 256) m x s)
  else if base = Reg.SCU_CLE_DATA 0 ∨ base = Reg.SCU_CLE_CTRL 0 ∨ base = Reg.SCU_CLE_SAT 0 then some (writeCle n (.scu h) (base % 256) m x s)
  else if base = Reg.ACU_CH_CTRL 0 then some (writeChCtrl n a x s)
  else if base = Reg.ACU_PA_ACC 0 then some (writePaAcc a x s)
  else if base = Reg.SCU_CTRL 0 then
    some (scuCmd h (Fld.SCU_CTRL_CMD.get x) (if touches Fld.SCU_CTRL_TARGET m then writeTarget h (Fld.SCU_CTRL_TARGET.get x) s else s))
  else if base = Reg.SCU_CHOP 0 then some (writeChop h x s)
  else if s.trdIgnored base a x then some s
  else none

/-- What a write of a register that the table keeps triggers, once its fields are set. -/
def afterWrite (base i r : Nat) (x : Word) (s : State) : State :=
  let a : Act := Fin.ofNat 16 i
  if base = Reg.GLB_BU_CFG then (if Fld.GLB_BU_CFG_START.get x = 1 then buStart s else s)
  else if base = Reg.GLB_RST then
    let s1 := if Fld.GLB_RST_MOT_GO.get x = 1 then motionGo s else s
    if Fld.GLB_RST_SOFT.get x = 1 then qualifyReset true s1 else s1
  else if base = Reg.FLT_PEND 0 then clearPending r x s
  else if base = Reg.CAL_CMD then
    let s1 := if Fld.CAL_CMD_GO.get x = 1 then calGo s else s
    if Fld.CAL_CMD_ABORT.get x = 1 then calAbort s1 else s1
  else if base = Reg.JQ_ACT then
    let s1 := if Fld.JQ_ACT_ARM.get x = 1 then armStores s else s
    if Fld.JQ_ACT_ABORT.get x = 1 then disarm s1 else s1
  else if Reg.CV_CFG 0 ≤ base ∧ base ≤ Reg.CV_XOR_HI 0 then refreshCv r s
  else if base = Reg.ACU_WI_STAT 0 then refreshWi a s
  else if base = Reg.ACU_PARK_CTRL 0 then (if Fld.ACU_PARK_CTRL_PARK.get x = 1 then triggerPark a 2 s else s)
  else s

/-- A write of the register at an address in session n; the bits of `m` act (R389). A write to no register, to a unit the image does not
declare, to an island that is not clocked, or through a selection that names nothing is ignored. -/
def writeReg (n : Fin 4) (a : Nat) (m v : Word) (s : State) : State :=
  match regAt a with
  | none => s
  | some (d, i, r) =>
    if !s.declared d.base i r || !s.regClocked d.base i || (m.toNat &&& d.mask (fun _ => true)) == 0 then s
    else
      let x := d.acting (s.readWord (some n) a) m v
      match ownWrite n d.base i r m x s with
      | some t => t
      | none =>
        match s.regKey (some n) d.base i a with
        | none => s
        | some k => afterWrite d.base i r x (s.setReg k (d.after (s.reg k) x))

end Sys2Proof.Machine
end

