-- ==== Sys2Proof/Machine/UnitAdmin.lean ====
section
/-! DEFINITION. Administrative states (R395 to R399): UNIT_STATE, drains, and the return to service; and how every register-access message is
checked and answered (R387, R388). -/

namespace Sys2Proof

open Machine (leNat)

/-! ### The fields of a register-access message (R2, R387) -/

def RegMsg.ver (m : RegMsg) : Byte := m.bytes.getD 0 0#8
def RegMsg.op (m : RegMsg) : Byte := m.bytes.getD 1 0#8
def RegMsg.seq (m : RegMsg) : Byte := m.bytes.getD 2 0#8
def RegMsg.count (m : RegMsg) : Byte := m.bytes.getD 3 0#8
def RegMsg.addr (m : RegMsg) : Nat := leNat ((m.bytes.drop 4).take 4)
def RegMsg.data (m : RegMsg) : List Byte := m.bytes.drop 8

/-- The request in the 8-byte STATE field of a UNIT_STATE (R396). -/
def RegMsg.state (m : RegMsg) : UnitStateReq :=
  let l := m.data
  ⟨l.getD 0 0#8, l.getD 1 0#8, l.getD 2 0#8, BitVec.ofNat 16 (leNat ((l.drop 3).take 2)), BitVec.ofNat 16 (leNat ((l.drop 5).take 2)), l.getD 7 0#8⟩

end Sys2Proof

namespace Sys2Proof.Machine

/-! ### Answers (R380, R387, R388) -/

/-- A message is queued for the bus. -/
def answer (m : MgmtMsg) (s : State) : State := { s with mgmt := { s.mgmt with ready := s.mgmt.ready ++ [m] } }

/-- A register-access response: VER, OP + 0x80, SEQ, the completion code, and what follows. -/
def regAnswer (n : Option (Fin 4)) (m : RegMsg) (cc : Nat) (data : List Byte) (s : State) : State :=
  answer (.regs n ([0x01#8, m.op + 0x80#8, m.seq, BitVec.ofNat 8 cc] ++ data)) s

/-- The endpoint answers: the Loom runs and MGMT is set (R380). -/
def State.mgmtUp (s : State) : Bool := s.loomRuns && s.bitF Reg.GLB_READY Fld.GLB_READY_MGMT

/-- A message of session n has arrived (R384). -/
def touchSess (n : Fin 4) (s : State) : State := { s with sess := s.sess.set n { s.sess[n] with lastMsg := s.now } }

/-- Run a message: outside a session it is answered with `out`; a secured message of a session that is not open is discarded. -/
def inSession (n : Option (Fin 4)) (out : State → State) (run : Fin 4 → State → State) (s : State) : State :=
  if !s.mgmtUp then s
  else match n with
    | none => out s
    | some k => if s.isOpen k then run k (touchSess k s) else s

/-- The checks of R388 on a message's header: the code of the first that fails. `op` is the operation, `most` its greatest COUNT, `least` its
least, `per` the data bytes for each register, `extra` for the message. -/
def headCheck (m : RegMsg) (op least most per extra : Nat) : Option Nat :=
  let c := m.count.toNat
  if m.ver ≠ 0x01#8 ∨ m.op.toNat ≠ op then some 0x04
  else if m.bytes.length < 8 ∨ c < least ∨ most < c ∨ m.data.length ≠ per * c + extra then some 0x03
  else if m.addr % 4 ≠ 0 ∨ 0x1000000 < m.addr + 4 * c ∨ 0x1000000 ≤ m.addr then some 0x02
  else none

/-! ### Administrative states (R394, R395, R397) -/

def State.gen (s : State) (k : UnitKind) (i : Nat) : Nat := s.getF (ustKey k i) Fld.UST_LU_GEN

def bumpGen (k : UnitKind) (i : Nat) (s : State) : State := s.setF (ustKey k i) Fld.UST_LU_GEN ((s.gen k i + 1) % 65536)

/-- A change of the administrative state. -/
def setAdm (k : UnitKind) (i v : Nat) (s : State) : State :=
  if s.adm k i = v then s else bumpGen k i (s.setF (ustKey k i) Fld.UST_LU_ADM v)

/-- The unit's target is saved with its generation (R393). -/
def saveAdm (k : UnitKind) (i target : Nat) (s : State) : State :=
  journalPut 2 0 (ustCode k) i (leBytes 1 target ++ leBytes 2 (s.gen k i)) none s

/-- The image declares the unit. -/
def State.hasUnit (s : State) (k : UnitKind) (i : Nat) : Bool :=
  match k with
  | .lu => (s.luCfg i).isSome
  | .act => decide (i < 16) && s.bit Reg.GLB_GEOM (8 + i)
  | .hda => decide (i < 8) && s.bit Reg.GLB_GEOM i

/-- The state report of R396. -/
def State.report (s : State) (k : UnitKind) (i : Nat) : List Byte :=
  if !s.hasUnit k i then zeros 8 else
  let t := match s.drainOf k i with | some d => d.target | none => 0xFF
  leBytes 1 (s.getF (ustKey k i) Fld.UST_LU_OP) ++ leBytes 1 (s.adm k i) ++ leBytes 1 t ++ leBytes 2 (s.gen k i) ++ zeros 3

/-- A unit with an ACU or an SCU in HALTED. -/
def State.unitHalted (s : State) (k : UnitKind) (i : Nat) : Bool :=
  match k with
  | .lu => false
  | .act => s.acu[Fin.ofNat 16 i].state == .halted
  | .hda => s.anyHalted (Fin.ofNat 8 i)

def Acu.parked (u : Acu) : Bool := u.state == .ramp || u.state == .parking

/-- A parked actuator runs bring-up from LOAD, and a Failed one under R373, once its HDA is at speed; with its HDA out of service it waits for the
HDA's return. Its media channel, where that stayed halted, takes jobs again (R261). -/
def returnAct (a : Act) (s : State) : State :=
  let h := hdaOf a
  let failed := s.ownState .act a.val == .failed
  let s1 := clearCh (mediaCh a) (dropCond .act a.val cStopped s)
  if s1.hdaOut h || !(s1.acu[a].parked || failed) then s1
  else
    let going := s1.power.buRun[h]
    let s2 := addCond .act a.val cBecoming s1
    let s3 := if going then s2 else s2.modPower (fun p => { p with buRun := p.buRun.set h true, buStart := p.buStart.set h s.now })
    let s4 := setPhase a 8 s3
    if s4.spinOf h = 4 ∧ s4.scu[h].state = .run then enterLoad a s4
    else if going then s4
    else beginSpin h s4

/-- The unit returns to service (R395). -/
def returnUnit (k : UnitKind) (i : Nat) (s : State) : State :=
  match k with
  | .lu => dropCond .lu i cFailed s
  | .act => returnAct (Fin.ofNat 16 i) s
  | .hda =>
    let h : Hda := Fin.ofNat 8 i
    let failed := s.ownState .hda i == .failed
    let stopped := s.condBits .hda i / cStopped % 2 == 1
    let s1 := (dropCond .hda i cStopped s).modPower (fun p => { p with hdaStop := p.hdaStop.set h false })
    if failed || stopped then restartBringup failed h ((s1.actsIn h).foldl (fun s a => clearCh (mediaCh a) s) s1)
    else (s1.actsOf h).foldl (fun s a => returnAct a s) s1

/-- What a unit that has drained to its target does. -/
def leaveService (k : UnitKind) (i target : Nat) (s : State) : State :=
  match k with
  | .lu => s
  | .act => if target = 2 then triggerPark (Fin.ofNat 16 i) 1 (addCond .act i cStopped s) else s
  | .hda =>
    let h : Hda := Fin.ofNat 8 i
    let s1 := triggerPark (highAct h) 1 (triggerPark (lowAct h) 1 s)
    if target = 2 then
      hdaStopCheck h ((addCond .hda i cStopped s1).modPower (fun p => { p with hdaStop := p.hdaStop.set h true }))
    else s1

/-! ### Drains (R399) -/

/-- At the deadline every command still in progress ends. -/
def drainAbort (k : UnitKind) (i : Nat) (s : State) : State :=
  let l := s.onUnit k i
  doomWhere (fun _ c _ => l.contains c) (sense keyAborted 0x82 0x03) (s.addF Reg.UST_CNT Fld.UST_CNT_DRAIN_ABORT l.length)

def dropDrain (k : UnitKind) (i : Nat) (s : State) : State := { s with drains := s.drains.filter (fun d => !(d.kind == k && d.index == i)) }

/-- A drain begins, or takes another target. -/
def beginDrain (k : UnitKind) (i target t : Nat) (s : State) : State :=
  let s1 := if (s.drainOf k i).isSome then bumpGen k i s else setAdm k i 1 s
  let s2 := dropDrain k i s1
  let s3 := saveAdm k i target { s2 with drains := s2.drains ++ [⟨k, i, target, if t = 0xFFFF then none else some t, s2.now⟩] }
  if t = 0 then drainAbort k i s3 else s3

/-- The end of a drain: the unit takes its target (R398). -/
def drainComplete (k : UnitKind) (i : Nat) (s : State) : State :=
  match s.drainOf k i with
  | some d =>
    if s.loomRuns && (s.onUnit k i).isEmpty then
      let s1 := setAdm k i d.target (dropDrain k i s)
      let s2 := refreshUst (leaveService k i d.target s1)
      saveAdm k i d.target s2
    else s
  | none => s

/-- DRAIN_DEADLINE. -/
def execDrainDeadline (k : UnitKind) (i : Fin 256) (s : State) : Host.Outcome State Fault Refusal :=
  .next (match s.drainOf k i.val with
    | some d => if d.deadline.isSome then drainAbort k i.val s else s
    | none => s)

/-- DRAIN_COMPLETE. -/
def execDrainComplete (k : UnitKind) (i : Fin 256) (s : State) : Host.Outcome State Fault Refusal := .next (drainComplete k i.val s)

/-- A return to service, from a drain or from the state that a drain led to. -/
def returnToService (k : UnitKind) (i : Nat) (s : State) : State :=
  saveAdm k i 0 (refreshUst (returnUnit k i (setAdm k i 0 (dropDrain k i s))))

/-! ### UNIT_STATE (R396, R397) -/

/-- The completion code of a request, of the first check that fails. -/
def State.unitCheck (s : State) (n : Fin 4) (st : UnitStateReq) : Nat :=
  match unitKind st.kind.toNat with
  | none => 0x06
  | some k =>
    let i := st.index.toNat
    let t := st.target.toNat
    let failed := s.ownState k i == .failed
    if !s.hasUnit k i then 0x06
    else if s.gen k i ≠ st.expGen.toNat then 0x05
    else if t ≠ 0 ∧ t ≠ 2 ∧ t ≠ 3 then 0x06
    else if s.adm k i = t ∨ (match s.drainOf k i with | some d => d.target == t | none => false) = true then 0x06
    else if t = 0 ∧ s.unitHalted k i = true then 0x06
    else if t = 0 ∧ failed = true ∧ s.sess[n].role ≠ .keeper then 0x01
    else 0x00

/-- The request is applied. -/
def applyUnit (st : UnitStateReq) (s : State) : State :=
  match unitKind st.kind.toNat with
  | none => s
  | some k =>
    if st.target = 0#8 then returnToService k st.index.toNat s
    else beginDrain k st.index.toNat st.target.toNat st.drainT.toNat s

def State.reportOf (s : State) (st : UnitStateReq) : List Byte :=
  match unitKind st.kind.toNat with | some k => s.report k st.index.toNat | none => zeros 8

/-- A UNIT_STATE of session n. -/
def unitState (m : RegMsg) (n : Fin 4) (s : State) : State :=
  match headCheck m 0x04 0 0 0 8 with
  | some cc => regAnswer (some n) m cc [] s
  | none =>
    if !s.may n .operator then regAnswer (some n) m 0x01 [] s
    else
      let st := m.state
      let cc := s.unitCheck n st
      let s1 := if cc = 0 then applyUnit st s else if cc = 0x05 then s.incF Reg.UST_CNT Fld.UST_CNT_MISMATCH else s
      regAnswer (some n) m cc (s1.reportOf st) s1

/-- UNIT_STATE (R396): a message of a header and the bytes of STATE. -/
def execUnitState (n : Option (Fin 4)) (m : RegMsg) (st : List Byte) (s : State) : Host.Outcome State Fault Refusal :=
  .next (inSession n (regAnswer none ⟨m.bytes ++ st⟩ 0x01 []) (unitState ⟨m.bytes ++ st⟩) s)

/-! ### READ, WRITE, WRITE_MASKED (R387, R389) -/

/-- Read registers in ascending address order. -/
def readRegs (n : Fin 4) (addr : Nat) : Nat → State → List Byte × State
  | 0, s => ([], s)
  | c + 1, s =>
    let r := readReg n addr s
    let t := readRegs n (addr + 4) c r.2
    (leBytes 4 r.1.toNat ++ t.1, t.2)

/-- Write registers in ascending address order. -/
def writeRegs (n : Fin 4) (addr : Nat) : List Word → State → State
  | [], s => s
  | w :: t, s => writeRegs n (addr + 4) t (writeReg n addr 0xFFFFFFFF#32 w s)

/-- The words of a message's data. -/
def wordsIn : Nat → List Byte → List Word
  | 0, _ => []
  | c + 1, l => BitVec.ofNat 32 (leNat (l.take 4)) :: wordsIn c (l.drop 4)

/-- A CMD of SCU[h]_CTRL outside Maintenance of its HDA (R395). -/
def State.cmdRefused (s : State) (a : Nat) (m v : Word) : Bool :=
  match regAt a with
  | some (d, i, _) =>
    let c := Fld.SCU_CTRL_CMD.get (v &&& m)
    d.base == Reg.SCU_CTRL 0 && s.declared d.base i 0 && s.regClocked d.base i && decide (1 ≤ c) && decide (c ≤ 3) && s.adm .hda i != 3
  | none => false

/-- The code that a write of these words is refused with, before any is written: 0x01 for the session's role, 0x06 for a spindle command
that the unit's state does not permit. -/
def State.writeCheck (s : State) (n : Fin 4) (l : List (Nat × Word × Word)) : Nat :=
  if !s.may n .operator || (!s.may n .keeper && l.any (fun e => keeperOnly e.1 e.2.1)) then 0x01
  else if l.any (fun e => s.cmdRefused e.1 e.2.1 e.2.2) then 0x06
  else 0x00

/-- A READ of session n. -/
def regRead (m : RegMsg) (n : Fin 4) (s : State) : State :=
  match headCheck m 0x01 1 64 0 0 with
  | some cc => regAnswer (some n) m cc [] s
  | none =>
    let r := readRegs n m.addr m.count.toNat s
    regAnswer (some n) m 0x00 r.1 r.2

/-- REG_READ. -/
def execRegRead (n : Option (Fin 4)) (m : RegMsg) (s : State) : Host.Outcome State Fault Refusal :=
  .next (inSession n (regAnswer none m 0x01 []) (regRead m) s)

/-- A WRITE of session n. -/
def regWrite (m : RegMsg) (n : Fin 4) (s : State) : State :=
  match headCheck m 0x02 1 32 4 0 with
  | some cc => regAnswer (some n) m cc [] s
  | none =>
    let ws := wordsIn m.count.toNat m.data
    let cc := s.writeCheck n (ws.mapIdx (fun i w => (m.addr + 4 * i, 0xFFFFFFFF#32, w)))
    if cc ≠ 0 then regAnswer (some n) m cc [] s else regAnswer (some n) m 0x00 [] (writeRegs n m.addr ws s)

/-- REG_WRITE. -/
def execRegWrite (n : Option (Fin 4)) (m : RegMsg) (s : State) : Host.Outcome State Fault Refusal :=
  .next (inSession n (regAnswer none m 0x01 []) (regWrite m) s)

/-- A WRITE_MASKED of session n: the mask, then the value. -/
def regWriteMasked (m : RegMsg) (n : Fin 4) (s : State) : State :=
  match headCheck m 0x03 1 1 0 8 with
  | some cc => regAnswer (some n) m cc [] s
  | none =>
    let mask := BitVec.ofNat 32 (leNat (m.data.take 4))
    let v := BitVec.ofNat 32 (leNat (m.data.drop 4))
    let cc := s.writeCheck n [(m.addr, mask, v)]
    if cc ≠ 0 then regAnswer (some n) m cc [] s else regAnswer (some n) m 0x00 [] (writeReg n m.addr mask v s)

/-- REG_WRITE_MASKED. -/
def execRegWriteMasked (n : Option (Fin 4)) (m : RegMsg) (s : State) : Host.Outcome State Fault Refusal :=
  .next (inSession n (regAnswer none m 0x01 []) (regWriteMasked m) s)

end Sys2Proof.Machine
end

