-- ==== Sys2Proof/Machine/Sessions.lean ====
section
/-! DEFINITION. The management bus (chapter 20): the I3C target and MCTP endpoint, SPDM requests and sessions, and PLDM. Codes of the published
standards are log entry 24. -/

namespace Sys2Proof.Machine

/-! ### I3C and MCTP (R380, R381) -/

def State.modMgmt (s : State) (f : Endpoint → Endpoint) : State := { s with mgmt := f s.mgmt }

/-- Bits 31 to 0 of the provisional ID, in the random form. -/
def State.provisionalId (s : State) : Word := crc32c s.cfg.dev.serial

/-- I3C_ENTDAA. -/
def execI3cEntdaa (addr : BitVec 7) (s : State) : Host.Outcome State Fault Refusal :=
  .next (if s.mgmtUp then s.modMgmt (fun m => { m with dynAddr := some addr }) else s)

/-- Message types the endpoint accepts. -/
def acceptedType (l : List Byte) : Bool := match l with | t :: _ => [0x00, 0x01, 0x05, 0x06, 0x7F].contains t.toNat | [] => false

def maxMessage : Nat := 1088
def transmissionUnit : Nat := 64

/-- A packet takes its place in the message being reassembled: one that starts a message drops what was there; one out of sequence, and one
that makes the message too long, discard it; the last one completes it. -/
def assemble (p : MctpPacket) (m : Endpoint) : Endpoint :=
  if transmissionUnit < p.body.length then { m with asm := none }
  else
    let got : Option (List Byte) :=
      if p.som then some p.body
      else match m.asm with
        | some (next, l) => if next = p.seq.val ∧ l.length + p.body.length ≤ maxMessage then some (l ++ p.body) else none
        | none => none
    match got with
    | none => { m with asm := none }
    | some l =>
      if p.eom then { m with asm := none, received := if acceptedType l then m.received ++ [l] else m.received }
      else { m with asm := some ((p.seq.val + 1) % 4, l) }

/-- MCTP_PACKET. -/
def execMctpPacket (p : MctpPacket) (s : State) : Host.Outcome State Fault Refusal := .next (if s.mgmtUp then s.modMgmt (assemble p) else s)

/-- IN_BAND_INTERRUPT: the message that has waited longest is read out. -/
def execInBandInterrupt (s : State) : Host.Outcome State Fault Refusal :=
  .next (match s.mgmt.ready with
    | m :: t => if s.mgmtUp && s.mgmt.dynAddr.isSome then s.modMgmt (fun e => { e with ready := t, sent := e.sent ++ [m] }) else s
    | [] => s)

/-- An MCTP control response. -/
def control (code : Nat) (data : List Byte) (s : State) : State := if s.mgmtUp then answer (.control code data) s else s

/-- SET_ENDPOINT_ID: the null and the broadcast identifier are refused. -/
def execSetEndpointId (eid : Byte) (s : State) : Host.Outcome State Fault Refusal :=
  .next (if eid = 0x00#8 ∨ eid = 0xFF#8 then control 0x01 [0x02#8] s
    else if s.mgmtUp then control 0x01 [0x00#8, 0x00#8, eid, 0x00#8] (s.modMgmt (fun m => { m with eid := eid })) else s)

/-- GET_ENDPOINT_ID. -/
def execGetEndpointId (s : State) : Host.Outcome State Fault Refusal := .next (control 0x02 [0x00#8, s.mgmt.eid, 0x00#8, 0x00#8] s)

/-- GET_ENDPOINT_UUID. -/
def execGetEndpointUuid (s : State) : Host.Outcome State Fault Refusal :=
  .next (control 0x03 (0x00#8 :: (List.range 16).map Config.uuid) s)

/-- GET_MCTP_VERSION_SUPPORT. -/
def execGetMctpVersionSupport (t : Byte) (s : State) : Host.Outcome State Fault Refusal :=
  .next (control 0x04 (0x00#8 :: Config.mctpVersions t) s)

/-- GET_MESSAGE_TYPE_SUPPORT: the types of R381. -/
def execGetMessageTypeSupport (s : State) : Host.Outcome State Fault Refusal :=
  .next (control 0x05 [0x00#8, 0x05#8, 0x00#8, 0x01#8, 0x05#8, 0x06#8, 0x7F#8] s)

/-- GET_VENDOR_DEFINED_MESSAGE_SUPPORT: one set, the IANA enterprise number. -/
def execGetVendorDefinedMessageSupport (sel : Byte) (s : State) : Host.Outcome State Fault Refusal :=
  .next (if sel = 0#8 then control 0x06 ([0x00#8, 0xFF#8, 0x01#8] ++ beBytes 4 0x00042F31 ++ [0x00#8, 0x00#8]) s else control 0x06 [0x02#8] s)

/-! ### SPDM outside a session (R382) -/

def spdm (n : Option (Fin 4)) (r : SpdmRsp) (s : State) : State := if s.mgmtUp then answer (.spdm n r) s else s

def errInvalid : Nat := 0x01
def errBusy : Nat := 0x03
def errUnspecified : Nat := 0x05
def errDecrypt : Nat := 0x06

/-- GET_VERSION. -/
def execGetVersion (s : State) : Host.Outcome State Fault Refusal := .next (spdm none .version s)
/-- GET_CAPABILITIES. -/
def execGetCapabilities (s : State) : Host.Outcome State Fault Refusal := .next (spdm none .capabilities s)
/-- NEGOTIATE_ALGORITHMS: `ok` says that the requester offers the algorithms of R382. -/
def execNegotiateAlgorithms (ok : Bool) (s : State) : Host.Outcome State Fault Refusal :=
  .next (spdm none (if ok then .algorithms else .error errInvalid) s)
/-- GET_DIGESTS. -/
def execGetDigests (s : State) : Host.Outcome State Fault Refusal := .next (spdm none .digests s)
/-- GET_CERTIFICATE: the chain is in slot 0. -/
def execGetCertificate (slot offset len : Nat) (s : State) : Host.Outcome State Fault Refusal :=
  .next (spdm none (if slot = 0 then .certificate slot offset len else .error errInvalid) s)
/-- CHALLENGE. -/
def execChallenge (slot : Nat) (nonce : List Byte) (s : State) : Host.Outcome State Fault Refusal :=
  .next (spdm none (if slot = 0 then .challengeAuth slot nonce else .error errInvalid) s)

/-- The measurements of R382. -/
def State.measurement (s : State) (i : Nat) : List Byte :=
  let v := match s.img with | some f => (f.version.toNat, f.svn, f.sha) | none => (0, 0, zeros 48)
  match i with
  | 1 => leBytes 4 v.1 ++ leBytes 4 v.2.1
  | 2 => v.2.2
  | _ => s.jq.toList.flatMap (fun t => leBytes 4 (match t.active with | some p => p.ver.toNat | none => 0))

/-- GET_MEASUREMENTS: index 0 asks for their number, 0xFF for all. -/
def execGetMeasurements (index : Byte) (nonce : List Byte) (s : State) : Host.Outcome State Fault Refusal :=
  .next (
    let i := index.toNat
    let block (k : Nat) : Nat × List Byte := (k, s.measurement k)
    if i = 0 then spdm none (.measurements 3 [] nonce) s
    else if i ≤ 3 then spdm none (.measurements 1 [block i] nonce) s
    else if i = 0xFF then spdm none (.measurements 3 [block 1, block 2, block 3] nonce) s
    else spdm none (.error errInvalid) s)

/-! ### Sessions (R383, R384, R386) -/

def setSess (n : Fin 4) (x : Sess) (s : State) : State := { s with sess := s.sess.set n x }

/-- A session ends; no register and no unit state changes. -/
def closeSess (n : Fin 4) (s : State) : State := setSess n { s.sess[n] with phase := .closed } s

/-- Keys of a session's own copies (R423). -/
def sessionKey (n : Fin 4) (k : Nat) : Bool :=
  let a := keyAddr k
  (k / 0x1000000 == n.val + 1 && (match regAt a with | some (d, _, _) => sessionCopy d.base | none => false))
    || (k / 0x1000000 == n.val + 33 && (a == Reg.ER_TIME_HI || a == Reg.ER_HIST_MAXT_HI
      || (List.range 8).any (fun v => a == Reg.CV_RUN_HI v || a == Reg.CV_RESULT_HI v)))

/-- A session opens: its role is fixed, its copies take their reset values, and nothing is armed in it. -/
def openSess (n : Fin 4) (role : Role) (slot : Nat) (anchored : Bool) (s : State) : State :=
  let s1 : State := { s with regs := sdrop (sessionKey n) s.regs }
  setSess n ⟨.opened, role, slot, anchored, s.now⟩
    (s1.modMgmt (fun m => { m with armed := match m.armed with | some a => if a.sess = n then none else some a | none => none }))

/-- KEY_EXCHANGE: a slot of the four is taken, or the answer is Busy. -/
def keyExchange (mutualAuth : Bool) (s : State) : State :=
  if !s.mgmtUp then s
  else match (List.finRange 4).find? (fun n => s.sess[n].phase == .closed) with
    | some n => spdm none (.keyExchange n mutualAuth) (setSess n ⟨.exchanging mutualAuth, .observer, 0, false, s.now⟩ s)
    | none => spdm none (.error errBusy) s

def execKeyExchange (mutualAuth : Bool) (s : State) : Host.Outcome State Fault Refusal := .next (keyExchange mutualAuth s)

/-- The slot of a role whose anchor is this digest. -/
def State.anchorSlot (s : State) (role : Nat) (d : List Byte) : Option Nat :=
  (List.range 4).find? (fun i => s.anchorAt role i == some d)

/-- A Keeper session is open. -/
def State.keeperOpen (s : State) : Bool := (List.finRange 4).any (fun k => s.isOpen k && s.sess[k].role == .keeper)

def refuseFinish (n : Fin 4) (code : Nat) (s : State) : State := closeSess n (spdm (some n) (.error code) s)
def acceptFinish (n : Fin 4) (role : Role) (slot : Nat) (anchored : Bool) (s : State) : State :=
  spdm (some n) .finish (openSess n role slot anchored s)

/-- The claim of an unclaimed part (R386): the root digest becomes Keeper anchor 0. -/
def claimDevice (n : Fin 4) (d : List Byte) (s : State) : State :=
  let s1 := journalPut 1 0 0xF0 12 d none (s.modMgmt (fun m => { m with claimOpen := false }))
  securityRecord 1 3 0 0 (acceptFinish n .keeper 0 true s1)

/-- FINISH of a session in key exchange. -/
def finishSession (n : Fin 4) (f : FinishMsg) (s : State) : State :=
  if !s.mgmtUp then s
  else match s.sess[n].phase with
    | .exchanging wanted =>
      if !f.verified then refuseFinish n errDecrypt s
      else if !wanted then acceptFinish n .observer 0 false s
      else if !f.mutualAuth then refuseFinish n errInvalid s
      else if s.mgmt.claimOpen && s.keeperAnchors == 0 then claimDevice n f.rootDigest s
      else match s.anchorSlot 3 f.rootDigest, s.anchorSlot 2 f.rootDigest, s.anchorSlot 1 f.rootDigest with
        | some i, _, _ => if s.keeperOpen then refuseFinish n errBusy s else acceptFinish n .keeper i true s
        | none, some i, _ => acceptFinish n .operator i true s
        | none, none, some i => acceptFinish n .observer i true s
        | none, none, none => refuseFinish n errUnspecified s
    | _ => s

def execFinish (n : Fin 4) (f : FinishMsg) (s : State) : Host.Outcome State Fault Refusal := .next (finishSession n f s)

/-- A request inside an open session. -/
def inOpen (n : Fin 4) (run : State → State) (s : State) : State := if s.mgmtUp && s.isOpen n then run (touchSess n s) else s

/-- HEARTBEAT. -/
def execHeartbeat (n : Fin 4) (s : State) : Host.Outcome State Fault Refusal := .next (inOpen n (spdm (some n) .heartbeatAck) s)
/-- KEY_UPDATE. -/
def execKeyUpdate (n : Fin 4) (s : State) : Host.Outcome State Fault Refusal := .next (inOpen n (spdm (some n) .keyUpdateAck) s)
/-- END_SESSION. -/
def execEndSession (n : Fin 4) (s : State) : Host.Outcome State Fault Refusal :=
  .next (inOpen n (fun s => closeSess n (spdm (some n) .endSessionAck s)) s)
/-- SESSION_IDLE_TIMEOUT: no message for twice HB_PERIOD. -/
def execSessionIdleTimeout (n : Fin 4) (s : State) : Host.Outcome State Fault Refusal := .next (closeSess n s)

/-- CLAIM_WINDOW_END. -/
def execClaimWindowEnd (s : State) : Host.Outcome State Fault Refusal := .next (s.modMgmt (fun m => { m with claimOpen := false }))

/-! ### PLDM (R391) -/

def pldm (n : Option (Fin 4)) (typ code : Nat) (data : List Byte) (s : State) : State := answer (.pldm n typ code data) s

/-- PLDM_DISCOVERY: inside a session only. -/
def execPldmDiscovery (n : Option (Fin 4)) (cmd : Byte) (s : State) : Host.Outcome State Fault Refusal :=
  .next (inSession n id (fun k => pldm (some k) 0 cmd.toNat (0x00#8 :: Config.pldmDiscovery cmd)) s)

/-- A monitoring read: the command code, and the reading or none for a sensor that does not exist. -/
def State.monitor (s : State) (q : MonitorQuery) : Nat × Option Nat :=
  match q with
  | .hdaTemp h => (0x11, if s.hasHda h then some (s.getF (Reg.CAL_HDA h.val) Fld.CAL_HDA_TEMP) else none)
  | .dieTemp => (0x11, some (twos 8 (Config.dieTemp s.now)))
  | .vbus h => (0x11, if s.hasHda h then some (s.getF (Reg.SCU_BUS h.val) Fld.SCU_BUS_VBUS) else none)
  | .speed h => (0x11, if s.hasHda h then some (s.getF (Reg.SCU_SPEED h.val) Fld.SCU_SPEED_SPEED) else none)
  | .unitState k i => (0x21, if s.hasUnit k i.val then some (s.getF (ustKey k i.val) Fld.UST_LU_OP) else none)

def monitorRead (q : MonitorQuery) (n : Option (Fin 4)) (s : State) : State :=
  match s.monitor q with
  | (code, some v) => pldm n 2 code (0x00#8 :: leBytes 4 v) s
  | (code, none) => pldm n 2 code [0x80#8] s

/-- PLDM_MONITOR_READ: in a session or outside one. -/
def execPldmMonitorRead (n : Option (Fin 4)) (q : MonitorQuery) (s : State) : Host.Outcome State Fault Refusal :=
  .next (inSession n (monitorRead q none) (fun k => monitorRead q (some k)) s)

/-- A message that needs a Keeper session; in another session it is refused, and changes nothing. -/
def asKeeper (n : Fin 4) (typ code : Nat) (run : State → State) (s : State) : State :=
  inOpen n (fun s => if s.may n .keeper then run s else pldm (some n) typ code [0x01#8] s) s

/-- PLDM_FIRMWARE_TRANSFER (R357): a write of the staging slot. -/
def firmwareTransfer (n : Fin 4) (offset : Nat) (data : List Byte) (s : State) : State :=
  let r := stagingWrite .pldm offset data s
  let cc : Byte := match r.1 with | .done => 0x00#8 | .erasing => 0x00#8 | .badOffset => 0x82#8 | .lostHold => 0x84#8
  pldm (some n) 5 0x15 [cc] r.2

def execPldmFirmwareTransfer (n : Fin 4) (offset : Nat) (data : List Byte) (s : State) : Host.Outcome State Fault Refusal :=
  .next (asKeeper n 5 0x15 (firmwareTransfer n offset data) s)

/-- ACTIVATE_FIRMWARE (R212): one activation at a time. -/
def activateFirmware (n : Fin 4) (s : State) : State :=
  if s.actPhase ≠ 0 then pldm (some n) 5 0x1A [0x84#8] s else pldm (some n) 5 0x1A [0x00#8] (startActivation .mgmt s)

def execActivateFirmware (n : Fin 4) (s : State) : Host.Outcome State Fault Refusal := .next (asKeeper n 5 0x1A (activateFirmware n) s)

/-! ### Irreversible commands (R350, R391) -/

def armTime : Nat := 10000000

/-- An irreversible command: its first arrival arms it, and the same within 10 s in the same session carries it out. -/
def irreversible (n : Fin 4) (code arg : Nat) (run : Endpoint → Endpoint) (s : State) : State :=
  let same := match s.mgmt.armed with
    | some a => a.sess == n && a.code == code && a.arg == arg && decide (s.now ≤ a.at_ + armTime)
    | none => false
  let s1 := if same then s.modMgmt (fun m => { run m with armed := none }) else s.modMgmt (fun m => { m with armed := some ⟨n, code, arg, s.now⟩ })
  pldm (some n) 63 code [0x00#8] s1

/-- OEM_RAISE_SVN_MIN: SVN_MIN only rises. -/
def execOemRaiseSvnMin (n : Fin 4) (v : Nat) (s : State) : Host.Outcome State Fault Refusal :=
  .next (asKeeper n 63 0x01 (irreversible n 0x01 v (fun m => { m with svnMin := max m.svnMin v })) s)

/-- OEM_REVOKE_KEY. -/
def execOemRevokeKey (n : Fin 4) (k : Fin 4) (s : State) : Host.Outcome State Fault Refusal :=
  .next (asKeeper n 63 0x02 (irreversible n 0x02 k.val (fun m => { m with revoked := if m.revoked.contains k.val then m.revoked else m.revoked ++ [k.val] })) s)

/-- OEM_ARM_EXPIRE. -/
def execOemArmExpire (s : State) : Host.Outcome State Fault Refusal := .next (s.modMgmt (fun m => { m with armed := none }))

end Sys2Proof.Machine
end

