-- ==== Sys2Proof/Machine/Families.lean ====
section
/-! DEFINITION. The families of commands, brought together for the dispatch. -/
end

