-- ==== Sys2Proof/Machine/Dispatch.lean ====
section
/-! DEFINITION. One arm for each command: the direct call of its meaning. -/

namespace Sys2Proof.Machine

def exec (i : Instr) (s : State) : Host.Outcome State Fault Refusal :=
  match i with
  | .powerOnRelease mbus => Sys2Proof.Machine.execPowerOnRelease mbus s
  | .pllLock => Sys2Proof.Machine.execPllLock s
  | .hbmTrained ok => Sys2Proof.Machine.execHbmTrained ok s
  | .loaderStart => Sys2Proof.Machine.execLoaderStart s
  | .imageCheckPassDone f => Sys2Proof.Machine.execImageCheckPassDone f s
  | .imageApplyPassDone recheck fills => Sys2Proof.Machine.execImageApplyPassDone recheck fills s
  | .cipherSelfTestDone ok => Sys2Proof.Machine.execCipherSelfTestDone ok s
  | .phyLinkUp port lane rate attached => Sys2Proof.Machine.execPhyLinkUp port lane rate attached s
  | .bringupStart => Sys2Proof.Machine.execBringupStart s
  | .buStart n => Sys2Proof.Machine.execBuStart n s
  | .staggerPlaceFree => Sys2Proof.Machine.execStaggerPlaceFree s
  | .bringupPhaseDone u r => Sys2Proof.Machine.execBringupPhaseDone u r s
  | .bringupWarpTimeout a => Sys2Proof.Machine.execBringupWarpTimeout a s
  | .sysRstQualify => Sys2Proof.Machine.execSysRstQualify s
  | .softReset n => Sys2Proof.Machine.execSoftReset n s
  | .resetDomainEnter => Sys2Proof.Machine.execResetDomainEnter s
  | .sysRstRelease => Sys2Proof.Machine.execSysRstRelease s
  | .loomRestart => Sys2Proof.Machine.execLoomRestart s
  | .motionReset n => Sys2Proof.Machine.execMotionReset n s
  | .motionResetGatesOff h => Sys2Proof.Machine.execMotionResetGatesOff h s
  | .motionResetDone h => Sys2Proof.Machine.execMotionResetDone h s
  | .pgMainFall => Sys2Proof.Machine.execPgMainFall s
  | .pgMainRise => Sys2Proof.Machine.execPgMainRise s
  | .pgMotFall => Sys2Proof.Machine.execPgMotFall s
  | .pgMotRise => Sys2Proof.Machine.execPgMotRise s
  | .pgMbusFall => Sys2Proof.Machine.execPgMbusFall s
  | .pgMbusRise => Sys2Proof.Machine.execPgMbusRise s
  | .mbusRunDelayEnd => Sys2Proof.Machine.execMbusRunDelayEnd s
  | .standbySecond => Sys2Proof.Machine.execStandbySecond s
  | .standbySupplyLoss => Sys2Proof.Machine.execStandbySupplyLoss s
  | .crossingWord x => Sys2Proof.Machine.execCrossingWord x s
  | .sectorBoundary a slot rd => Sys2Proof.Machine.execSectorBoundary a slot rd s
  | .framerMarkFirst a llrs => Sys2Proof.Machine.execFramerMarkFirst a llrs s
  | .framerWindowClose a llrs => Sys2Proof.Machine.execFramerWindowClose a llrs s
  | .inlineDecodeDone a llrs => Sys2Proof.Machine.execInlineDecodeDone a llrs s
  | .retryDecoderGrant a k => Sys2Proof.Machine.execRetryDecoderGrant a k s
  | .retryCopyDone k => Sys2Proof.Machine.execRetryCopyDone k s
  | .retryAttemptDone k llrs => Sys2Proof.Machine.execRetryAttemptDone k llrs s
  | .warpMark a m => Sys2Proof.Machine.execWarpMark a m s
  | .warpLockAcquired a => Sys2Proof.Machine.execWarpLockAcquired a s
  | .warpLockLost a => Sys2Proof.Machine.execWarpLockLost a s
  | .warpZoneChange a zone => Sys2Proof.Machine.execWarpZoneChange a zone s
  | .preampFault a => Sys2Proof.Machine.execPreampFault a s
  | .preampFaultClear a => Sys2Proof.Machine.execPreampFaultClear a s
  | .preampScriptStart a => Sys2Proof.Machine.execPreampScriptStart a s
  | .preampScriptDone a => Sys2Proof.Machine.execPreampScriptDone a s
  | .headSettleEnd a => Sys2Proof.Machine.execHeadSettleEnd a s
  | .paAccGo n a w => Sys2Proof.Machine.execPaAccGo n a w s
  | .paAccSend a => Sys2Proof.Machine.execPaAccSend a s
  | .paAccFrameDone a data => Sys2Proof.Machine.execPaAccFrameDone a data s
  | .adaptReset n a => Sys2Proof.Machine.execAdaptReset n a s
  | .wedgeRecord a r => Sys2Proof.Machine.execWedgeRecord a r s
  | .servoLockConfirmed a => Sys2Proof.Machine.execServoLockConfirmed a s
  | .servoLockLost a => Sys2Proof.Machine.execServoLockLost a s
  | .seekSettled a => Sys2Proof.Machine.execSeekSettled a s
  | .settleTimeout a => Sys2Proof.Machine.execSettleTimeout a s
  | .masatInhibit a => Sys2Proof.Machine.execMasatInhibit a s
  | .shockAssert h => Sys2Proof.Machine.execShockAssert h s
  | .shockHoldExpire a => Sys2Proof.Machine.execShockHoldExpire a s
  | .writePermitReturn a => Sys2Proof.Machine.execWritePermitReturn a s
  | .vcmPwmPeriod a sense => Sys2Proof.Machine.execVcmPwmPeriod a sense s
  | .acuSeek a c => Sys2Proof.Machine.execAcuSeek a c s
  | .acuLoad a rCoil => Sys2Proof.Machine.execAcuLoad a rCoil s
  | .loadTimeout a => Sys2Proof.Machine.execLoadTimeout a s
  | .recoverTimeout a => Sys2Proof.Machine.execRecoverTimeout a s
  | .harnessPark a => Sys2Proof.Machine.execHarnessPark a s
  | .parkRegister n a => Sys2Proof.Machine.execParkRegister n a s
  | .unitStopPark a => Sys2Proof.Machine.execUnitStopPark a s
  | .parkLatched a rCoil => Sys2Proof.Machine.execParkLatched a rCoil s
  | .parkTimeout a => Sys2Proof.Machine.execParkTimeout a s
  | .cleDataWrite n u w busy => Sys2Proof.Machine.execCleDataWrite n u w busy s
  | .cleBypassWrite n u w busy => Sys2Proof.Machine.execCleBypassWrite n u w busy s
  | .cleWriteApply u l => Sys2Proof.Machine.execCleWriteApply u l s
  | .pwmPeriod h p => Sys2Proof.Machine.execPwmPeriod h p s
  | .chopMinOnEnd h vbus => Sys2Proof.Machine.execChopMinOnEnd h vbus s
  | .observerLockConfirmed h => Sys2Proof.Machine.execObserverLockConfirmed h s
  | .inTolSet h => Sys2Proof.Machine.execInTolSet h s
  | .rotorLossDeclared h => Sys2Proof.Machine.execRotorLossDeclared h s
  | .rotorCurrentDecayed h => Sys2Proof.Machine.execRotorCurrentDecayed h s
  | .detectForward h => Sys2Proof.Machine.execDetectForward h s
  | .catchMeasured h m => Sys2Proof.Machine.execCatchMeasured h m s
  | .detectReverse h => Sys2Proof.Machine.execDetectReverse h s
  | .detectTimeout h => Sys2Proof.Machine.execDetectTimeout h s
  | .alignDone h peaks => Sys2Proof.Machine.execAlignDone h peaks s
  | .openloopHandover h => Sys2Proof.Machine.execOpenloopHandover h s
  | .startFailure h => Sys2Proof.Machine.execStartFailure h s
  | .startRetryWaitEnd h => Sys2Proof.Machine.execStartRetryWaitEnd h s
  | .zvbrakeStillEnd h => Sys2Proof.Machine.execZvbrakeStillEnd h s
  | .brakeTimeout h => Sys2Proof.Machine.execBrakeTimeout h s
  | .scuRun n h => Sys2Proof.Machine.execScuRun n h s
  | .scuStop n h => Sys2Proof.Machine.execScuStop n h s
  | .scuCoast n h => Sys2Proof.Machine.execScuCoast n h s
  | .scuTargetWrite n h w => Sys2Proof.Machine.execScuTargetWrite n h w s
  | .chopOpenDetect h => Sys2Proof.Machine.execChopOpenDetect h s
  | .chopNofallDetect h => Sys2Proof.Machine.execChopNofallDetect h s
  | .chopStuckDetect h => Sys2Proof.Machine.execChopStuckDetect h s
  | .chopFaultClear n h w => Sys2Proof.Machine.execChopFaultClear n h w s
  | .overvoltageTrip h => Sys2Proof.Machine.execOvervoltageTrip h s
  | .busholdEnd h => Sys2Proof.Machine.execBusholdEnd h s
  | .pickSelect q e cond => Sys2Proof.Machine.execPickSelect q e cond s
  | .pickExit q e hit => Sys2Proof.Machine.execPickExit q e hit s
  | .pickLoop q e => Sys2Proof.Machine.execPickLoop q e s
  | .shedNop u e cond => Sys2Proof.Machine.execShedNop u e cond s
  | .shedClra u e cond => Sys2Proof.Machine.execShedClra u e cond s
  | .shedMac u e cond => Sys2Proof.Machine.execShedMac u e cond s
  | .shedMsc u e cond => Sys2Proof.Machine.execShedMsc u e cond s
  | .shedRnd u e cond => Sys2Proof.Machine.execShedRnd u e cond s
  | .shedMov u e cond => Sys2Proof.Machine.execShedMov u e cond s
  | .shedLdi u e cond => Sys2Proof.Machine.execShedLdi u e cond s
  | .shedAdds u e cond => Sys2Proof.Machine.execShedAdds u e cond s
  | .shedSubs u e cond => Sys2Proof.Machine.execShedSubs u e cond s
  | .shedIn u e cond port => Sys2Proof.Machine.execShedIn u e cond port s
  | .shedOutp u e cond => Sys2Proof.Machine.execShedOutp u e cond s
  | .shedBypck u e cond => Sys2Proof.Machine.execShedBypck u e cond s
  | .shedDly u e cond => Sys2Proof.Machine.execShedDly u e cond s
  | .shedSat u e cond => Sys2Proof.Machine.execShedSat u e cond s
  | .jqFallbackRepair q block again => Sys2Proof.Machine.execJqFallbackRepair q block again s
  | .jqArm n => Sys2Proof.Machine.execJqArm n s
  | .jqAbort n => Sys2Proof.Machine.execJqAbort n s
  | .jqSwapIdle u => Sys2Proof.Machine.execJqSwapIdle u s
  | .jqSwapTimeout => Sys2Proof.Machine.execJqSwapTimeout s
  | .openAddressFrame f => Sys2Proof.Machine.execOpenAddressFrame f s
  | .initiatorIdleExpire x => Sys2Proof.Machine.execInitiatorIdleExpire x s
  | .testUnitReady f => Sys2Proof.Machine.execTestUnitReady f s
  | .requestSense f => Sys2Proof.Machine.execRequestSense f s
  | .formatUnit f => Sys2Proof.Machine.execFormatUnit f s
  | .reassignBlocks f => Sys2Proof.Machine.execReassignBlocks f s
  | .inquiry f => Sys2Proof.Machine.execInquiry f s
  | .modeSelect6 f => Sys2Proof.Machine.execModeSelect6 f s
  | .modeSelect10 f => Sys2Proof.Machine.execModeSelect10 f s
  | .modeSense6 f => Sys2Proof.Machine.execModeSense6 f s
  | .modeSense10 f => Sys2Proof.Machine.execModeSense10 f s
  | .receiveDiagnosticResults f => Sys2Proof.Machine.execReceiveDiagnosticResults f s
  | .sendDiagnostic f => Sys2Proof.Machine.execSendDiagnostic f s
  | .writeBufferDownload f => Sys2Proof.Machine.execWriteBufferDownload f s
  | .writeBufferActivate f => Sys2Proof.Machine.execWriteBufferActivate f s
  | .readBuffer f => Sys2Proof.Machine.execReadBuffer f s
  | .sanitize f => Sys2Proof.Machine.execSanitize f s
  | .logSense f => Sys2Proof.Machine.execLogSense f s
  | .read16 f => Sys2Proof.Machine.execRead16 f s
  | .write16 f => Sys2Proof.Machine.execWrite16 f s
  | .verify16 f => Sys2Proof.Machine.execVerify16 f s
  | .synchronizeCache16 f => Sys2Proof.Machine.execSynchronizeCache16 f s
  | .closeZone f => Sys2Proof.Machine.execCloseZone f s
  | .finishZone f => Sys2Proof.Machine.execFinishZone f s
  | .openZone f => Sys2Proof.Machine.execOpenZone f s
  | .resetWritePointer f => Sys2Proof.Machine.execResetWritePointer f s
  | .reportZones f => Sys2Proof.Machine.execReportZones f s
  | .readCapacity16 f => Sys2Proof.Machine.execReadCapacity16 f s
  | .reportLuns f => Sys2Proof.Machine.execReportLuns f s
  | .unsupportedOpcode f => Sys2Proof.Machine.execUnsupportedOpcode f s
  | .admissionRetry => Sys2Proof.Machine.execAdmissionRetry s
  | .admissionTimeout k => Sys2Proof.Machine.execAdmissionTimeout k s
  | .abortTask t => Sys2Proof.Machine.execAbortTask t s
  | .abortTaskSet t => Sys2Proof.Machine.execAbortTaskSet t s
  | .clearTaskSet t => Sys2Proof.Machine.execClearTaskSet t s
  | .logicalUnitReset t => Sys2Proof.Machine.execLogicalUnitReset t s
  | .iTNexusReset t => Sys2Proof.Machine.execITNexusReset t s
  | .queryTask t => Sys2Proof.Machine.execQueryTask t s
  | .queryTaskSet t => Sys2Proof.Machine.execQueryTaskSet t s
  | .tmfUnsupported t => Sys2Proof.Machine.execTmfUnsupported t s
  | .abortStopComplete => Sys2Proof.Machine.execAbortStopComplete s
  | .sasHardReset port lane => Sys2Proof.Machine.execSasHardReset port lane s
  | .iTNexusLoss x => Sys2Proof.Machine.execITNexusLoss x s
  | .xferRdySend port => Sys2Proof.Machine.execXferRdySend port s
  | .dataFrameReceived f => Sys2Proof.Machine.execDataFrameReceived f s
  | .initiatorResponseTimeout c => Sys2Proof.Machine.execInitiatorResponseTimeout c s
  | .ackNakTimeout c => Sys2Proof.Machine.execAckNakTimeout c s
  | .nakReceived c => Sys2Proof.Machine.execNakReceived c s
  | .dataFrameSend port => Sys2Proof.Machine.execDataFrameSend port s
  | .pinExpire c => Sys2Proof.Machine.execPinExpire c s
  | .intLuQuotaWrite n ctxq w => Sys2Proof.Machine.execIntLuQuotaWrite n ctxq w s
  | .activationQuiesceDone => Sys2Proof.Machine.execActivationQuiesceDone s
  | .activationQuiesceTimeout => Sys2Proof.Machine.execActivationQuiesceTimeout s
  | .activationVerifyDone f fills => Sys2Proof.Machine.execActivationVerifyDone f fills s
  | .activationSwapDone => Sys2Proof.Machine.execActivationSwapDone s
  | .schedulerDecision a cyc => Sys2Proof.Machine.execSchedulerDecision a cyc s
  | .passEnd a m => Sys2Proof.Machine.execPassEnd a m s
  | .pendingSeekIssue a => Sys2Proof.Machine.execPendingSeekIssue a s
  | .selftestStarve a => Sys2Proof.Machine.execSelftestStarve a s
  | .bobbinPop c => Sys2Proof.Machine.execBobbinPop c s
  | .bobbinReturn => Sys2Proof.Machine.execBobbinReturn s
  | .headCacheRefill p => Sys2Proof.Machine.execHeadCacheRefill p s
  | .creelRebuildDone p => Sys2Proof.Machine.execCreelRebuildDone p s
  | .bitmapWordRebuildDone w => Sys2Proof.Machine.execBitmapWordRebuildDone w s
  | .jobPost j => Sys2Proof.Machine.execJobPost j s
  | .hostJobDequeue => Sys2Proof.Machine.execHostJobDequeue s
  | .shuttleEnd d => Sys2Proof.Machine.execShuttleEnd d s
  | .shuttleMove d => Sys2Proof.Machine.execShuttleMove d s
  | .moveBlock d => Sys2Proof.Machine.execMoveBlock d s
  | .shuttleLoop d => Sys2Proof.Machine.execShuttleLoop d s
  | .shuttleWait d => Sys2Proof.Machine.execShuttleWait d s
  | .waitConditionMet d => Sys2Proof.Machine.execWaitConditionMet d s
  | .waitTimeout d => Sys2Proof.Machine.execWaitTimeout d s
  | .shuttleSignal d => Sys2Proof.Machine.execShuttleSignal d s
  | .paceResume d => Sys2Proof.Machine.execPaceResume d s
  | .busError d cause addr => Sys2Proof.Machine.execBusError d cause addr s
  | .busRetry d => Sys2Proof.Machine.execBusRetry d s
  | .shuttleClear n => Sys2Proof.Machine.execShuttleClear n s
  | .mediaChannelAutoClear a => Sys2Proof.Machine.execMediaChannelAutoClear a s
  | .templeLookup g soon => Sys2Proof.Machine.execTempleLookup g soon s
  | .templeFillDone x => Sys2Proof.Machine.execTempleFillDone x s
  | .templeUpdate g off bytes soon => Sys2Proof.Machine.execTempleUpdate g off bytes soon s
  | .mergeBufferWriteDone => Sys2Proof.Machine.execMergeBufferWriteDone s
  | .templeInvalidate n => Sys2Proof.Machine.execTempleInvalidate n s
  | .templePreload n => Sys2Proof.Machine.execTemplePreload n s
  | .templeUnlock n => Sys2Proof.Machine.execTempleUnlock n s
  | .templeInvalidateAll n => Sys2Proof.Machine.execTempleInvalidateAll n s
  | .templeGroupOff n m => Sys2Proof.Machine.execTempleGroupOff n m s
  | .groupCleanDone => Sys2Proof.Machine.execGroupCleanDone s
  | .templeGroupOn n m => Sys2Proof.Machine.execTempleGroupOn n m s
  | .cipherKeyLoad n kcv => Sys2Proof.Machine.execCipherKeyLoad n kcv s
  | .cipherKeyClear n => Sys2Proof.Machine.execCipherKeyClear n s
  | .keyClearComplete u => Sys2Proof.Machine.execKeyClearComplete u s
  | .keyDerivationDone => Sys2Proof.Machine.execKeyDerivationDone s
  | .cipherCoreTake k => Sys2Proof.Machine.execCipherCoreTake k s
  | .cipherEncryptDone k => Sys2Proof.Machine.execCipherEncryptDone k s
  | .cipherDecryptDone k => Sys2Proof.Machine.execCipherDecryptDone k s
  | .zoneRekey n => Sys2Proof.Machine.execZoneRekey n s
  | .cvStart n v w => Sys2Proof.Machine.execCvStart n v w s
  | .cvFeed n v w => Sys2Proof.Machine.execCvFeed n v w s
  | .cvRunLoad n v w => Sys2Proof.Machine.execCvRunLoad n v w s
  | .heddleRead m w flip bad => Sys2Proof.Machine.execHeddleRead m w flip bad s
  | .heddleWriteback hard => Sys2Proof.Machine.execHeddleWriteback hard s
  | .heddleNarrowWrite m w mask data flip => Sys2Proof.Machine.execHeddleNarrowWrite m w mask data flip s
  | .heddleScrubRead flip bad e rp => Sys2Proof.Machine.execHeddleScrubRead flip bad e rp s
  | .heddleRawRead n => Sys2Proof.Machine.execHeddleRawRead n s
  | .heddleInject n => Sys2Proof.Machine.execHeddleInject n s
  | .heddleDataOnly n => Sys2Proof.Machine.execHeddleDataOnly n s
  | .heddleCheckOnly n => Sys2Proof.Machine.execHeddleCheckOnly n s
  | .faultCollect => Sys2Proof.Machine.execFaultCollect s
  | .errnHoldClear n => Sys2Proof.Machine.execErrnHoldClear n s
  | .errnMinPulseEnd => Sys2Proof.Machine.execErrnMinPulseEnd s
  | .severityWrite n w => Sys2Proof.Machine.execSeverityWrite n w s
  | .stagingEraseDone => Sys2Proof.Machine.execStagingEraseDone s
  | .directoryUpdateDone => Sys2Proof.Machine.execDirectoryUpdateDone s
  | .journalEntryDone => Sys2Proof.Machine.execJournalEntryDone s
  | .journalCompact => Sys2Proof.Machine.execJournalCompact s
  | .i3cEntdaa addr => Sys2Proof.Machine.execI3cEntdaa addr s
  | .mctpPacket p => Sys2Proof.Machine.execMctpPacket p s
  | .setEndpointId eid => Sys2Proof.Machine.execSetEndpointId eid s
  | .getEndpointId => Sys2Proof.Machine.execGetEndpointId s
  | .getEndpointUuid => Sys2Proof.Machine.execGetEndpointUuid s
  | .getMctpVersionSupport t => Sys2Proof.Machine.execGetMctpVersionSupport t s
  | .getMessageTypeSupport => Sys2Proof.Machine.execGetMessageTypeSupport s
  | .getVendorDefinedMessageSupport sel => Sys2Proof.Machine.execGetVendorDefinedMessageSupport sel s
  | .getVersion => Sys2Proof.Machine.execGetVersion s
  | .getCapabilities => Sys2Proof.Machine.execGetCapabilities s
  | .negotiateAlgorithms ok => Sys2Proof.Machine.execNegotiateAlgorithms ok s
  | .getDigests => Sys2Proof.Machine.execGetDigests s
  | .getCertificate slot offset len => Sys2Proof.Machine.execGetCertificate slot offset len s
  | .challenge slot nonce => Sys2Proof.Machine.execChallenge slot nonce s
  | .getMeasurements index nonce => Sys2Proof.Machine.execGetMeasurements index nonce s
  | .keyExchange mutualAuth => Sys2Proof.Machine.execKeyExchange mutualAuth s
  | .finish n f => Sys2Proof.Machine.execFinish n f s
  | .heartbeat n => Sys2Proof.Machine.execHeartbeat n s
  | .keyUpdate n => Sys2Proof.Machine.execKeyUpdate n s
  | .endSession n => Sys2Proof.Machine.execEndSession n s
  | .sessionIdleTimeout n => Sys2Proof.Machine.execSessionIdleTimeout n s
  | .claimWindowEnd => Sys2Proof.Machine.execClaimWindowEnd s
  | .regRead n m => Sys2Proof.Machine.execRegRead n m s
  | .regWrite n m => Sys2Proof.Machine.execRegWrite n m s
  | .regWriteMasked n m => Sys2Proof.Machine.execRegWriteMasked n m s
  | .unitState n m st => Sys2Proof.Machine.execUnitState n m st s
  | .drainDeadline k x => Sys2Proof.Machine.execDrainDeadline k x s
  | .drainComplete k x => Sys2Proof.Machine.execDrainComplete k x s
  | .pldmDiscovery n cmd => Sys2Proof.Machine.execPldmDiscovery n cmd s
  | .pldmMonitorRead n q => Sys2Proof.Machine.execPldmMonitorRead n q s
  | .pldmFirmwareTransfer n offset data => Sys2Proof.Machine.execPldmFirmwareTransfer n offset data s
  | .activateFirmware n => Sys2Proof.Machine.execActivateFirmware n s
  | .oemRaiseSvnMin n v => Sys2Proof.Machine.execOemRaiseSvnMin n v s
  | .oemRevokeKey n k => Sys2Proof.Machine.execOemRevokeKey n k s
  | .oemArmExpire => Sys2Proof.Machine.execOemArmExpire s
  | .anchorInstall n => Sys2Proof.Machine.execAnchorInstall n s
  | .anchorRemove n => Sys2Proof.Machine.execAnchorRemove n s
  | .anchorCopy n => Sys2Proof.Machine.execAnchorCopy n s
  | .thermistorRead h temp => Sys2Proof.Machine.execThermistorRead h temp s
  | .calPeriodExpire h => Sys2Proof.Machine.execCalPeriodExpire h s
  | .calGo n => Sys2Proof.Machine.execCalGo n s
  | .calAbort n => Sys2Proof.Machine.execCalAbort n s
  | .calReferenceStep u input gain ofs => Sys2Proof.Machine.execCalReferenceStep u input gain ofs s
  | .rphMeasureDone h r => Sys2Proof.Machine.execRphMeasureDone h r s
  | .calWindowEnd a m => Sys2Proof.Machine.execCalWindowEnd a m s
  | .recorderScanDone => Sys2Proof.Machine.execRecorderScanDone s
  | .recorderProgramDone => Sys2Proof.Machine.execRecorderProgramDone s
  | .recorderEraseDone => Sys2Proof.Machine.execRecorderEraseDone s
  | .snapshotStart => Sys2Proof.Machine.execSnapshotStart s
  | .snapshotDone => Sys2Proof.Machine.execSnapshotDone s
  | .checkpointTimer => Sys2Proof.Machine.execCheckpointTimer s
  | .recorderSecond => Sys2Proof.Machine.execRecorderSecond s
  | .erClearHist n => Sys2Proof.Machine.execErClearHist n s
  | .erClearLog n => Sys2Proof.Machine.execErClearLog n s
  | .erClearBoth n => Sys2Proof.Machine.execErClearBoth n s
  | .erReadGo n => Sys2Proof.Machine.execErReadGo n s
  | .erReadDone n => Sys2Proof.Machine.execErReadDone n s
  | .histConfigWrite n base w => Sys2Proof.Machine.execHistConfigWrite n base w s
  | .dieTemperatureLimit => Sys2Proof.Machine.execDieTemperatureLimit s
  | .hbm3TemperatureThreshold t => Sys2Proof.Machine.execHbm3TemperatureThreshold t s
  | .clockPllLosesLock p => Sys2Proof.Machine.execClockPllLosesLock p s
  | .phyLinkLoss port lane => Sys2Proof.Machine.execPhyLinkLoss port lane s
  | .shockRelease h => Sys2Proof.Machine.execShockRelease h s
  | .inBandInterrupt => Sys2Proof.Machine.execInBandInterrupt s

end Sys2Proof.Machine
end

