-- ==== Sys2Proof/Machine/Step.lean ====
section
/-! DEFINITION. One step of the part: the command that has waited longest, or, with none waiting, a microsecond of its clock. -/

namespace Sys2Proof.Machine

/-- A microsecond passes in which nothing is commanded (log entry 2). -/
def tick (s : State) : State := { s with now := s.now + 1 }

/-- Take the command at the front of the queue and run it on the state with the rest of the queue. Events of one clock cycle
come one after the other (DESIGN CHOICE, log entry 44). -/
def step (s : State) : Host.Outcome State Fault Refusal :=
  match s.pending with
  | [] => .next (tick s)
  | i :: t => exec i { s with pending := t }

/-- The state with the command that a word spells at the front of its queue. -/
def State.withFetchWord (s : State) (nbits w : Nat) : State :=
  match decodeTableWord nbits w with
  | some i => { s with pending := i :: s.pending }
  | none => s

end Sys2Proof.Machine
end

