-- ==== Sys2Proof/Safety.lean ====
section
/-! DEFINITION. What a good state is and what a safe step is, in the words the statements use. -/

namespace Sys2Proof.Machine

/-- The sparse tables of the state have their one canonical form: the registers (an unlisted one reads 0), HBM3 (an unlisted byte reads 0) and
the flash (an unlisted byte is erased). -/
def State.canonical (s : State) : Bool := swf 0#32 s.regs && swf 0#8 s.hbm && swf 0xFF#8 s.flash

/-- An outcome is a next state that satisfies `P`. -/
def nextWith (o : Host.Outcome State Fault Refusal) (P : State → Prop) : Prop := ∃ t, o = .next t ∧ P t

/-- Every register but those named reads in `t` as in `s`. -/
def regsBut (ks : List Nat) (s t : State) : Prop := ∀ k, k ∉ ks → t.reg k = s.reg k

/-- Only the registers named differ. -/
def onlyRegs (ks : List Nat) (s t : State) : Prop := t = { s with regs := t.regs } ∧ regsBut ks s t

/-- Only channel `a` and the registers named differ. -/
def onlyChan (a : Act) (ks : List Nat) (s t : State) : Prop :=
  t = { s with chan := t.chan, regs := t.regs } ∧ (∀ b, b ≠ a → t.chan[b] = s.chan[b]) ∧ regsBut ks s t

/-- Only the control unit of actuator `a` and the registers named differ. -/
def onlyAcu (a : Act) (ks : List Nat) (s t : State) : Prop :=
  t = { s with acu := t.acu, regs := t.regs } ∧ (∀ b, b ≠ a → t.acu[b] = s.acu[b]) ∧ regsBut ks s t

/-- Only the control unit of the spindle of HDA `h` and the registers named differ. -/
def onlyScu (h : Hda) (ks : List Nat) (s t : State) : Prop :=
  t = { s with scu := t.scu, regs := t.regs } ∧ (∀ g, g ≠ h → t.scu[g] = s.scu[g]) ∧ regsBut ks s t

/-- The sequencer of store q runs, is not held, and stands at the microword w, stored with its check bits (R149). -/
def State.atWord (s : State) (q : Fin 64) (w : BitVec 128) : Prop :=
  s.jq[q].running = true ∧ s.jq[q].held = false ∧ s.storeFailed q.val = false ∧
  ∃ p, s.jq[q].active = some p ∧ p.words[s.jq[q].pc]? = some w ∧ p.checks[s.jq[q].pc]? = some (secdedCheck (isPick q) w)

/-- Only store `q` of the microcode stores differs. -/
def onlyStore (q : Fin 64) (s t : State) : Prop := t = { s with jq := t.jq } ∧ ∀ p, p ≠ q → t.jq[p] = s.jq[p]

/-- A Shed word with the event bit `ev` has run: only its store differs, and with ev = 1 the message it sends to the Harness (R154). -/
def shedRan (u : ShedUnit) (ev : Nat) (s t : State) : Prop :=
  t = { s with jq := t.jq, cross := t.cross } ∧ (∀ p, p ≠ shedStore u → t.jq[p] = s.jq[p]) ∧
  t.cross = if ev = 1 then (s.send (.harnessShed u false) (.irq (shedStore u))).cross else s.cross

/-- A Pick word with the event bit `ev` has run: only its store differs, and with ev = 1 the event on its way to its Shed unit (R150): the framer's over
the crossing to its ACU, another's in the unit itself. -/
def pickRan (q : Fin 64) (ev : Nat) (s t : State) : Prop :=
  t = { s with jq := t.jq, cross := t.cross } ∧
  (∀ p, p ≠ q → (ev = 1 → p ≠ shedStore (storeGroup q)) → t.jq[p] = s.jq[p]) ∧
  ((ev = 1 → 16 ≤ q.val) → t.cross = s.cross) ∧
  (ev = 1 → 16 ≤ q.val → t.jq[shedStore (storeGroup q)] = { s.jq[shedStore (storeGroup q)] with irqs := s.jq[shedStore (storeGroup q)].irqs + 1 })

/-- An activation has been given up (R167): no store is armed, BUSY is clear, and one of DONE and PARTIAL tells whether all its stores had swapped. -/
def leftActivation (s t : State) : Prop :=
  let left := s.jqLeft || s.jq.toList.any (fun q => q.armed)
  t = { s with jq := t.jq, jqLeft := left, regs := t.regs } ∧ (∀ q : Fin 64, t.jq[q] = { s.jq[q] with armed := false, waitIdle := false }) ∧
  t.bitF Reg.JQ_ACT Fld.JQ_ACT_BUSY = false ∧ t.bitF Reg.JQ_ACT Fld.JQ_ACT_PARTIAL = left ∧ t.bitF Reg.JQ_ACT Fld.JQ_ACT_DONE = !left ∧
  regsBut [Reg.JQ_ACT] s t

/-! ### Commands of the host ports -/

/-- The row of a COMMAND frame: what its CDB asks for. -/
def cmdRow (f : CmdFrame) : Instr :=
  if !opSupported f then .unsupportedOpcode f else
  match fc f 0 with
  | 0x00 => .testUnitReady f
  | 0x03 => .requestSense f
  | 0x04 => .formatUnit f
  | 0x07 => .reassignBlocks f
  | 0x12 => .inquiry f
  | 0x15 => .modeSelect6 f
  | 0x55 => .modeSelect10 f
  | 0x1A => .modeSense6 f
  | 0x5A => .modeSense10 f
  | 0x1C => .receiveDiagnosticResults f
  | 0x1D => .sendDiagnostic f
  | 0x3B => if fc f 1 % 32 = 0x0F then .writeBufferActivate f else .writeBufferDownload f
  | 0x3C => .readBuffer f
  | 0x48 => .sanitize f
  | 0x4D => .logSense f
  | 0x88 => .read16 f
  | 0x8A => .write16 f
  | 0x8F => .verify16 f
  | 0x91 => .synchronizeCache16 f
  | 0x94 => if fc f 1 % 32 = 1 then .closeZone f else if fc f 1 % 32 = 2 then .finishZone f else if fc f 1 % 32 = 3 then .openZone f
    else .resetWritePointer f
  | 0x95 => .reportZones f
  | 0x9E => .readCapacity16 f
  | _ => .reportLuns f

/-- The part runs and knows the nexus of a frame, the frame is well-formed (R176, R189), and it addresses the declared LU `l`. -/
def State.hears (s : State) (f : CmdFrame) (l : LuCfg) : Prop :=
  s.canonical = true ∧ s.power.phase = .run ∧ s.known f.port.val f.init.val = true ∧ f.cdb.length = 16 ∧ f.addLen = 0 ∧ frameNaca f = false ∧
  s.frameCfg f = some l

/-- No task is in the part and none waits, no pass runs, and no activation holds commands. -/
def State.idleTasks (s : State) : Prop :=
  s.intake.ctxs = [] ∧ s.intake.admq = [] ∧ (∀ a : Act, s.sch[a].pass = none) ∧ s.hed.retired = [] ∧ s.activating = false

/-- A command has a clear way (R189 to R192): the part hears it, no task is in the part, nothing is pending for the nexus and the LU, check 4 reads
the CDB as `a`, checks 5 to 7 find nothing, and the context and bobbins it needs fit. -/
structure ClearWay (s : State) (f : CmdFrame) (l : LuCfg) (a : Ask) : Prop where
  hears : s.hears f l
  idle : s.idleTasks
  attention : ∀ u ∈ s.intake.uas, u.init = f.init.val → u.lu ≠ l.lu
  exceptions : aget s.intake.exceptions l.lu = none
  check4 : s.check4 l f = .ok a
  checks56 : s.checks56 l (s.mkCtx f (some l) a 0) = none
  check7 : s.check7 l (s.mkCtx f (some l) a 0) [] = none
  ctxFits : s.ctxFits (some l.lu) = true
  bobFits : a.bobbins = 0 ∨ s.creelAnswer l.lu a.bobbins = .grant

/-- A frame's command has moved nothing but itself: the channels, the motion, the microcode, the sessions and the configuration stay. -/
def onlyTasks (s t : State) : Prop :=
  t.chan = s.chan ∧ t.acu = s.acu ∧ t.scu = s.scu ∧ t.jq = s.jq ∧ t.sess = s.sess ∧ t.mgmt = s.mgmt ∧ t.power = s.power

/-- The messages of the other port stay. -/
def otherPort (p : Fin 2) (s t : State) : Prop := ∀ q, q ≠ p → t.intake.sent[q] = s.intake.sent[q]

/-- The command of frame f has sent data `d` and ended GOOD, and it has left nothing behind. -/
def answered (f : CmdFrame) (d : List Byte) (s t : State) : Prop :=
  t.intake.sent[f.port] = s.intake.sent[f.port] ++ (dataFrames f.init.val f.tag.toNat (d.length / 1024 + 1) 0 d
    ++ [.response f.init.val f.tag.toNat stGood []]) ∧
  otherPort f.port s t ∧ t.intake.ctxs = [] ∧ t.intake.admq = [] ∧ onlyTasks s t

/-- The frame has been refused with a CHECK CONDITION; no task, no zone and nothing of the units has changed. -/
def refused (f : CmdFrame) (u : Nat) (x : Sense) (s t : State) : Prop :=
  t.intake.sent[f.port] = s.intake.sent[f.port] ++ [.response f.init.val f.tag.toNat stCheck (s.senseBytes u x)] ∧ otherPort f.port s t ∧
  t.intake.ctxs = s.intake.ctxs ∧ t.hbm = s.hbm ∧ t.cfg = s.cfg ∧ onlyTasks s t

/-- The command of frame f is the part's one task, in the state given; no response has been sent. -/
def became (f : CmdFrame) (st : CState) (c : Nat) (x : Ctx) (s t : State) : Prop :=
  t.intake.ctxs = [(c, x)] ∧ x.state = st ∧ x.port = f.port.val ∧ x.init = f.init.val ∧ x.tag = f.tag.toNat ∧ x.cdb = f.cdb ∧
  t.intake.sent = s.intake.sent ∧ onlyTasks s t

/-- The descriptor of global zone g lies in HBM3. -/
def zoneIn (g : Nat) : Prop := descAddr g + 32 ≤ hbmSize

/-- The merging buffer has one entry at most for a descriptor (R282). -/
def State.oneEntry (s : State) : Prop := (s.zones.temple.mb.map (·.g)).Nodup

/-- Only channel `d` of the Shuttle and the registers that show it differ. -/
def onlyCh (d : Fin 64) (s t : State) : Prop :=
  t = { s with shu := t.shu, regs := t.regs } ∧ t.shu = { s.shu with ch := t.shu.ch } ∧ (∀ e, e ≠ d → t.shu.ch[e] = s.shu.ch[e]) ∧
  regsBut [bank d.val Reg.SHU_CH_STAT, Reg.SHU_HALT_LO, Reg.SHU_HALT_HI, Reg.SHU_JOBQ] s t

/-- Nothing that a Shuttle channel works on differs but the channels, the buffers and the counts of the Shuttle, the contexts, HBM3 and the frames sent. -/
def onlyShuttle (s t : State) : Prop :=
  t = { s with shu := t.shu, regs := t.regs, intake := t.intake, hbm := t.hbm }

/-- Channel `d` runs job `j` on block `k` of the transfer of context `x`, in a MOVE with fields `m`. -/
def State.moves (s : State) (d : Fin 64) (j : Job) (m : Move) (x : Ctx) (k : Nat) : Prop :=
  s.shu.ch[d].state = .run ∧ s.shu.ch[d].retryDue = false ∧ s.shu.ch[d].moving.isSome = true ∧ s.shu.ch[d].job = some j ∧
  s.shuInstr d = .move m ∧ s.ctx? j.ctx = some x ∧ k = j.first + s.shu.ch[d].cursor

/-! ### The management bus -/

/-- The endpoint answers and session n is open. -/
def State.inSess (s : State) (n : Fin 4) : Prop := s.mgmtUp = true ∧ s.isOpen n = true

/-- The register of row `d` at address `a`, instance `i` and replica `r`, is kept at `k` for session n: it is declared and clocked, all its fields
are RW or RWK, it shows no other state, and a write of it triggers nothing. -/
structure PlainReg (s : State) (n : Fin 4) (a k : Nat) (d : RegDesc) (i r : Nat) : Prop where
  row : regAt a = some (d, i, r)
  declared : s.declared d.base i r = true
  clocked : s.regClocked d.base i = true
  kept : s.regKey (some n) d.base i a = some k
  plain : ∀ f ∈ d.fields, f.acc = .rw ∨ f.acc = .rwk
  notShown : ∀ u : State, u.shownWord (some n) d.base i r = none
  notOwn : ∀ (m x : Word) (u : State), ownWrite n d.base i r m x u = none
  quiet : ∀ (x : Word) (u : State), afterWrite d.base i r x u = u

/-- A WRITE of one register's word and a WRITE_MASKED, as they act on its fields: `all` are the bits of the fields. -/
def written (old m v all : Word) : Word := (old &&& ~~~(m &&& all)) ||| (v &&& m &&& all)

/-- All the bits that a row's fields cover. -/
def RegDesc.bits (d : RegDesc) : Word := BitVec.ofNat 32 (d.mask (fun _ => true))

/-- Only registers and the messages ready differ from `s` with the session's time of last message. -/
def onlyAnswer (n : Fin 4) (ks : List Nat) (s t : State) : Prop :=
  t = { touchSess n s with regs := t.regs, mgmt := t.mgmt } ∧ t.mgmt = { s.mgmt with ready := t.mgmt.ready } ∧ regsBut ks s t

/-- A register-access response. -/
def regRsp (n : Option (Fin 4)) (m : RegMsg) (cc : Nat) (data : List Byte) : MgmtMsg :=
  .regs n ([0x01#8, m.op + 0x80#8, m.seq, BitVec.ofNat 8 cc] ++ data)

/-- Session n has opened with a role: its copies of registers read zero, nothing is armed in it, and FINISH is answered. -/
def sessionOpened (n : Fin 4) (role : Role) (slot : Nat) (anchored : Bool) (s t : State) : Prop :=
  t = { s with sess := t.sess, mgmt := t.mgmt, regs := t.regs } ∧ t.sess = s.sess.set n ⟨.opened, role, slot, anchored, s.now⟩ ∧
  (∀ k, t.reg k = if sessionKey n k then 0#32 else s.reg k) ∧ t.mgmt.ready = s.mgmt.ready ++ [.spdm (some n) .finish] ∧
  (∀ a, t.mgmt.armed = some a → a.sess ≠ n ∧ s.mgmt.armed = some a)

/-- Session n has closed, and nothing else but the messages given has changed. -/
def sessionClosed (n : Fin 4) (l : List MgmtMsg) (s t : State) : Prop :=
  t = { s with sess := t.sess, mgmt := t.mgmt } ∧ t.mgmt = { s.mgmt with ready := s.mgmt.ready ++ l } ∧ t.sess[n].phase = .closed ∧
  ∀ k, k ≠ n → t.sess[k] = s.sess[k]

/-! ### Every state -/

/-- What every step keeps: the registers, HBM3, the flash, the ownership bitmap, the units' conditions and the severities applied are in their one
canonical form, and the merging buffer has one entry at most for a descriptor. -/
structure State.Sound (s : State) : Prop where
  canonical : s.canonical = true
  owned : swf 0#64 s.creel.owned = true
  own : swf 0 s.own = true
  applied : swf 0 s.applied = true
  oneEntry : s.oneEntry

end Sys2Proof.Machine
end

