-- ==== Sys2Proof/Certificates/Slice0/Obligations.lean ====
section
/-! DEFINITION. The statements for the provers, family by family of the command table. -/

open Sys2Proof Sys2Proof.Machine

/-! ### Every command -/

/-- The block's queue (log entry 2 for the empty one). -/
def Obligations.StepRunsTheFront : Prop :=
  (∀ (c : Instr) (s : State), step { s with pending := c :: s.pending } = exec c s) ∧
  (∀ s : State, s.pending = [] → step s = .next { s with now := s.now + 1 }) ∧
  (∀ n w : Nat, decodeTableWord n w = none) ∧ (∀ (s : State) (n w : Nat), s.withFetchWord n w = s)

/-- R4, R330, R370, R419, R422: what reset leaves. -/
def Obligations.SoundAtReset : Prop :=
  State.reset.Sound ∧ State.reset.pending = [] ∧ State.reset.intake.ctxs = [] ∧ State.reset.hbm = [] ∧ State.reset.flash = [] ∧
  (∀ n : Fin 4, State.reset.isOpen n = false) ∧ (∀ q : Fin 64, State.reset.jq[q].running = false) ∧
  (∀ a : Act, State.reset.acu[a].state = .ramp) ∧ (∀ h : Hda, State.reset.scu[h].state = .stopped) ∧
  State.reset.reg Reg.GLB_ID = 0x01B00816#32 ∧ State.reset.reg Reg.GLB_READY = 0#32 ∧ State.reset.reg Reg.GLB_BU_CFG = 0x00FF0005#32 ∧
  State.reset.reg Reg.CAL_CFG = 0x00010000#32 ∧ State.reset.reg (Reg.UST_LU 255) = 0x0000FF01#32 ∧ State.reset.reg (Reg.ACU_CH_CTRL 15) = 0x1000#32 ∧
  (∀ src : Fin 0xB9, State.reset.sevOf src.val = srcDefault src.val) ∧
  (∀ n : Fin 16, State.reset.reg (bank n.val Reg.ER_HIST_MIN) = 0x7FFFFFFF#32 ∧ State.reset.reg (bank n.val Reg.ER_HIST_MAX) = 0x80000000#32)

/-- R282 for the merging buffer; the canonical forms are the model's own. -/
def Obligations.StepKeepsSound : Prop :=
  ∀ s t : State, s.Sound → step s = .next t → t.Sound

/-! ### Channels: framing, decoding, warp lock, preamplifier (chapters 2 to 4) -/

/-- R76: in mode FIRST the lowest qualifying offset is selected, and the selection is not changed while the rest of the window is evaluated. -/
def Obligations.FramerFirstTakesLowestOffset : Prop :=
  (∀ (a : Act) (llrs : List Int) (s : State) (r : SectorRun) (i d : Nat),
    s.chan[a].cur = some r → r.write = false → r.best = false → r.selected = none → r.record = none →
    i < r.win → markDist llrs (-((r.win / 2 : Nat) : Int) + i) = some d → d ≤ r.thr →
    (∀ j e : Nat, j < i → markDist llrs (-((r.win / 2 : Nat) : Int) + j) = some e → r.thr < e) →
    ∃ t, exec (.framerMarkFirst a llrs) s = .next t ∧ onlyChan a [] s t ∧
      t.chan[a] = { s.chan[a] with cur := some { r with selected := some (-((r.win / 2 : Nat) : Int) + i, d) } }) ∧
  (∀ (a : Act) (llrs : List Int) (s : State) (r : SectorRun) (q : Int × Nat),
    s.chan[a].cur = some r → r.write = false → r.best = false → r.selected = some q → r.record = none →
    exec (.framerMarkFirst a llrs) s = .next s ∧
    ∃ t r', exec (.framerWindowClose a llrs) s = .next t ∧ t.chan[a].cur = some r' ∧ r'.selected = some q ∧ r'.record.isSome)

/-- R75, R77 to R80, R85: what the close of a window leaves. -/
def Obligations.WindowCloseWritesRecord : Prop :=
  ∀ (a : Act) (llrs : List Int) (s : State) (r : SectorRun),
    s.canonical = true → s.chan[a].cur = some r → r.write = false → r.record = none →
    let n := ((List.range r.win).filter (fun i => match markDist llrs (-((r.win / 2 : Nat) : Int) + (i : Int)) with
      | some d => decide (d ≤ r.thr) | none => false)).length
    ∃ t rc sel, exec (.framerWindowClose a llrs) s = .next t ∧
      onlyChan a [Reg.ACU_CNT_FR_NOMARK a, Reg.ACU_CNT_FR_MULTI a] { s with intake := { s.intake with logs := t.intake.logs } } t ∧
      t.chan[a] = { s.chan[a] with cur := some { r with selected := some sel, record := some rc } } ∧
      rc.cands.length = min n 4 ∧ rc.best = r.best ∧ (rc.overflow = true ↔ 4 < n) ∧
      (∀ x, r.selected = some x → sel = x) ∧ (n = 0 → r.selected = none → sel.1 = 0) ∧
      t.getF (Reg.ACU_CNT_FR_NOMARK a) Fld.ACU_CNT_FR_NOMARK_COUNT =
        (if n = 0 then min Fld.ACU_CNT_FR_NOMARK_COUNT.max (s.getF (Reg.ACU_CNT_FR_NOMARK a) Fld.ACU_CNT_FR_NOMARK_COUNT + 1)
         else s.getF (Reg.ACU_CNT_FR_NOMARK a) Fld.ACU_CNT_FR_NOMARK_COUNT)

/-- R82: the re-framing list. -/
def Obligations.ReframeListFiveDistinct : Prop :=
  ∀ (p0 : Int) (rc : CandRecord), rc.cands.length ≤ 4 → rc.cands.Nodup →
    (reframeList p0 rc).length = 5 ∧ ((reframeList p0 rc).map (·.1)).Nodup ∧
    ((reframeList p0 rc).map (·.1)).take (rc.cands.filter (· != p0)).length = rc.cands.filter (· != p0)

/-- R66, R69, R70, R83, R85: what becomes of a sector in the decoders. -/
def Obligations.DecodersHandSectorsOn : Prop :=
  (∀ (a : Act) (llrs : List Int) (s : State) (k : ReedSlot) (rest : List ReedSlot),
    s.chan[a].decoding = k :: rest → verdict k.iterMax (ldpcDecode k.iterMax (cutAt k.framedAt 1 llrs)) = .decoded →
    ∃ t, exec (.inlineDecodeDone a llrs) s = .next t ∧ t.chan[a].decoding = rest ∧
      t.chan[a].lastIter = (ldpcDecode k.iterMax (cutAt k.framedAt 1 llrs)).iterations - 1 ∧
      t.chan[a].out = s.chan[a].out ++ [⟨k.slot, (ldpcDecode k.iterMax (cutAt k.framedAt 1 llrs)).field,
        if k.record.cands.isEmpty then 1 else 0, k.marks, false⟩]) ∧
  (∀ (a : Act) (k : Fin 4) (s : State) (seq : Nat) (rest : List Nat) (o : ReedSlot),
    s.retry[k] = none → s.nextRetry = some a → s.chan[a].retryReq = seq :: rest →
    s.chan[a].reed.find? (fun o => o.seq == seq) = some o →
    ∃ t j, exec (.retryDecoderGrant a k) s = .next t ∧ t.retry[k] = some j ∧ j.act = a ∧ j.slot = o ∧ j.copied = false ∧ j.attempts = 0 ∧
      t.chan[a].retryReq = rest ∧ t.retryTurn = a.val ∧ (∀ i, i ≠ k → t.retry[i] = s.retry[i]) ∧ t.regs = s.regs) ∧
  (∀ (k : Fin 4) (s : State) (j : RetryJob), s.retry[k] = some j →
    ∃ t, exec (.retryCopyDone k) s = .next t ∧ t.retry[k] = some { j with copied := true } ∧ t = { s with retry := t.retry } ∧
      (∀ i, i ≠ k → t.retry[i] = s.retry[i])) ∧
  (∀ (k : Fin 4) (llrs : List Int) (s : State) (j : RetryJob),
    let r := ldpcDecode j.slot.iterRetry (cutAt (j.offsets.getD (j.attempts % 5) (0, 4)).1 (if j.attempts < 5 then 1 else 3 / 4) llrs)
    s.retry[k] = some j → j.copied = true →
    (verdict j.slot.iterRetry r = .decoded →
      ∃ t d, exec (.retryAttemptDone k llrs) s = .next t ∧ t.retry[k] = none ∧ t.chan[j.act].out = s.chan[j.act].out ++ [d] ∧
        d.slot = j.slot.slot ∧ d.field = r.field ∧ d.second = decide (5 ≤ j.attempts)) ∧
    (r.checksOk = false →
      ∃ t, exec (.retryAttemptDone k llrs) s = .next t ∧
        t.retry[k] = (if j.attempts + 1 < 10 then some { j with attempts := j.attempts + 1 } else none)))

/-- R9, R68: what a sector boundary does. -/
def Obligations.SectorBoundaryEndsSector : Prop :=
  (∀ (a : Act) (slot : Fin 2048) (rd : SectorRead) (s : State) (r : SectorRun),
    s.chan[a].clocked = true → s.chan[a].cur = some r → r.write = false → s.chan[a].pass = none →
    ∃ t k, exec (.sectorBoundary a slot rd) s = .next t ∧ t.chan[a].cur = none ∧ t.chan[a].decoding = s.chan[a].decoding ++ [k] ∧
      k.slot = r.slot ∧ k.seq = r.seq ∧ k.marks = r.marks ∧ k.iterMax = r.iterMax ∧ k.iterRetry = r.iterRetry ∧ k.samples = rd.samples ∧
      t.acu = s.acu ∧ t.scu = s.scu) ∧
  (∀ (a : Act) (slot : Fin 2048) (rd : SectorRead) (s : State),
    s.canonical = true → s.chan[a].clocked = true → s.chan[a].cur = none → s.chan[a].pass = none →
    ∃ t, exec (.sectorBoundary a slot rd) s = .next t ∧
      onlyChan a [Reg.ACU_CH_STAT a, Reg.ACU_FR_LAST a] s t ∧
      t.bitF (Reg.ACU_CH_STAT a) Fld.ACU_CH_STAT_LOCK = s.chan[a].locked ∧ t.reg (Reg.ACU_FR_LAST a) = s.chan[a].finalOutcome ∧
      t.chan[a].skewShown = s.chan[a].skew ∧ t.chan[a].locked = s.chan[a].locked ∧ t.chan[a].gate = s.chan[a].gate)

/-- R15, R52 to R55: warp marks and lock. -/
def Obligations.WarpLockFollowsMarks : Prop :=
  (∀ (a : Act) (m : WarpMark) (s : State),
    let d := (grayDecode (markGray m) % 4096 + 4096 - s.warpCyl a % 4096) % 4096
    s.chan[a].clocked = true → s.chan[a].gate = false → prefixErrors m ≤ 1 → endSymbol m = false → parityEven m = true →
    markFrame m = (s.chan[a].frame + 1) % max 1 s.cfg.spin[hdaOf a].wedges → d = 0 ∨ d = 1 ∨ d = 4095 →
    ∃ t, exec (.warpMark a m) s = .next t ∧ t.chan[a].goodMarks = min 2 (s.chan[a].goodMarks + 1) ∧ t.chan[a].badFrames = 0 ∧
      t.chan[a].framingHeld = false ∧ t.chan[a].frame = markFrame m ∧ t.acu = s.acu ∧
      (s.chan[a].cur = none → onlyChan a [] { s with cross := t.cross } t)) ∧
  (∀ (a : Act) (m : WarpMark) (s : State), s.chan[a].clocked = true → s.chan[a].cur = none → s.chan[a].gate = false → 1 < prefixErrors m →
    ∃ t, exec (.warpMark a m) s = .next t ∧ onlyChan a [] s t ∧ t.chan[a].goodMarks = 0 ∧ t.chan[a].badFrames = s.chan[a].badFrames + 1) ∧
  (∀ (a : Act) (s : State), s.canonical = true → s.chan[a].clocked = true → s.chan[a].locked = false →
    s.chan[a].pll.tolMet = true → 2 ≤ s.chan[a].pll.lockMarks →
    ∃ t, exec (.warpLockAcquired a) s = .next t ∧ onlyChan a [Reg.GLB_WARP_LOCK] { s with cross := t.cross } t ∧
      t.chan[a] = { s.chan[a] with locked := true, holdover := false } ∧
      t.bit Reg.GLB_WARP_LOCK a.val = true ∧ t.bit Reg.GLB_WARP_LOCK (16 + a.val) = false) ∧
  (∀ (a : Act) (cycles : List WarpCycle) (s : State), s.canonical = true → s.chan[a].clocked = true → s.chan[a].locked = true →
    (4 ≤ s.chan[a].badFrames ∨ (256 ≤ cycles.length ∧ ∀ c ∈ cycles, 1 / 8 < c.error ∨ c.error < -1 / 8)) →
    ∃ t, exec (.warpLockLost ⟨a, cycles⟩) s = .next t ∧ t.chan[a].locked = false ∧ t.chan[a].holdover = true ∧ t.chan[a].gate = false ∧
      t.bit Reg.GLB_WARP_LOCK a.val = false ∧ t.bit Reg.GLB_WARP_LOCK (16 + a.val) = true ∧ t.acu = s.acu) ∧
  (∀ (a : Act) (cycles : List WarpCycle) (s : State), s.chan[a].clocked = true → s.chan[a].badFrames < 4 → s.chan[a].pll.badRun < 256 →
    (∀ c ∈ cycles, -1 / 8 ≤ c.error ∧ c.error ≤ 1 / 8) →
    ∃ t, exec (.warpLockLost ⟨a, cycles⟩) s = .next t ∧ onlyChan a [] s t ∧ t.chan[a] = { s.chan[a] with pll := t.chan[a].pll }) ∧
  (∀ (a : Act) (z : Fin 64) (s : State), s.canonical = true → s.chan[a].clocked = true → s.chan[a].zone ≠ z.val →
    ∃ t, exec (.warpZoneChange a z) s = .next t ∧ t.chan[a].zone = z.val ∧ t.chan[a].locked = false ∧ t.chan[a].gate = false ∧
      t.bit Reg.GLB_WARP_LOCK a.val = false ∧ t.acu = s.acu)

/-- R50, R61: preamplifier faults and the reset of the adaptation. -/
def Obligations.PreampFaultCutsWrite : Prop :=
  (∀ (a : Act) (s : State), s.chan[a].clocked = true → s.chan[a].paFault = false → s.sevOf (srcAct a 0) < 2 →
    ∃ t r, exec (.preampFault a) s = .next t ∧ t.chan[a].paFault = true ∧ t.chan[a].gate = false ∧
      t.raised = s.raised ++ [r] ∧ r.src = srcAct a 0 ∧ r.unit = .act a) ∧
  (∀ (a : Act) (s : State),
    ∃ t, exec (.preampFaultClear a) s = .next t ∧ onlyChan a [] s t ∧ t.chan[a] = { s.chan[a] with paFault := false, paHeld := false }) ∧
  (∀ (n : Fin 4) (a : Act) (s : State), s.chanWritable n a = true →
    ∃ t, exec (.adaptReset n a) s = .next t ∧ onlyChan a [] s t ∧ t.chan[a] = { s.chan[a] with adaptReset := true })

/-- R47 to R49: scripts and management accesses on the preamplifier link. -/
def Obligations.PreampLinkOneAtATime : Prop :=
  (∀ (a : Act) (s : State) (k : ScriptKind) (rest : List ScriptKind),
    s.chan[a].due = k :: rest → s.chan[a].gate = false → s.chan[a].cur = none → s.chan[a].link = .free →
    ∃ t, exec (.preampScriptStart a) s = .next t ∧ onlyChan a [] s t ∧
      t.chan[a] = { s.chan[a] with due := rest, link := .script k (scriptFrames s.cfg.preamp[a] k) }) ∧
  (∀ (a : Act) (s : State) (x : Fin 15) (l : List (BitVec 16)), s.chan[a].link = .script (.headSelect x) l →
    ∃ t, exec (.preampScriptDone a) s = .next t ∧ onlyChan a [] s t ∧
      t.chan[a] = { s.chan[a] with link := .free, settling := true, head := some x, adaptCal := true }) ∧
  (∀ (a : Act) (s : State), ∃ t, exec (.headSettleEnd a) s = .next t ∧ onlyChan a [] s t ∧ t.chan[a] = { s.chan[a] with settling := false }) ∧
  (∀ (n : Fin 4) (a : Act) (w : Word) (s : State), s.canonical = true → s.chanWritable n a = true →
    s.bitF (Reg.ACU_PA_ACC a) Fld.ACU_PA_ACC_BUSY = false → Fld.ACU_PA_ACC_GO.get w = 1 →
    ∃ t, exec (.paAccGo n a w) s = .next t ∧ onlyChan a [Reg.ACU_PA_ACC a] s t ∧ t.chan[a] = { s.chan[a] with paWaiting := true } ∧
      t.bitF (Reg.ACU_PA_ACC a) Fld.ACU_PA_ACC_BUSY = true ∧ (t.reg (Reg.ACU_PA_ACC a)).toNat % 2 ^ 16 = w.toNat % 2 ^ 16) ∧
  (∀ (a : Act) (s : State), s.chan[a].paWaiting = true → s.chan[a].gate = false → s.chan[a].cur = none → s.chan[a].link = .free →
    s.chan[a].due = [] →
    ∃ t f, exec (.paAccSend a) s = .next t ∧ onlyChan a [] s t ∧ t.chan[a] = { s.chan[a] with paWaiting := false, link := .management f } ∧
      f.getLsbD 15 = s.bitF (Reg.ACU_PA_ACC a) Fld.ACU_PA_ACC_READ ∧ f.toNat / 2 ^ 8 % 2 ^ 7 = s.getF (Reg.ACU_PA_ACC a) Fld.ACU_PA_ACC_ADDR ∧
      f.toNat % 2 ^ 8 = s.getF (Reg.ACU_PA_ACC a) Fld.ACU_PA_ACC_DATA) ∧
  (∀ (a : Act) (d : Byte) (f : BitVec 16) (s : State), s.canonical = true → s.chan[a].link = .management f →
    ∃ t, exec (.paAccFrameDone a d) s = .next t ∧ onlyChan a [Reg.ACU_PA_ACC a] s t ∧ t.chan[a] = { s.chan[a] with link := .free } ∧
      t.bitF (Reg.ACU_PA_ACC a) Fld.ACU_PA_ACC_BUSY = false ∧
      (f.getLsbD 15 = true → t.getF (Reg.ACU_PA_ACC a) Fld.ACU_PA_ACC_DATA = d.toNat))

/-! ### Actuators (chapter 5) -/

/-- R101 to R103: the arithmetic of a stage. -/
def Obligations.StageRoundsAndSaturates : Prop :=
  (∀ (n : Int) (k : Nat), 2 * (2 ^ k * roundHalfEven n k - n).natAbs ≤ 2 ^ k ∧
    (2 * (2 ^ k * roundHalfEven n k - n).natAbs = 2 ^ k → roundHalfEven n k % 2 = 0 ∨ k = 0)) ∧
  (∀ (st : Stage) (x : Int),
    let r := st.step false x
    (-8388607 : Int) ≤ r.1 ∧ r.1 ≤ 8388607 ∧ r.2.1 = { st with x1 := x, x2 := st.x1, y1 := r.1, y2 := st.y1 }) ∧
  (∀ (st : Stage) (x : Int), st.step true x = (x, { st with x1 := x, x2 := x, y1 := x, y2 := x }, false))

/-- R94 to R97, R109: what a wedge leaves. -/
def Obligations.WedgeGivesPositionOrWithdrawsPermit : Prop :=
  (∀ (a : Act) (r : WedgeRead) (s : State),
    s.acu[a].clocked = true → s.crossFree (.acuChan a false) = true → s.acu[a].state = .follow → s.acu[a].seek = none →
    (∀ o : Nat, o < 9 → samAt r.bits o = false) →
    ∃ t, exec (.wedgeRecord a r) s = .next t ∧ t.acu[a].lastPes = s.acu[a].lastPes ∧ t.acu[a].pesValid = false ∧
      t.acu[a].posCyl = s.acu[a].posCyl ∧ t.acu[a].missRun = s.acu[a].missRun + 1 ∧ t.acu[a].wrOk = false ∧ t.chan[a].gate = false ∧
      t = { s with acu := t.acu, chan := t.chan, intake := t.intake, regs := t.regs, sch := t.sch, cross := t.cross } ∧
      (∀ b, b ≠ a → t.acu[b] = s.acu[b])) ∧
  (∀ (a : Act) (r : WedgeRead) (s : State),
    let w := readWedge r
    let p := wedgePosition w.tid w.burstA w.burstB w.burstC w.burstD
    s.acu[a].clocked = true → s.crossFree (.acuChan a false) = true → s.acu[a].state = .follow → s.acu[a].seek = none →
    wedgeMissing w s.cfg.acts[a].amin s.chan[a].frame true = false → s.seqOk (wedgeStore a) = true → s.seqOk (acuStore a) = true →
    r.burstA + r.burstB ≠ 0 → r.burstC + r.burstD ≠ 0 →
    ∃ t, exec (.wedgeRecord a r) s = .next t ∧ t.acu[a].posCyl = p.1 ∧ t.acu[a].pesValid = true ∧
      t.acu[a].lastPes = pesOf (posUnits p.1 p.2) s.acu[a].refPos ∧ t.acu[a].missRun = 0 ∧ t.acu[a].state = .follow ∧
      t = { s with acu := t.acu, chan := t.chan, intake := t.intake, regs := t.regs, sch := t.sch, cross := t.cross } ∧
      (∀ b, b ≠ a → t.acu[b] = s.acu[b])) ∧
  (∀ (a : Act) (r : WedgeRead) (s : State), s.acu[a].clocked = true → s.crossFree (.acuChan a false) = false →
    ∃ t, exec (.wedgeRecord a r) s = .next t ∧ t.acu = s.acu ∧ t.scu = s.scu) ∧
  (∀ (a : Act) (r : WedgeRead) (s : State), s.acu[a].clocked = false → exec (.wedgeRecord a r) s = .next s)

/-- R106 to R108: the course of a seek. -/
def Obligations.SeekCourse : Prop :=
  (∀ (a : Act) (c : SeekCmd) (s : State),
    s.acu[a].state = .seek ∨ s.acu[a].state = .settle ∨ s.acu[a].state = .follow →
    ∃ t k, exec (.acuSeek a c) s = .next t ∧ t.acu[a].state = .seek ∧ t.acu[a].seek = some k ∧ k.cmd = c ∧ k.second = false ∧ k.failed = false ∧
      k.plan.target = ((c.cyl * 16384 : Nat) : Rat) ∧ t.acu[a].head = some c.head ∧ t.acu[a].lastCmd = some c ∧ t.acu[a].report = none ∧
      (s.acu[a].head ≠ some c.head → t.chan[a].due = s.chan[a].due ++ [.headSelect c.head]) ∧
      (s.acu[a].head = some c.head → t.chan[a].due = s.chan[a].due) ∧
      t.scu = s.scu ∧ t.power = s.power ∧ (∀ b, b ≠ a → t.acu[b] = s.acu[b])) ∧
  (∀ (a : Act) (c : SeekCmd) (s : State),
    s.acu[a].state ≠ .seek → s.acu[a].state ≠ .settle → s.acu[a].state ≠ .follow →
    ∃ t, exec (.acuSeek a c) s = .next t ∧ onlyAcu a [] s t ∧ t.acu[a] = { s.acu[a] with report := some .notReady }) ∧
  (∀ (a : Act) (s : State) (k : SeekRun),
    s.acu[a].state = .settle → s.acu[a].seek = some k → k.failed = false →
    (k.cmd.intent = .read → max 1 (Fld.ACU_SETTLE_CFG_RD_N.get s.acu[a].settleCfg) ≤ s.acu[a].rdRun) →
    (k.cmd.intent = .write → max 1 (Fld.ACU_SETTLE_CFG_WR_N.get s.acu[a].settleCfg) ≤ s.acu[a].wrRun) →
    ∃ t, exec (.seekSettled a) s = .next t ∧ t.acu[a].state = .follow ∧ t.acu[a].seek = none ∧ t.acu[a].report = some .completed ∧
      (k.cmd.intent = .read → t.acu[a].rdOk = true)) ∧
  (∀ (a : Act) (s : State),
    (s.acu[a].state ≠ .settle ∨ s.acu[a].seek = none ∨ ∃ k, s.acu[a].seek = some k ∧ (k.failed = true ∨
      (k.cmd.intent = .read ∧ s.acu[a].rdRun < max 1 (Fld.ACU_SETTLE_CFG_RD_N.get s.acu[a].settleCfg)) ∨
      (k.cmd.intent = .write ∧ s.acu[a].wrRun < max 1 (Fld.ACU_SETTLE_CFG_WR_N.get s.acu[a].settleCfg)))) →
    exec (.seekSettled a) s = .next s) ∧
  (∀ (a : Act) (s : State) (k : SeekRun),
    s.acu[a].state = .settle → s.acu[a].seek = some k → k.failed = false → s.settleTmo a ≤ s.acu[a].settleWedges →
    (k.cmd.intent = .read → s.acu[a].rdRun < max 1 (Fld.ACU_SETTLE_CFG_RD_N.get s.acu[a].settleCfg)) →
    (k.cmd.intent = .write → s.acu[a].wrRun < max 1 (Fld.ACU_SETTLE_CFG_WR_N.get s.acu[a].settleCfg)) →
    ∃ t, exec (.settleTimeout a) s = .next t ∧
      (k.second = false → t.acu[a].state = .seek ∧ ∃ k', t.acu[a].seek = some k' ∧ k'.cmd = k.cmd ∧ k'.second = true ∧ k'.failed = false) ∧
      (k.second = true → s.sevOf (srcAct a 1) < 2 → t.acu[a].state = .settle ∧ t.acu[a].report = some .failed ∧
        t.acu[a].seek = some { k with failed := true } ∧ ∃ x, t.raised = s.raised ++ [x] ∧ x.src = srcAct a 1)) ∧
  (∀ (a : Act) (s : State),
    (s.acu[a].state ≠ .settle ∨ s.acu[a].seek = none ∨ s.acu[a].settleWedges < s.settleTmo a ∨ ∃ k, s.acu[a].seek = some k ∧ (k.failed = true ∨
      (k.cmd.intent = .read ∧ max 1 (Fld.ACU_SETTLE_CFG_RD_N.get s.acu[a].settleCfg) ≤ s.acu[a].rdRun) ∨
      (k.cmd.intent = .write ∧ max 1 (Fld.ACU_SETTLE_CFG_WR_N.get s.acu[a].settleCfg) ≤ s.acu[a].wrRun))) →
    exec (.settleTimeout a) s = .next s)

/-- R97, R113, R115: servo lock. -/
def Obligations.ServoLockConfirmedAndLost : Prop :=
  (∀ (a : Act) (s : State), 4 ≤ s.acu[a].lockRun →
    ∃ t, exec (.servoLockConfirmed a) s = .next t ∧ t.acu[a].servoLock = true ∧
      (s.acu[a].state = .loading → t.acu[a].state = .settle) ∧
      (s.acu[a].state = .lost → t.acu[a].state = .seek ∧ ∀ c, s.acu[a].lastCmd = some c → t.acu[a].lastCmd = some c) ∧
      (s.acu[a].state ≠ .loading → s.acu[a].state ≠ .lost → t.acu[a].state = s.acu[a].state) ∧ t.scu = s.scu) ∧
  (∀ (a : Act) (s : State),
    ((s.acu[a].state = .settle ∨ s.acu[a].state = .follow) ∧ s.cfg.acts[a].lostN ≤ s.acu[a].missRun) ∨
      (s.acu[a].state = .seek ∧ 8 ≤ s.acu[a].missRun) →
    s.sevOf (srcAct a 2) < 2 →
    ∃ t x, exec (.servoLockLost a) s = .next t ∧ t.acu[a].state = .lost ∧ t.acu[a].servoLock = false ∧ t.acu[a].seek = none ∧
      t.raised = s.raised ++ [x] ∧ x.src = srcAct a 2 ∧ x.unit = .act a)

/-- R113, R115 to R117, R334: loads and parks. -/
def Obligations.LoadsAndParks : Prop :=
  (∀ (a : Act) (r : Nat) (s : State), s.acu[a].state = .ramp → s.acu[a].clocked = true → s.power.phase ≠ .held →
    ∃ t, exec (.acuLoad a r) s = .next t ∧ t.acu[a].state = .loading ∧ t.acu[a].gatesOn = true ∧ t.acu[a].servoLock = false ∧
      t.power = s.power) ∧
  (∀ (a : Act) (s : State), s.acu[a].state = .loading → s.acu[a].servoLock = false → s.sevOf (srcAct a 3) < 2 →
    ∃ t x, exec (.loadTimeout a) s = .next t ∧ t.acu[a].state = .parking ∧ t.raised = s.raised ++ [x] ∧ x.src = srcAct a 3) ∧
  (∀ (a : Act) (s : State), s.canonical = true → s.acu[a].state = .lost →
    ∃ t, exec (.recoverTimeout a) s = .next t ∧ t.acu[a].state = .parking ∧ t.acu[a].park = some .drive ∧
      t.getF (Reg.ACU_PARK_CTRL a) Fld.ACU_PARK_CTRL_CAUSE = 5) ∧
  (∀ (a : Act) (s : State), s.canonical = true → s.acu[a].state ≠ .parking → s.acu[a].state ≠ .ramp → s.acu[a].state ≠ .halted →
    ∃ t, exec (.harnessPark a) s = .next t ∧ t.acu[a].state = .parking ∧ t.acu[a].seek = none ∧
      t.getF (Reg.ACU_PARK_CTRL a) Fld.ACU_PARK_CTRL_CAUSE = 1) ∧
  (∀ (n : Fin 4) (a : Act) (s : State), s.canonical = true → s.acuWritable n a = true →
    s.acu[a].state ≠ .parking → s.acu[a].state ≠ .ramp → s.acu[a].state ≠ .halted →
    ∃ t, exec (.parkRegister n a) s = .next t ∧ t.acu[a].state = .parking ∧ t.getF (Reg.ACU_PARK_CTRL a) Fld.ACU_PARK_CTRL_CAUSE = 2) ∧
  (∀ (a : Act) (s : State), s.power.stopWait[a] = true → (∀ r, s.chan[a].cur = some r → r.write = false) →
    s.acu[a].state ≠ .parking → s.acu[a].state ≠ .ramp → s.acu[a].state ≠ .halted →
    ∃ t, exec (.unitStopPark a) s = .next t ∧ t.acu[a].state = .parking ∧ t.power.stopWait[a] = false) ∧
  (∀ (a : Act) (r : Nat) (s : State), s.acu[a].state = .parking → s.acu[a].park = some .drive → 400 ≤ s.acu[a].latchRun →
    ∃ t, exec (.parkLatched a r) s = .next t ∧ t.acu[a].state = .ramp ∧ t.acu[a].gatesOn = false ∧ t.acu[a].servoLock = false) ∧
  (∀ (a : Act) (s : State), s.acu[a].state = .parking →
    ∃ t, exec (.parkTimeout a) s = .next t ∧ t.acu[a].state = .halted ∧ t.acu[a].gatesOn = false)

/-- R17, R109, R110: the write permit. -/
def Obligations.WritePermitFollowsCauses : Prop :=
  (∀ (h : Hda) (s : State),
    ∃ t, exec (.shockAssert h) s = .next t ∧
      (∀ a, a = lowAct h ∨ a = highAct h → t.acu[a].shockIn = true ∧ t.acu[a].wrOk = false ∧ t.chan[a].gate = false) ∧
      (∀ a, a ≠ lowAct h → a ≠ highAct h → t.acu[a] = s.acu[a] ∧ t.chan[a] = s.chan[a]) ∧ t.scu = s.scu) ∧
  (∀ (h : Hda) (s : State), s.acu[lowAct h].shockIn = true →
    ∃ t, exec (.shockRelease h) s = .next t ∧ t.acu[lowAct h].shockIn = false ∧
      t.acu[lowAct h].shockLeft = some (Fld.ACU_WI_CFG_SHOCK_HOLD.get s.acu[lowAct h].wiCfg) ∧ t.scu = s.scu) ∧
  (∀ (a : Act) (s : State), s.acu[a].shockLeft = some 0 →
    ∃ t, exec (.shockHoldExpire a) s = .next t ∧ t.acu[a].shockLeft = none ∧ (∀ b, b ≠ a → t.acu[b] = s.acu[b])) ∧
  (∀ (a : Act) (s : State), s.canonical = true → s.masatPresent a = true →
    ∃ t, exec (.masatInhibit a) s = .next t ∧ t.acu[a] = { s.acu[a] with wrOk := false } ∧ t.chan[a].gate = false ∧
      t.getF (Reg.ACU_WI_STAT a) Fld.ACU_WI_STAT_LIVE = s.wiLive a ∧ regsBut [Reg.ACU_WI_STAT a, Reg.ACU_CNT_WI a] s t) ∧
  (∀ (a : Act) (s : State), s.wiLive a = 0 → max 1 (Fld.ACU_PES_LIM_COUNT.get s.acu[a].pesLim) ≤ s.acu[a].tolRun →
    ∃ t, exec (.writePermitReturn a) s = .next t ∧ onlyAcu a [] s t ∧ t.acu[a] = { s.acu[a] with wrOk := true }) ∧
  (∀ (a : Act) (s : State), s.wiLive a ≠ 0 → exec (.writePermitReturn a) s = .next s)

/-- R98, R99: a period of the VCM current loop. -/
def Obligations.CurrentLoopGivesDuty : Prop :=
  (∀ (a : Act) (x : Int) (s : State), s.acu[a].clocked = true →
    s.acu[a].state = .seek ∨ s.acu[a].state = .settle ∨ s.acu[a].state = .follow →
    ∃ t, exec (.vcmPwmPeriod a x) s = .next t ∧ onlyAcu a [] s t ∧ t.acu[a].curCmd = s.acu[a].curCmd ∧ t.acu[a].lastSense = x ∧
      t.acu[a].duty = ((s.acu[a].loops[(3 : Fin 4)].noteSum (sat24 (s.acu[a].curCmd - x)).2).run (sat24 (s.acu[a].curCmd - x)).1).1 ∧
      (∀ l : Fin 4, l ≠ 3 → t.acu[a].loops[l] = s.acu[a].loops[l])) ∧
  (∀ (a : Act) (x : Int) (s : State), s.acu[a].state = .ramp ∨ s.acu[a].state = .halted → exec (.vcmPwmPeriod a x) s = .next s)

/-- R104: coefficient writes. -/
def Obligations.CoefficientWritesApplied : Prop :=
  (∀ (n : Fin 4) (u : ShedUnit) (w : Word) (s : State),
    s.may n .operator = true → s.unitClocked u = true → s.bitF (cleSelKey n u) Fld.ACU_CLE_SEL_AUTOINC = false →
    s.getF (cleSelKey n u) Fld.ACU_CLE_SEL_STAGE < 12 → s.getF (cleSelKey n u) Fld.ACU_CLE_SEL_ITEM < 5 →
    (s.loopOf u (s.cleLoop n u)).waiting = [] →
    ∃ t, exec (.cleDataWrite n u w false) s = .next t ∧
      (t.loopOf u (s.cleLoop n u)).itemValue (s.getF (cleSelKey n u) Fld.ACU_CLE_SEL_STAGE) (s.getF (cleSelKey n u) Fld.ACU_CLE_SEL_ITEM)
        = w.toNat % 2 ^ 24 ∧ t.regs = s.regs) ∧
  (∀ (n : Fin 4) (u : ShedUnit) (w : Word) (s : State),
    s.may n .operator = true → s.unitClocked u = true → s.bitF (cleSelKey n u) Fld.ACU_CLE_SEL_AUTOINC = false →
    s.getF (cleSelKey n u) Fld.ACU_CLE_SEL_STAGE < 12 → s.getF (cleSelKey n u) Fld.ACU_CLE_SEL_ITEM < 5 →
    ∃ t c, exec (.cleDataWrite n u w true) s = .next t ∧
      t.loopOf u (s.cleLoop n u) = { s.loopOf u (s.cleLoop n u) with waiting := (s.loopOf u (s.cleLoop n u)).waiting ++ [c] }) ∧
  (∀ (n : Fin 4) (u : ShedUnit) (w : Word) (s : State),
    s.may n .operator = true → s.unitClocked u = true → (s.loopOf u (s.cleLoop n u)).waiting = [] →
    ∃ t, exec (.cleBypassWrite n u w false) s = .next t ∧
      t.loopOf u (s.cleLoop n u) = { s.loopOf u (s.cleLoop n u) with bypass := BitVec.ofNat 12 w.toNat } ∧ t.regs = s.regs) ∧
  (∀ (u : ShedUnit) (l : Fin 4) (s : State),
    ∃ t, exec (.cleWriteApply u l) s = .next t ∧ t.regs = s.regs ∧
      t.loopOf u l = { (s.loopOf u l).waiting.foldl Loop.applyWrite (s.loopOf u l) with waiting := [] } ∧
      (∀ j, j ≠ l → t.loopOf u j = s.loopOf u j))

/-! ### Spindles (chapter 6) -/

/-- R134 to R138: the start of a spindle. -/
def Obligations.SpindleStartSequence : Prop :=
  (∀ (n : Fin 4) (h : Hda) (s : State), s.cmdAllowed n h = true → s.power.mbusHi = true → s.scu[h].state = .stopped →
    ∃ t, exec (.scuRun n h) s = .next t ∧ t.scu[h].state = .detect ∧ t.scu[h].gates = .off ∧ t.scu[h].tries = 0 ∧
      (∀ g, g ≠ h → t.scu[g] = s.scu[g])) ∧
  (∀ (h : Hda) (s : State), s.scu[h].state = .detect →
    ∃ t, exec (.detectForward h) s = .next t ∧ onlyScu h [Reg.GLB_BU h] s t ∧
      t.scu[h] = { s.scu[h] with measuring := true, dirRev := false }) ∧
  (∀ (h : Hda) (m : CatchMeasure) (s : State), s.scu[h].state = .detect → s.scu[h].measuring = true → s.scu[h].lossPending = false →
    ∃ t, exec (.catchMeasured h m) s = .next t ∧
      (catchAgrees m = true → t.scu[h].gates = .on ∧ t.scu[h].rotor = false ∧
        t.scu[h].state = (if !s.power.mbusHi then ScuState.bushold
          else if s.inBand h (catchSpeed16 m s.cfg.spin[h].polePairs) then .run else .accel)) ∧
      (catchAgrees m = false → t.scu[h].state = .zvbrake ∧ t.scu[h].gates = .zero ∧ t.scu[h].afterZv = .align)) ∧
  (∀ (h : Hda) (s : State), s.scu[h].state = .detect → s.scu[h].measuring = false →
    ∃ t, exec (.detectReverse h) s = .next t ∧ t.scu[h].state = .zvbrake ∧ t.scu[h].gates = .zero ∧ t.scu[h].afterZv = .align ∧
      t.scu[h].dirRev = true) ∧
  (∀ (h : Hda) (s : State), s.scu[h].state = .detect → s.scu[h].measuring = false → s.scu[h].lossPending = false → s.power.mbusHi = true →
    s.power.placed[h] = false → s.power.buRun[h] = false →
    ∃ t, exec (.detectTimeout h) s = .next t ∧ t.scu[h].state = .align ∧ t.scu[h].gates = .pulses ∧ t.scu[h].tries = s.scu[h].tries + 1) ∧
  (∀ (h : Hda) (l : List Nat) (s : State), s.scu[h].state = .align →
    ∃ t, exec (.alignDone h l) s = .next t ∧ onlyScu h [] s t ∧ t.scu[h].state = .openloop ∧ t.scu[h].gates = .on ∧ t.scu[h].olPeriods = 0) ∧
  (∀ (h : Hda) (s : State), s.scu[h].state = .openloop → s.scu[h].obsLock = true →
    openReached s.cfg.spin[h] s.scu[h].olPeriods s.cfg.spin[h].handover = true →
    ∃ t, exec (.openloopHandover h) s = .next t ∧ t.scu[h].state = .accel ∧ t.scu[h].gates = .on ∧ t.scu[h].rotor = false ∧
      t.scu[h].obsLock = true) ∧
  (∀ (h : Hda) (s : State), s.scu[h].state = .openloop →
    (s.scu[h].obsSpeed < 0 ∨ (s.scu[h].obsLock = false ∧ openReached s.cfg.spin[h] s.scu[h].olPeriods (2 * s.cfg.spin[h].handover) = true)) →
    ∃ t, exec (.startFailure h) s = .next t ∧
      (s.scu[h].startFails + 1 < s.cfg.spin[h].startTries →
        t.scu[h].state = .coast ∧ t.scu[h].gates = .off ∧ t.scu[h].tryWait = true ∧ t.raised = s.raised) ∧
      (s.cfg.spin[h].startTries ≤ s.scu[h].startFails + 1 → s.sevOf (srcHda h 0) < 2 →
        t.scu[h].state = .coast ∧ t.scu[h].gates = .off ∧ t.scu[h].tryWait = false ∧ ∃ x, t.raised = s.raised ++ [x] ∧ x.src = srcHda h 0)) ∧
  (∀ (h : Hda) (s : State), s.scu[h].state = .coast → s.scu[h].tryWait = true → s.power.mbusHi = true →
    ∃ t, exec (.startRetryWaitEnd h) s = .next t ∧ t.scu[h].state = .detect ∧ t.scu[h].tryWait = false ∧ t.scu[h].gates = .off) ∧
  (∀ (h : Hda) (s : State), s.scu[h].state = .zvbrake → s.scu[h].afterZv = .align → s.scu[h].shortLow = false →
    s.scu[h].startFails + 1 < s.cfg.spin[h].startTries →
    ∃ t, exec (.brakeTimeout h) s = .next t ∧ t.scu[h].state = .coast ∧ t.scu[h].gates = .off ∧ t.scu[h].tryWait = true)

/-- R139 to R141, R145, R148: the stops of a spindle. -/
def Obligations.SpindleStops : Prop :=
  (∀ (n : Fin 4) (h : Hda) (s : State), s.cmdAllowed n h = true → s.scu[h].state = .run →
    s.bitF (Reg.SCU_CHOP h) Fld.SCU_CHOP_REGEN_OFF = false →
    ∃ t, exec (.scuStop n h) s = .next t ∧ t.scu[h].state = .decel ∧ t.scu[h].gates = .on ∧ t.scu[h].inTol = false) ∧
  (∀ (n : Fin 4) (h : Hda) (s : State), s.cmdAllowed n h = true → s.scu[h].state ≠ .halted →
    ∃ t, exec (.scuCoast n h) s = .next t ∧ t.scu[h].state = .coast ∧ t.scu[h].gates = .off) ∧
  (∀ (h : Hda) (s : State), s.scu[h].state = .zvbrake → s.scu[h].afterZv = .stop → s.scu[h].shortLow = true →
    ∃ t, exec (.zvbrakeStillEnd h) s = .next t ∧ t.scu[h].state = .stopped ∧ t.scu[h].gates = .off) ∧
  (∀ (h : Hda) (s : State), s.scu[h].state = .run → s.scu[h].catching = false → s.resN h ≤ s.scu[h].badRes → s.sevOf (srcHda h 1) < 2 →
    ∃ t x, exec (.rotorLossDeclared h) s = .next t ∧ t.scu[h].state = .coast ∧ t.scu[h].gates = .off ∧ t.scu[h].rotor = true ∧
      t.scu[h].lossPending = true ∧ t.raised = s.raised ++ [x] ∧ x.src = srcHda h 1 ∧
      (∀ a, a = lowAct h ∨ a = highAct h → t.acu[a].rotorIn = true ∧ t.acu[a].wrOk = false ∧ t.chan[a].gate = false)) ∧
  (∀ (h : Hda) (s : State), s.scu[h].state = .coast → s.scu[h].lossPending = true →
    ∃ t, exec (.rotorCurrentDecayed h) s = .next t ∧ t.scu[h].state = .detect ∧ t.scu[h].lossPending = true) ∧
  (∀ (h : Hda) (s : State),
    ∃ t, exec (.overvoltageTrip h) s = .next t ∧ t.scu[h].state = .halted ∧ t.scu[h].gates = .forced) ∧
  (∀ (h : Hda) (s : State), s.scu[h].state = .bushold → s.bothDown h = true →
    ∃ t, exec (.busholdEnd h) s = .next t ∧ t.scu[h].state = .coast ∧ t.scu[h].gates = .off)

/-- R119, R120, R127, R133: speed and its measures. -/
def Obligations.SpindlePeriodAndTarget : Prop :=
  (∀ (h : Hda) (p : PwmSample) (s : State), s.scu[h].clocked = true →
    ∃ t, exec (.pwmPeriod h p) s = .next t ∧ t.scu[h].vbus = busVolts s.cfg.spin[h] p.busIn ∧ t.scu[h].ichop = p.ichop ∧ (∀ g, g ≠ h → t.scu[g] = s.scu[g]) ∧
      (s.scu[h].state = .accel → s.seqOk (scuStore h) = true →
        t.scu[h].next.u ≤ dCap s.cfg.spin[h].deadT ∧ t.scu[h].next.v ≤ dCap s.cfg.spin[h].deadT ∧
        t.scu[h].next.w ≤ dCap s.cfg.spin[h].deadT)) ∧
  (∀ (h : Hda) (s : State), 64 ≤ s.scu[h].goodRun → s.scu[h].state.observes = true →
    ∃ t, exec (.observerLockConfirmed h) s = .next t ∧ onlyScu h [] s t ∧
      t.scu[h] = { s.scu[h] with obsLock := true, catching := false, catchFails := 0 }) ∧
  (∀ (h : Hda) (s : State), s.scu[h].state = .run → 4 ≤ s.scu[h].tolRun →
    ∃ t, exec (.inTolSet h) s = .next t ∧ t.scu[h] = { s.scu[h] with inTol := true } ∧ t.power.placed[h] = false ∧
      t.acu[lowAct h].speedIn = false ∧ t.acu[highAct h].speedIn = false) ∧
  (∀ (n : Fin 4) (h : Hda) (w : Word) (s : State), s.canonical = true → s.scuWritable n h .keeper = true →
    3600 ≤ Fld.SCU_CTRL_TARGET.get w → Fld.SCU_CTRL_TARGET.get w ≤ s.cfg.spin[h].spdMax →
    ∃ t, exec (.scuTargetWrite n h w) s = .next t ∧ t.getF (Reg.SCU_CTRL h) Fld.SCU_CTRL_TARGET = Fld.SCU_CTRL_TARGET.get w ∧
      (s.scu[h].state = .run → s.getF (Reg.SCU_CTRL h) Fld.SCU_CTRL_TARGET ≠ Fld.SCU_CTRL_TARGET.get w → t.scu[h].state = .accel)) ∧
  (∀ (n : Fin 4) (h : Hda) (w : Word) (s : State), Fld.SCU_CTRL_TARGET.get w < 3600 → exec (.scuTargetWrite n h w) s = .next s)

/-- R142 to R144: the chopper. -/
def Obligations.ChopperFaults : Prop :=
  (∀ (h : Hda) (v : Nat) (s : State), s.scu[h].chopOn = true →
    ∃ t, exec (.chopMinOnEnd h v) s = .next t ∧ onlyScu h [] s t ∧
      t.scu[h] = { s.scu[h] with chopOn := decide (13400 < v), chopHold := false }) ∧
  (∀ (h : Hda) (s : State), s.canonical = true → s.scu[h].chopOn = true → s.sevOf (srcHda h 3) < 2 →
    ∃ t x, exec (.chopOpenDetect h) s = .next t ∧ t.scu[h] = { s.scu[h] with chopOn := false, chopHold := false } ∧
      t.bitF (Reg.SCU_CHOP h) Fld.SCU_CHOP_OPEN = true ∧ t.bitF (Reg.SCU_CHOP h) Fld.SCU_CHOP_REGEN_OFF = true ∧
      t.raised = s.raised ++ [x] ∧ x.src = srcHda h 3 ∧ regsBut [Reg.SCU_CHOP h] s t) ∧
  (∀ (h : Hda) (s : State), s.canonical = true → s.scu[h].chopOn = true → s.scu[h].chopAt < s.scu[h].vbus + 100 → s.sevOf (srcHda h 3) < 2 →
    ∃ t x, exec (.chopNofallDetect h) s = .next t ∧ t.scu[h] = { s.scu[h] with chopOn := false, chopHold := false } ∧
      t.bitF (Reg.SCU_CHOP h) Fld.SCU_CHOP_NOFALL = true ∧ t.bitF (Reg.SCU_CHOP h) Fld.SCU_CHOP_REGEN_OFF = true ∧
      t.raised = s.raised ++ [x] ∧ x.src = srcHda h 3 ∧ regsBut [Reg.SCU_CHOP h] s t) ∧
  (∀ (h : Hda) (s : State), s.canonical = true → s.scu[h].chopOn = false → s.sevOf (srcHda h 3) < 2 →
    ∃ t x, exec (.chopStuckDetect h) s = .next t ∧ t.scu = s.scu ∧ t.bitF (Reg.SCU_CHOP h) Fld.SCU_CHOP_STUCK = true ∧
      t.raised = s.raised ++ [x] ∧ x.src = srcHda h 3 ∧ regsBut [Reg.SCU_CHOP h] s t) ∧
  (∀ (n : Fin 4) (h : Hda) (w : Word) (s : State), s.canonical = true → s.scuWritable n h .operator = true → w.toNat % 16 = 15 →
    ∃ t, exec (.chopFaultClear n h w) s = .next t ∧ onlyRegs [Reg.SCU_CHOP h] s t ∧ t.chopFault h = false ∧
      t.bitF (Reg.SCU_CHOP h) Fld.SCU_CHOP_REGEN_OFF = false)

/-! ### Microcode stores (chapter 7) -/

/-- R154, R155: the arithmetic words. -/
def Obligations.ShedArithmetic : Prop :=
  ∀ (u : ShedUnit) (c : Bool) (w : BitVec 128) (s : State),
    s.atWord (shedStore u) w → s.jq[shedStore u].armed = false → swf (0 : Int) s.jq[shedStore u].file = true →
    let q := shedStore u
    let o := s.jq[q]
    let k := s.coef u (layoutOf o) (wf w 71 62)
    (wf w 37 32 = 1 → ∃ t, exec (.shedClra u .clean c) s = .next t ∧ shedRan u (wf w 80 80) s t ∧ t.jq[q].acc = 0 ∧ t.jq[q].file = o.file) ∧
    (wf w 37 32 = 2 → ∃ t, exec (.shedMac u .clean c) s = .next t ∧ shedRan u (wf w 80 80) s t ∧ t.jq[q].acc = o.acc + o.rd (fSA w) * k ∧ t.jq[q].file = o.file) ∧
    (wf w 37 32 = 3 → ∃ t, exec (.shedMsc u .clean c) s = .next t ∧ shedRan u (wf w 80 80) s t ∧ t.jq[q].acc = o.acc - o.rd (fSA w) * k ∧ t.jq[q].file = o.file) ∧
    (wf w 37 32 = 4 → ∃ t, exec (.shedRnd u .clean c) s = .next t ∧ shedRan u (wf w 80 80) s t ∧ t.jq[q].rd (fDST w) = (sat24 (scaleAcc o.acc k)).1 ∧
      t.jq[q].sat = (sat24 (scaleAcc o.acc k)).2 ∧ t.jq[q].acc = o.acc) ∧
    (wf w 37 32 = 7 → ∃ t, exec (.shedAdds u .clean c) s = .next t ∧ shedRan u (wf w 80 80) s t ∧
      t.jq[q].rd (fDST w) = (sat24 (o.rd (fSA w) + o.rd (fSB w))).1 ∧ t.jq[q].sat = (sat24 (o.rd (fSA w) + o.rd (fSB w))).2) ∧
    (wf w 37 32 = 8 → ∃ t, exec (.shedSubs u .clean c) s = .next t ∧ shedRan u (wf w 80 80) s t ∧
      t.jq[q].rd (fDST w) = (sat24 (o.rd (fSA w) - o.rd (fSB w))).1 ∧ t.jq[q].sat = (sat24 (o.rd (fSA w) - o.rd (fSB w))).2)

/-- R154 to R156: the other words. -/
def Obligations.ShedMovesAndPorts : Prop :=
  ∀ (u : ShedUnit) (c : Bool) (w : BitVec 128) (s : State),
    s.atWord (shedStore u) w → s.jq[shedStore u].armed = false →
    swf (0 : Int) s.jq[shedStore u].file = true → swf (0 : Int) s.jq[shedStore u].ports = true →
    let q := shedStore u
    let o := s.jq[q]
    let cleared (f : BitVec 4) : BitVec 4 := (f &&& ~~~ BitVec.ofNat 4 (wf w 79 76)) ||| BitVec.ofNat 4 (wf w 75 72)
    (wf w 37 32 = 0 → ∃ t, exec (.shedNop u .clean c) s = .next t ∧ shedRan u (wf w 80 80) s t ∧ t.jq[q].flags = cleared o.flags ∧ t.jq[q].acc = o.acc ∧
      (wf w 29 24 = 63 → wf w 30 30 = 0 → t.jq[q].pc = wf w 23 12) ∧ (wf w 29 24 = 0 → wf w 30 30 = 0 → t.jq[q].pc = wf w 11 0)) ∧
    (wf w 37 32 = 5 → ∃ t, exec (.shedMov u .clean c) s = .next t ∧ shedRan u (wf w 80 80) s t ∧ t.jq[q].rd (fDST w) = o.rd (fSA w) ∧
      (∀ i, i % 256 ≠ fDST w → t.jq[q].rd i = o.rd i)) ∧
    (wf w 37 32 = 6 → ∃ t, exec (.shedLdi u .clean c) s = .next t ∧ shedRan u (wf w 80 80) s t ∧ t.jq[q].rd (fDST w) = signed 24 (wf w 119 96) ∧
      (∀ i, i % 256 ≠ fDST w → t.jq[q].rd i = o.rd i)) ∧
    (wf w 37 32 = 9 → ∀ p : BitVec 24, ∃ t, exec (.shedIn u .clean c p) s = .next t ∧ shedRan u (wf w 80 80) s t ∧ t.jq[q].rd (fDST w) = p.toInt ∧
      (∀ i, i % 256 ≠ fDST w → t.jq[q].rd i = o.rd i)) ∧
    (wf w 37 32 = 10 → ∃ t, exec (.shedOutp u .clean c) s = .next t ∧ shedRan u (wf w 80 80) s t ∧ sget 0 t.jq[q].ports (fDST w) = o.rd (fSA w) ∧
      t.jq[q].file = o.file) ∧
    (wf w 37 32 = 11 → ∃ t, exec (.shedBypck u .clean c) s = .next t ∧ shedRan u (wf w 80 80) s t ∧
      t.jq[q].flags = cleared (if (s.loopsOf u)[Config.wordLoop q.val o.pc].bypass.getLsbD (wf w 99 96) then o.flags ||| 8#4 else o.flags)) ∧
    (wf w 37 32 = 12 → o.flags.getLsbD 3 = false → ∃ t, exec (.shedDly u .clean c) s = .next t ∧ shedRan u (wf w 80 80) s t ∧
      t.jq[q].rd (fDST w) = o.rd (fSA w) ∧ t.jq[q].rd (fDST w + 1) = o.rd (fDST w) ∧ t.jq[q].rd (fDST w + 2) = o.rd (fSB w) ∧
      t.jq[q].rd (fDST w + 3) = o.rd (fDST w + 2)) ∧
    (wf w 37 32 = 13 → ∃ t, exec (.shedSat u .clean c) s = .next t ∧ t.regs = s.regs ∧
      (wf w 100 100 = 1 → (t.loopsOf u)[Config.wordLoop q.val o.pc].outSat = true) ∧
      (∀ l, l ≠ Config.wordLoop q.val o.pc → (t.loopsOf u)[l] = (s.loopsOf u)[l]))

/-- R150 to R153: the Pick microword. -/
def Obligations.PickWordsSequence : Prop :=
  ∀ (q : Fin 64) (w : BitVec 128) (s : State),
    isPick q = true → s.atWord q w → s.jq[q].armed = false →
    (wf w 36 35 = 0 → ∀ c : Bool, ∃ t, exec (.pickSelect q .clean c) s = .next t ∧ pickRan q (wf w 50 50) s t ∧
      t.jq[q].out = BitVec.ofNat 45 (wf w 95 51) ∧
      (wf w 33 28 = 63 → t.jq[q].pc = if wf w 34 34 = 1 then wf w 16 6 else wf w 27 17) ∧
      (1 < wf w 33 28 → wf w 33 28 < 63 → wf w 34 34 = 0 →
        t.jq[q].pc = if s.unitCond q (wf w 33 28) c then wf w 27 17 else wf w 16 6)) ∧
    (wf w 36 35 = 1 → ∀ hit : Bool, ∃ t, exec (.pickExit q .clean hit) s = .next t ∧ pickRan q (wf w 50 50) s t ∧
      t.jq[q].out = BitVec.ofNat 45 (wf w 95 51) ∧
      (1 < wf w 33 28 → wf w 33 28 < 63 → unitFixes q (wf w 33 28) = false → t.jq[q].pc = if hit then wf w 27 17 else wf w 16 6)) ∧
    (wf w 36 35 = 2 → wf w 49 49 = 0 → ∃ t, exec (.pickLoop q .clean) s = .next t ∧ pickRan q (wf w 50 50) s t ∧
      t.jq[q].out = BitVec.ofNat 45 (wf w 95 51) ∧ t.jq[q].lcnt = s.jq[q].lcnt - 1 ∧
      t.jq[q].pc = if s.jq[q].lcnt = 0 then wf w 16 6 else wf w 27 17)

/-- R162, R165 to R167: the activation of stores. -/
def Obligations.StoresArmSwapAbandon : Prop :=
  (∀ (n : Fin 4) (q : Fin 64) (s : State), s.canonical = true → s.may n .keeper = true →
    s.jq[q].stgValid = true → s.jq[q].running = true → s.storeFailed q.val = false →
    ∃ t, exec (.jqArm n) s = .next t ∧ t.jq[q].armed = true ∧ t.jq[q].active = s.jq[q].active ∧ t.bitF Reg.JQ_ACT Fld.JQ_ACT_BUSY = true ∧
      t.acu = s.acu ∧ t.scu = s.scu) ∧
  (∀ (u : ShedUnit) (q : Fin 64) (s : State), s.groupIdle u = true → s.groupHeld u = false →
    q ∈ groupStores u → s.jq[q].armed = true → s.jq[q].waitIdle = true → s.bitF Reg.JQ_ACT Fld.JQ_ACT_BUSY = true →
    ∃ t, exec (.jqSwapIdle u) s = .next t ∧ t.jq[q].active = s.jq[q].staging ∧ t.jq[q].staging = s.jq[q].active ∧ t.jq[q].pc = 0 ∧
      t.jq[q].armed = false ∧ t.jq[q].stgValid = false ∧ (∀ p, p ∉ groupStores u → t.jq[p] = s.jq[p])) ∧
  (∀ (n : Fin 4) (s : State), s.canonical = true → s.may n .keeper = true → s.bitF Reg.JQ_ACT Fld.JQ_ACT_BUSY = true →
    ∃ t, exec (.jqAbort n) s = .next t ∧ leftActivation s t) ∧
  (∀ (s : State), s.canonical = true → s.bitF Reg.JQ_ACT Fld.JQ_ACT_BUSY = true →
    ∃ t, exec .jqSwapTimeout s = .next t ∧ leftActivation s t) ∧
  (∀ (q : Fin 64) (s : State) (p p' : Prog) (block again : FetchErr), s.jq[q].held = true → s.storeFailed q.val = false →
    s.jq[q].active = some p → s.repaired s.jq[q].slot q (isPick q) p s.jq[q].pc ⟨block, again⟩ = some p' →
    ∃ t, exec (.jqFallbackRepair q block again) s = .next t ∧ onlyStore q s t ∧ t.jq[q] = { s.jq[q] with active := some p', held := false })

/-! ### The host ports (chapter 8) -/

/-- R170, R365: links of a port. -/
def Obligations.LinksComeAndGo : Prop :=
  let wide (p : Fin 2) (t : State) : Prop := ∀ l : Fin 4, t.bitF (Reg.SAS_PHY_STAT p l) Fld.SAS_PHY_STAT_WIDE =
    (t.linkUp p l && (List.finRange 4).any (fun (k : Fin 4) =>
      k != l && t.linkUp p k && t.intake.attached[laneOf p k] == t.intake.attached[laneOf p l]))
  (∀ (p : Fin 2) (l : Fin 4) (rate : Fin 4) (w : BitVec 64) (s : State), s.canonical = true → s.power.portsOn = true → rate ≠ 0 →
    ∃ t, exec (.phyLinkUp p l rate w) s = .next t ∧ t.getF (Reg.SAS_PHY_STAT p l) Fld.SAS_PHY_STAT_RATE = rate.val ∧
      t.intake.attached[laneOf p l] = w ∧ wide p t ∧
      t.bitF Reg.GLB_READY (if p.val = 0 then Fld.GLB_READY_SAS0 else Fld.GLB_READY_SAS1) = true ∧
      t = { s with regs := t.regs, intake := { s.intake with attached := s.intake.attached.set (laneOf p l) w } } ∧
      regsBut (Reg.GLB_READY :: (List.finRange 4).map (fun k => Reg.SAS_PHY_STAT p k)) s t) ∧
  (∀ (p : Fin 2) (l : Fin 4) (s : State), s.canonical = true → s.linkUp p l = true →
    ∃ t, exec (.phyLinkLoss p l) s = .next t ∧ t.linkUp p l = false ∧
      t.getF (Reg.SAS_PHY_STAT p l) Fld.SAS_PHY_STAT_RESETS = min 255 (s.getF (Reg.SAS_PHY_STAT p l) Fld.SAS_PHY_STAT_RESETS + 1) ∧ wide p t ∧
      t.logCount 0x18 (laneOf p l).val = s.logCount 0x18 (laneOf p l).val + 1 ∧
      t = { s with regs := t.regs, intake := { s.intake with logs := t.intake.logs } } ∧
      regsBut ((List.finRange 4).map (fun k => Reg.SAS_PHY_STAT p k)) s t)

/-- R172, R173, R215, R366. -/
def Obligations.NexusesAndQuotas : Prop :=
  (∀ (f : OpenFrame) (s : State), s.canonical = true → s.linkUp f.port f.lane = true →
    let known := s.intake.initTab.any (fun e => e.2 == ⟨f.port, f.addr⟩)
    let fits := decide (f.rate.val ≠ 0 ∧ f.rate.val ≤ s.getF (Reg.SAS_PHY_STAT f.port f.lane) Fld.SAS_PHY_STAT_RATE)
    (f.proto = .ssp → fits = true → known = true → exec (.openAddressFrame f) s = .next (sendMsg f.port.val (.openAccept f.lane.val) s)) ∧
    (∀ i, f.proto = .ssp → fits = true → known = false → s.freeInit = some i →
      ∃ t, exec (.openAddressFrame f) s = .next t ∧ t.intake.sent[f.port] = s.intake.sent[f.port] ++ [.openAccept f.lane.val] ∧
        aget t.intake.initTab i = some ⟨f.port, f.addr⟩ ∧ (∀ j, j ≠ i → aget t.intake.initTab j = aget s.intake.initTab j) ∧
        (∀ l ∈ s.cfg.lus, (⟨i, l.lu, 0x29, s.formUa⟩ : UnitAtt) ∈ t.intake.uas) ∧ t = { s with intake := t.intake } ∧ otherPort f.port s t) ∧
    (f.proto = .ssp → fits = true → known = false → s.freeInit = none →
      ∃ t, exec (.openAddressFrame f) s = .next t ∧ t.intake.sent[f.port] = s.intake.sent[f.port] ++ [.openReject f.lane.val rejRetry] ∧
        t.getF (Reg.SAS_CNT_OPEN f.port) Fld.SAS_CNT_OPEN_TABLE_FULL = min 65535 (s.getF (Reg.SAS_CNT_OPEN f.port) Fld.SAS_CNT_OPEN_TABLE_FULL + 1)) ∧
    (f.proto ≠ .ssp ∨ fits = false →
      ∃ t, exec (.openAddressFrame f) s = .next t ∧ t.intake.initTab = s.intake.initTab ∧ t.intake.sent[f.port] = s.intake.sent[f.port] ++
          [.openReject f.lane.val (if f.proto ≠ .ssp then rejProtocol else rejRate)] ∧
        t.getF (Reg.SAS_CNT_OPEN f.port) Fld.SAS_CNT_OPEN_PROTO = min 65535 (s.getF (Reg.SAS_CNT_OPEN f.port) Fld.SAS_CNT_OPEN_PROTO + 1))) ∧
  (∀ (i : Fin 2048) (s : State), s.nexusBusy i.val = false →
    ∃ t, exec (.initiatorIdleExpire i) s = .next t ∧ aget t.intake.initTab i.val = none ∧
      (∀ j, j ≠ i.val → aget t.intake.initTab j = aget s.intake.initTab j) ∧ (∀ u, u ∈ t.intake.uas ↔ u ∈ s.intake.uas ∧ u.init ≠ i.val) ∧
      t = { s with intake := { s.intake with initTab := t.intake.initTab, uas := t.intake.uas } }) ∧
  (∀ (n : Fin 4) (w : Word) (l : LuCfg) (s : State), s.canonical = true → s.may n .keeper = true →
    s.luCfg (s.getF (bank n.val Reg.INT_LU_SEL) Fld.INT_LU_SEL_LU) = some l →
    let u := s.getF (bank n.val Reg.INT_LU_SEL) Fld.INT_LU_SEL_LU
    let ctxs := s.sumOver (fun k => k.lu != u) (fun k => s.minCtx k.lu) + Fld.INT_LU_CTX_MIN.get w
    let bobs := s.sumOver (fun k => k.lu != u && s.poolOf k.lu == s.poolOf u) (fun k => s.minBob k.lu) + 4 * Fld.INT_LU_BOB_MIN.get w
    ∃ t v, exec (.intLuQuotaWrite n true w) s = .next t ∧ exec (.intLuQuotaWrite n false w) s = .next v ∧
      (if 40960 < ctxs then t.bitF Reg.INT_STAT Fld.INT_STAT_QUOTA_REJ = true ∧ onlyRegs [Reg.INT_STAT] s t
        else t.reg (bank u Reg.INT_LU_CTX) = w ∧ onlyRegs [bank u Reg.INT_LU_CTX] s t) ∧
      (if s.poolSize (s.poolOf u) < bobs then v.bitF Reg.INT_STAT Fld.INT_STAT_QUOTA_REJ = true ∧ onlyRegs [Reg.INT_STAT] s v
        else v.reg (bank u Reg.INT_LU_BOB) = w ∧ onlyRegs [bank u Reg.INT_LU_BOB] s v))

/-- R176, R177, R210, R211. -/
def Obligations.TaskManagement : Prop :=
  let ended (p : Ctx → Bool) (q : Waiting → Bool) (t : State) : Prop :=
    (∀ c x, t.ctx? c = some x → p x = true → x.state = .stopping ∨ x.state = .linger) ∧ (∀ w ∈ t.intake.admq, q w = false)
  let answer (f : TmfFrame) (p : Ctx → Bool) (t : State) : Prop :=
    if t.stopping p = [] then t.intake.sent[f.port].getLast? = some (.tmf f.init.val f.tag.toNat tmfComplete)
    else ⟨f.port.val, f.init.val, f.tag.toNat, t.stopping p⟩ ∈ t.intake.tmfs
  (∀ (f : TmfFrame) (s : State), s.known f.port.val f.init.val = true → tmfLunOk f = true → (s.luCfg (tmfLu f)).isSome = true →
    let u := tmfLu f
    let tasks (x : Ctx) : Bool := x.lu == u && decide (x.port < 2)
    let one (x : Ctx) : Bool := ofNexus f x && x.lu == u && x.tag == f.managed.toNat
    let waits (w : Waiting) : Bool := waitNexus f w && frameLu w.frame == u
    let there (b : Bool) : Nat := if b then tmfSucceeded else tmfComplete
    (∃ t, exec (.abortTask f) s = .next t ∧ ended one (fun w => waits w && w.frame.tag == f.managed) t ∧ answer f one t) ∧
    (∃ t, exec (.abortTaskSet f) s = .next t ∧ ended (fun x => ofNexus f x && x.lu == u) waits t ∧ answer f (fun x => ofNexus f x && x.lu == u) t) ∧
    (∃ t, exec (.clearTaskSet f) s = .next t ∧ ended tasks (fun w => frameLu w.frame == u) t ∧ answer f tasks t ∧
      (∀ i ∈ s.losers u, i ≠ f.init.val → (⟨i, u, 0x2F, 0x00⟩ : UnitAtt) ∈ t.intake.uas)) ∧
    (∃ t, exec (.logicalUnitReset f) s = .next t ∧ ended tasks (fun w => frameLu w.frame == u) t ∧ answer f tasks t ∧
      (∀ e ∈ s.intake.initTab, (⟨e.1, u, 0x29, 0x03⟩ : UnitAtt) ∈ t.intake.uas)) ∧
    exec (.queryTask f) s = .next (tmfAnswer f (there (s.intake.ctxs.any (fun e => e.2.state != .linger && one e.2)
      || s.intake.admq.any (fun w => waits w && w.frame.tag == f.managed))) s) ∧
    exec (.queryTaskSet f) s = .next (tmfAnswer f (there (s.intake.ctxs.any (fun e => e.2.state != .linger && (ofNexus f e.2 && e.2.lu == u))
      || s.intake.admq.any waits)) s)) ∧
  (∀ (f : TmfFrame) (s : State), s.known f.port.val f.init.val = true →
    exec (.tmfUnsupported f) s = .next (tmfAnswer f tmfNotSupported s) ∧
    ∃ t, exec (.iTNexusReset f) s = .next t ∧ ended (fun x => ofNexus f x) (fun w => w.frame.init.val == f.init.val) t ∧
      answer f (ofNexus f) t ∧ (∀ l ∈ s.cfg.lus, (⟨f.init.val, l.lu, 0x29, 0x07⟩ : UnitAtt) ∈ t.intake.uas)) ∧
  (∀ (i : Fin 2048) (l : LuCfg) (s : State), (aget s.intake.initTab i.val).isSome = true → l ∈ s.cfg.lus → s.lossTime l.lu ≠ 0xFFFF →
    ∃ t, exec (.iTNexusLoss i) s = .next t ∧ ended (fun x => x.init == i.val && decide (x.port < 2)) (fun w => w.frame.init.val == i.val) t ∧
      (∀ k ∈ s.cfg.lus, (⟨i.val, k.lu, 0x29, 0x07⟩ : UnitAtt) ∈ t.intake.uas)) ∧
  (∀ (p : Fin 2) (n : Fin 4) (s : State), s.linkUp p n = true →
    ∃ t, exec (.sasHardReset p n) s = .next t ∧ ended (fun x => x.port == p.val) (fun w => w.frame.port == p) t ∧
      (∀ e ∈ s.intake.initTab, e.2.port = p → ∀ k ∈ s.cfg.lus, (⟨e.1, k.lu, 0x29, 0x02⟩ : UnitAtt) ∈ t.intake.uas)) ∧
  (∀ (p : Fin 2) (i tag : Nat) (cs : List Nat) (s : State), s.intake.tmfs = [⟨p.val, i, tag, cs⟩] →
    (∀ c ∈ cs, ∀ x, s.ctx? c = some x → x.state ≠ .stopping) →
    exec .abortStopComplete s = .next (sendMsg p.val (.tmf i tag tmfComplete) (s.modIntake (fun k => { k with tmfs := [] }))))

/-- R174, R180. -/
def Obligations.WriteDataPaced : Prop :=
  (∀ (p : Fin 2) (j : Job) (x : Ctx) (s : State), s.nextXfer p.val = some (j, x) →
    let lo := j.first * x.wire
    let hi := (j.first + j.count) * x.wire
    exec (.xferRdySend p) s = .next (sendMsg p.val (.xferRdy x.init x.tag lo (hi - lo))
      { s with shu := { s.shu with rx := s.shu.rx ++ [⟨j.ctx, lo, hi, lo, []⟩] } })) ∧
  (∀ (f : DataFrame) (c : Nat) (x : Ctx) (r : RxBurst) (s : State), s.known f.port.val f.init.val = true →
    s.taskOf f.port.val f.init.val f.tag.toNat = some c → s.ctx? c = some x → x.state ≠ .stopping → x.abort = false → x.response = [] →
    s.rxOf c = some r → f.offset = r.next → 0 < f.data.length → f.data.length ≤ 1024 → r.next + f.data.length ≤ r.hi →
    (f.data.length = 1024 ∨ r.next + f.data.length = r.hi) →
    ∃ t, exec (.dataFrameReceived f) s = .next t ∧ t.intake.sent[f.port] = s.intake.sent[f.port] ++ [.ack f.init.val f.tag.toNat] ∧
      t.rxOf c = some { r with next := r.next + f.data.length, data := r.data ++ f.data } ∧ otherPort f.port s t ∧
      t = { s with intake := { s.intake with sent := t.intake.sent }, shu := { s.shu with rx := t.shu.rx } }) ∧
  (∀ (f : DataFrame) (s : State), s.canonical = true → s.known f.port.val f.init.val = true → s.taskOf f.port.val f.init.val f.tag.toNat = none →
    s.waitOf f.port.val f.init.val f.tag.toNat = none →
    ∃ t, exec (.dataFrameReceived f) s = .next t ∧ t.intake.sent[f.port] = s.intake.sent[f.port] ++ [.ack f.init.val f.tag.toNat] ∧
      t.getF (Reg.SAS_CNT_XFER f.port) Fld.SAS_CNT_XFER_ORPHAN = min 65535 (s.getF (Reg.SAS_CNT_XFER f.port) Fld.SAS_CNT_XFER_ORPHAN + 1) ∧
      regsBut [Reg.SAS_CNT_XFER f.port] s t ∧ t.shu = s.shu ∧ t.intake.ctxs = s.intake.ctxs) ∧
  (∀ (f : DataFrame) (w : Waiting) (s : State), s.canonical = true → s.known f.port.val f.init.val = true →
    s.taskOf f.port.val f.init.val f.tag.toNat = none → s.intake.admq = [w] → s.waitOf f.port.val f.init.val f.tag.toNat = some w →
    ∃ t, exec (.dataFrameReceived f) s = .next t ∧ t.intake.admq = [] ∧ t.intake.ctxs = s.intake.ctxs ∧ t.shu = s.shu ∧
      t.intake.sent[f.port] = s.intake.sent[f.port] ++ [.ack f.init.val f.tag.toNat,
        .response f.init.val f.tag.toNat stCheck (s.senseBytes (frameLu w.frame) (sense keyAborted 0x4B 0x02))] ∧
      t.getF (Reg.SAS_CNT_XFER f.port) Fld.SAS_CNT_XFER_VIOL = min 65535 (s.getF (Reg.SAS_CNT_XFER f.port) Fld.SAS_CNT_XFER_VIOL + 1)) ∧
  (∀ (p : Fin 2) (c : Fin 40960) (x : Ctx) (s : State), s.canonical = true → s.intake.ctxs = [(c.val, x)] → x.port = p.val → x.response = [] →
    x.state ≠ .linger →
    let ends (q : Nat) (i : Instr) : Prop := ∃ t, exec i s = .next t ∧ t.intake.ctxs = [] ∧
      t.intake.sent[p] = s.intake.sent[p] ++ [.response x.init x.tag stCheck (s.senseBytes x.lu (sense keyAborted 0x4B q))] ∧
      t.getF (Reg.SAS_CNT_XFER p) Fld.SAS_CNT_XFER_VIOL = min 65535 (s.getF (Reg.SAS_CNT_XFER p) Fld.SAS_CNT_XFER_VIOL + 1)
    (∀ r, s.rxOf c.val = some r → r.next = r.lo → r.lo < r.hi → s.respTime x.lu ≠ 0 → ends 0x06 (.initiatorResponseTimeout c)) ∧
    (s.hasSent c.val x = true → ends 0x03 (.ackNakTimeout c) ∧ ends 0x04 (.nakReceived c)))

/-- R180, R192, R207. -/
def Obligations.ReadDataPinsAndWaiting : Prop :=
  (∀ (p : Fin 2) (c : Nat) (x : Ctx) (l : List Byte) (s : State), s.intake.ctxs = [(c, x)] → s.nextOut p = some (c, x, l) → x.err = none →
    x.pinFrom = [] → x.preds = [] →
    let k := takeSent c l.length s.shu.hostOut[p]
    ∃ t, exec (.dataFrameSend p) s = .next t ∧ t.intake.sent[p] = s.intake.sent[p] ++ [.data x.init x.tag x.requested l] ∧ otherPort p s t ∧
      t.shu.hostOut[p] = k.1 ∧ t.ctx? c = some { x with requested := x.requested + l.length, hostDone := x.hostDone + k.2.length
                                                        acked := x.acked + k.2.length } ∧ t.regs = s.regs) ∧
  (∀ (c : Fin 40960) (x : Ctx) (s : State), s.canonical = true → s.intake.ctxs = [(c.val, x)] → x.state = .linger → x.reserve = false →
    ∃ t, exec (.pinExpire c) s = .next t ∧ t.intake.ctxs = [] ∧
      t.creel.returns = s.creel.returns ++ (x.bobs.filter (· != 0x3FFFF)).map (fun b => (b, x.lu, false)) ∧ t.ctxFree = (s.ctxFree + 1) % 2 ^ 16 ∧
      t.intake.sent = s.intake.sent ∧ t.chan = s.chan) ∧
  (∀ (w : Waiting) (l : LuCfg) (a : Ask) (s : State), s.canonical = true → s.power.phase = .run → s.intake.ctxs = [] → s.intake.admq = [w] →
    s.hed.retired = [] → s.activating = false → s.frameCfg w.frame = some l → s.check4 l w.frame = .ok a →
    s.checks56 l (s.mkCtx w.frame (some l) a 0) = none → s.check7 l (s.mkCtx w.frame (some l) a 0) [w] = none →
    (a.cls = 0 ∨ a.cls = 2 → 0 < a.nblk → (∀ b : Act, s.sch[b].pass = none) → s.ctxFits (some l.lu) = true →
      a.bobbins = 0 ∨ s.creelAnswer l.lu a.bobbins = .grant →
      ∃ t c x, exec .admissionRetry s = .next t ∧ t.intake.admq = [] ∧ t.intake.ctxs = [(c, x)] ∧ x.state = .queued ∧ x.tag = w.frame.tag.toNat ∧
        t.getF Reg.INT_CNT_WAIT Fld.INT_CNT_WAIT_WAITED = min 65535 (s.getF Reg.INT_CNT_WAIT Fld.INT_CNT_WAIT_WAITED + 1) ∧
        t.getF Reg.INT_CNT_ADMIT Fld.INT_CNT_ADMIT_COUNT = min 4294967295 (s.getF Reg.INT_CNT_ADMIT Fld.INT_CNT_ADMIT_COUNT + 1)) ∧
    (a.cls ≠ 1 ∨ w.counted = true → s.ctxFits (some l.lu) = false → ∃ t, exec .admissionRetry s = .next t ∧ t.intake = s.intake)) ∧
  (∀ (w : Waiting) (s : State), s.canonical = true → s.intake.admq = [w] →
    ∃ t, exec (.admissionTimeout 0) s = .next t ∧ t.intake.admq = [] ∧ t.intake.ctxs = s.intake.ctxs ∧ otherPort w.frame.port s t ∧
      t.intake.sent[w.frame.port] = s.intake.sent[w.frame.port] ++ [.response w.frame.init.val w.frame.tag.toNat
        (if s.nexusHas w.frame.init.val (frameLu w.frame) then stTaskSetFull else stBusy) []])

/-! ### Commands of the host (chapters 8 and 9) -/

/-- R176, R178, R189: checks 1 to 7. -/
def Obligations.CommandChecks : Prop :=
  ∀ (f : CmdFrame) (s : State),
    (s.known f.port.val f.init.val = false ∨ s.power.phase ≠ .run → exec (cmdRow f) s = .next s) ∧
    (s.known f.port.val f.init.val = true → s.power.phase = .run →
      (f.addLen ≠ 0 ∨ frameNaca f = true → ∃ t, exec (cmdRow f) s = .next t ∧ refused f (frameLu f) fieldErr s t ∧ t.regs = s.regs) ∧
      (f.addLen = 0 → frameNaca f = false → s.frameCfg f = none → noAttention (fc f 0) = false →
        ∃ t, exec (cmdRow f) s = .next t ∧ refused f (frameLu f) luErr s t ∧ t.regs = s.regs)) ∧
    (∀ l, s.hears f l → s.taskOf f.port.val f.init.val f.tag.toNat = none → s.waitOf f.port.val f.init.val f.tag.toNat = none →
      (∀ u, noAttention (fc f 0) = false → s.intake.uas.find? (fun u => u.init == f.init.val && u.lu == frameLu f) = some u →
        ∃ t, exec (cmdRow f) s = .next t ∧ refused f (frameLu f) (sense keyAttention u.asc u.ascq) s t ∧ t.intake.uas = s.intake.uas.erase u ∧
          t.regs = s.regs) ∧
      ((∀ u ∈ s.intake.uas, u.init = f.init.val → u.lu ≠ l.lu) →
        (opSupported f = false → ∃ t, exec (.unsupportedOpcode f) s = .next t ∧ refused f (frameLu f) opErr s t ∧ t.regs = s.regs) ∧
        (∀ e, s.check4 l f = .error e → ∃ t, exec (cmdRow f) s = .next t ∧ refused f (frameLu f) e s t ∧ t.regs = s.regs) ∧
        (∀ a e, s.check4 l f = .ok a → s.checks56 l (s.mkCtx f (some l) a 0) = some e →
          ∃ t, exec (cmdRow f) s = .next t ∧ refused f (frameLu f) e s t) ∧
        (∀ a e, s.check4 l f = .ok a → s.checks56 l (s.mkCtx f (some l) a 0) = none → s.check7 l (s.mkCtx f (some l) a 0) [] = some e →
          e.asc ≠ 0x80 → ∃ t, exec (cmdRow f) s = .next t ∧ refused f (frameLu f) e s t)))

/-- R174, R178, R184 to R186, R209, R443. -/
def Obligations.CommandsReturnTheirData : Prop :=
  ∀ (f : CmdFrame) (l : LuCfg) (a : Ask) (s : State), ClearWay s f l a →
    let gives (i : Instr) (d : List Byte) (alloc : Nat) : Prop := ∃ t, exec i s = .next t ∧ answered f (d.take alloc) s t ∧ t.hbm = s.hbm ∧
      t.cfg = s.cfg ∧ t.flash = s.flash
    (isOp f 0x00 = true → gives (.testUnitReady f) [] 0) ∧
    (isOp f 0x91 = true → gives (.synchronizeCache16 f) [] 0) ∧
    (isOp f 0x12 = true → gives (.inquiry f)
      (if fc f 1 % 2 = 1 then (s.vpdPage l f.port.val (fc f 2)).getD [] else s.inquiryData (some l)) (fbe f 3 2)) ∧
    (isOp f 0xA0 = true → gives (.reportLuns f) s.reportLuns (fbe f 6 4)) ∧
    (isOp f 0x1A = true → gives (.modeSense6 f)
      ((s.modeSense l false (fc f 1 / 8 % 2 == 1) false (fc f 2 / 64) (fc f 2 % 64) (fc f 3)).getD []) (fc f 4)) ∧
    (isOp f 0x5A = true → gives (.modeSense10 f)
      ((s.modeSense l true (fc f 1 / 8 % 2 == 1) (fc f 1 / 16 % 2 == 1) (fc f 2 / 64) (fc f 2 % 64) (fc f 3)).getD []) (fbe f 7 2)) ∧
    (isOp f 0x4D = true → gives (.logSense f) ((s.logSense l.lu (fc f 2 % 64) (fc f 3)).getD []) (fbe f 7 2)) ∧
    (isOp f 0x1C = true → fc f 2 ≠ 0 → gives (.receiveDiagnosticResults f) ((aget s.intake.diagWritten (l.lu * 256 + fc f 2)).getD []) (fbe f 3 2)) ∧
    (isOp f 0x3C = true → fc f 1 % 32 = 3 → gives (.readBuffer f) ([0x00#8] ++ beBytes 3 65536) (fbe f 6 3)) ∧
    (isOp f 0x3C = true → fc f 1 % 32 = 2 → gives (.readBuffer f)
      ((List.range (min (fbe f 6 3) (65536 - fbe f 3 3))).map (fun i => Config.readBufferByte (fbe f 3 3 + i))) (fbe f 6 3)) ∧
    (isOpSa f 0x95 0 = true → gives (.reportZones f)
      (s.reportZones l (fbe f 2 8 / 65536) (fc f 14 % 64) (fbe f 10 4) (decide (128 ≤ fc f 14))) (fbe f 10 4)) ∧
    (isOpSa f 0x9E 0x10 = true → gives (.readCapacity16 f) l.capacity (fbe f 10 4)) ∧
    (isOp f 0x03 = true → s.check5 l.lu l.acts [] = none → s.luLocked l.lu = false → gives (.requestSense f)
      (if fc f 1 % 2 = 1 then (sense keyNoSense 0 0).descriptor else (sense keyNoSense 0 0).fixed) (fc f 4))

/-- R190, R194, R195, R200, R268. -/
def Obligations.MediaCommandsBecomeTasks : Prop :=
  ∀ (f : CmdFrame) (l : LuCfg) (a : Ask) (s : State), ClearWay s f l a →
    let segs := s.segsOf l (fbe f 2 8) (fbe f 10 4)
    let queued (i : Instr) (cls : Nat) (gs : List Seg) : Prop := ∃ t c x, exec i s = .next t ∧ became f .queued c x s t ∧ x.cls = cls ∧ x.segs = gs ∧
      x.credits = a.bobbins ∧ x.preds = [] ∧ t.hbm = s.hbm
    (isOp f 0x88 = true → (0 < fbe f 10 4 → queued (.read16 f) 0 segs) ∧
      (fbe f 10 4 = 0 → ∃ t, exec (.read16 f) s = .next t ∧ answered f [] s t)) ∧
    (isOp f 0x8F = true → (0 < fbe f 10 4 → queued (.verify16 f) 2 segs) ∧
      (fbe f 10 4 = 0 → ∃ t, exec (.verify16 f) s = .next t ∧ answered f [] s t)) ∧
    (isOp f 0x07 = true → reassignList 32 (f.param.drop 4) ≠ [] → queued (.reassignBlocks f) 5
      (s.segsListed l 0 (reassignList 32 (f.param.drop 4)))) ∧
    (isOp f 0x8A = true → (0 < fbe f 10 4 → s.oneEntry → (∀ g ∈ segs, zoneIn (l.gz g.zone)) →
        ∃ t c x, exec (.write16 f) s = .next t ∧ became f .dataIn c x s t ∧ x.cls = 1 ∧ x.segs = segs ∧ x.credits = a.bobbins ∧
          (∀ g ∈ segs, (s.desc (l.gz g.zone)).ztype = true → t.awpOf (l.gz g.zone) = s.awpOf (l.gz g.zone) + g.count ∧
            ((s.desc (l.gz g.zone)).cond = 1 ∨ (s.desc (l.gz g.zone)).cond = 4 → (t.desc (l.gz g.zone)).cond = 2))) ∧
      (fbe f 10 4 = 0 → ∃ t, exec (.write16 f) s = .next t ∧ answered f [] s t))

/-- R268, R269, R271, R276. -/
def Obligations.ZoneOperations : Prop :=
  ∀ (f : CmdFrame) (l : LuCfg) (a : Ask) (s : State), ClearWay s f l a → fc f 0 = 0x94 → fc f 14 % 2 = 0 →
    let g := l.gz (fbe f 2 8 / 65536)
    let d := s.desc g
    let waits (t : State) : Prop := ∃ c x, became f .media c x s t ∧ (SaveWait.ctx c, (s.saveRec g).1, (s.saveRec g).2) ∈ t.zones.waits
    zoneIn g → s.oneEntry → s.reloading g = false →
    (isOpSa f 0x94 1 = true → d.cond = 2 ∨ d.cond = 3 → ∃ t, exec (.closeZone f) s = .next t ∧ answered f [] s t ∧
      t.desc g = { d with cond := if d.wp = 0 then 1 else 4, gen := (d.gen + 1) % 65536 }) ∧
    (isOpSa f 0x94 3 = true → d.cond = 1 ∨ d.cond = 4 → s.roomToOpen l = true → ∃ t, exec (.openZone f) s = .next t ∧ answered f [] s t ∧
      t.desc g = { d with cond := 3, gen := (d.gen + 1) % 65536 }) ∧
    (isOpSa f 0x94 3 = true → d.cond = 2 → ∃ t, exec (.openZone f) s = .next t ∧ answered f [] s t ∧
      t.desc g = { d with cond := 3, gen := (d.gen + 1) % 65536 }) ∧
    (isOpSa f 0x94 2 = true → ∃ t, exec (.finishZone f) s = .next t ∧ waits t ∧ t.awpOf g = 65536 ∧
      t.desc g = { d with cond := 0xE, wp := 65536, attempt := 0, gen := (d.gen + 1) % 65536 }) ∧
    (isOpSa f 0x94 4 = true → d.stamp < 0xFFFFFFFF → ∃ t, exec (.resetWritePointer f) s = .next t ∧ waits t ∧ t.awpOf g = 0 ∧
      t.desc g = { d with cond := 1, wp := 0, stamp := d.stamp + 1, attempt := 0, limit := false, warn := d.warn || d.stamp + 1 == 0x80000000
                          gen := (d.gen + 1) % 65536 })

/-- R178, R181, R308, R441. -/
def Obligations.FormatAndSanitize : Prop :=
  ∀ (f : CmdFrame) (l : LuCfg) (a : Ask) (s : State), ClearWay s f l a → (∀ g ∈ l.zones, zoneIn g ∧ s.reloading g = false) → l.zones ≠ [] → s.oneEntry →
    let spares (d : ZDesc) : Nat := match s.cfg.acts.toList[d.act]? with
      | some k => (match k.zones[d.rz]? with | some z => z.sz | none => 0)
      | none => 0
    let task (immed : Bool) (t : State) : Prop := ∃ c x, t.intake.ctxs = [(c, x)] ∧ x.state = .media ∧ x.init = f.init.val ∧
      (∀ g ∈ l.zones, (SaveWait.ctx c, (s.saveRec g).1, (s.saveRec g).2) ∈ t.zones.waits) ∧
      t.intake.sent[f.port] = s.intake.sent[f.port] ++ (if immed then [.response f.init.val f.tag.toNat stGood []] else [])
    (isOp f 0x04 = true → fc f 1 / 32 % 2 = 0 → f.param.length = 4 → beNat ((f.param.drop 2).take 2) = 0 →
      fc f 1 / 64 = 0 → (f.param.getD 0 0#8).toNat % 8 = 0 →
      ∃ t, exec (.formatUnit f) s = .next t ∧ task ((f.param.getD 1 0#8).getLsbD 1) t ∧ aget t.zones.formats l.lu = some (0, 0) ∧
        (∀ g ∈ l.zones, let d := s.desc g
          (spares d < d.defPrim ∨ d.klabel = 0xFFFFFFFF → (t.desc g).cond = 0xF) ∧
          (d.defPrim ≤ spares d → d.klabel < 0xFFFFFFFF → (t.desc g).klabel = d.klabel + 1 ∧ (t.desc g).stamp = 1 ∧ (t.desc g).wp = 0 ∧
            (t.desc g).cond = (if d.ztype then 1 else 0)))) ∧
    (isOpSa f 0x48 3 = true →
      ∃ t, exec (.sanitize f) s = .next t ∧ task (decide (128 ≤ fc f 1)) t ∧ aget t.cip.keys l.lu = none ∧
        (∀ g ∈ l.zones, let d := s.desc g
          (d.klabel = 0xFFFFFFFF → (t.desc g).cond = 0xF) ∧
          (d.klabel < 0xFFFFFFFF → (t.desc g).klabel = d.klabel + 1 ∧
            (d.ztype = true → d.cond ≠ 0xF → (t.desc g).cond = 1 ∧ (t.desc g).wp = 0 ∧ (t.desc g).stamp = min 0xFFFFFFFF (d.stamp + 1)))))

/-- R178, R185, R212, R230, R357, R361. -/
def Obligations.ParametersAndImages : Prop :=
  ∀ (f : CmdFrame) (l : LuCfg) (a : Ask) (s : State), ClearWay s f l a →
    let select (i : Instr) (n head bd : Nat) : Prop := ∀ q, 0 < n → head + bd ≤ (f.param.take n).length →
      splitPages 16 ((f.param.take n).drop (head + bd)) = [q] → modePages.contains (q.1, q.2.1) = true →
      modeCheck q.1 q.2.1 (s.modePage l.lu q.1 q.2.1) q.2.2 = none →
      ∃ t c x, exec i s = .next t ∧ became f .media c x s t ∧ aget t.intake.modes (modeKey l.lu q.1 q.2.1) = some q.2.2 ∧
        (∃ e ∈ t.jpend, e.kind = 0 ∧ e.lu = l.lu ∧ e.page = q.1 ∧ e.sub = q.2.1)
    let work (b : Act) (t : State) : Prop := ∀ h z, h < s.cfg.acts[b].heads → z < s.cfg.acts[b].zones.length →
      (Work.selftest h z 0 (fc f 1 / 32 == 2), s.now) ∈ t.sch[b].work
    (isOp f 0x15 = true → select (.modeSelect6 f) (fc f 4) 4 ((f.param.take (fc f 4)).getD 3 0#8).toNat) ∧
    (isOp f 0x55 = true → select (.modeSelect10 f) (fbe f 7 2) 8 (beNat (((f.param.take (fbe f 7 2)).drop 6).take 2))) ∧
    (isOp f 0x1D = true →
      (fc f 1 / 32 = 1 ∨ fc f 1 / 32 = 2 → ∃ t, exec (.sendDiagnostic f) s = .next t ∧ answered f [] s t ∧
        t.intake.selftests.head? = some (fc f 1 / 32, 15, s.rcd.hours) ∧ (∀ b : Act, b.val ∈ l.acts → work b t)) ∧
      (fc f 1 / 32 = 4 → ∃ t, exec (.sendDiagnostic f) s = .next t ∧ t.intake.selftests.head? = some (4, 1, s.rcd.hours) ∧
        (∀ b : Act, b.val ∈ l.acts → ∀ w ∈ t.sch[b].work, w.1.isSelftest = false))) ∧
    (isOp f 0x1D = true → fc f 1 / 32 = 1 ∨ fc f 1 / 32 = 2 → fc f 1 / 16 % 2 = 1 → 4 ≤ f.param.length → ∃ t, exec (.sendDiagnostic f) s = .next t ∧
      answered f [] s t ∧ aget t.intake.diagWritten (l.lu * 256 + (f.param.getD 0 0#8).toNat) = some f.param) ∧
    (isOpSa f 0x3B 0x0D = true → s.getF Reg.INT_ACT_STAT Fld.INT_ACT_STAT_PHASE = 0 →
      let d := f.param.take (fbe f 6 3)
      (fbe f 3 3 ≠ 0 → s.staging.holder = some .host → fbe f 3 3 = s.staging.next → fbe f 3 3 + d.length ≤ slotSize → s.staging.erasing = false →
        ∃ t, exec (.writeBufferDownload f) s = .next t ∧ answered f [] s t ∧
          t.flash = programFlash s.flash (slotBase s.stagingSlot + fbe f 3 3) d ∧ t.staging = { s.staging with next := fbe f 3 3 + d.length }) ∧
      (fbe f 3 3 = 0 → d.length ≤ slotSize → ∃ t c x, exec (.writeBufferDownload f) s = .next t ∧ became f .media c x s t ∧
          t.staging = ⟨some .host, true, d.length, some d⟩ ∧ t.bitF Reg.GLB_IMG_STAT Fld.GLB_IMG_STAT_STG_BUSY = true)) ∧
    (isOpSa f 0x3B 0x0F = true → s.getF Reg.INT_ACT_STAT Fld.INT_ACT_STAT_PHASE = 0 → ∃ t c x, exec (.writeBufferActivate f) s = .next t ∧
      became f .media c x s t ∧ t.intake.actBy = some (.ctx c) ∧ t.getF Reg.INT_ACT_STAT Fld.INT_ACT_STAT_PHASE = 1)

/-! ### The media scheduler and the Creel (chapters 10 and 11) -/

/-- R216, R225, R231, R222, R249, R201, R276. -/
def Obligations.SchedulerDecides : Prop :=
  (∀ (a : Act) (cyc : Nat) (s : State), s.sch[a].decided.isSome = true → exec (.schedulerDecision a cyc) s = .next s) ∧
  (∀ (a : Act) (cyc : Nat) (s : State), s.sch[a].decided = none → s.sch[a].pass = none → s.shu.ch[mediaCh a].state = .idle →
    (∀ w r n, s.choose a cyc = some (.work w r n) →
      ∃ t p, exec (.schedulerDecision a cyc) s = .next t ∧ t.sch[a].pass = some p ∧ p.kind = .internal w ∧ p.step = n ∧ t.sch[a].decided = none) ∧
    (∀ k n, s.choose a cyc = some (.seg k n) → s.ctx? k.c = some k.x → k.x.cls ≠ 5 →
      ∃ t p, exec (.schedulerDecision a cyc) s = .next t ∧ t.sch[a].pass = some p ∧ p.kind = .host ∧ p.step = n ∧ p.lu = some k.x.lu ∧
        p.write = k.writes ∧ (∃ x, t.ctx? k.c = some x ∧ x.state = .media ∧ x.tag = k.x.tag)) ∧
    (s.choose a cyc = none → (∀ k ∈ s.schWindow a, s.waitsLease k = false) →
      ∃ t, exec (.schedulerDecision a cyc) s = .next t ∧ onlyRegs [Reg.SCH_ACT_STAT a, Reg.SCH_ACT_AGE a, Reg.SCH_ACT_WORK a] s t)) ∧
  (∀ (a : Act) (d : SchPass) (w : Work) (s : State), s.sch[a].decided = some d → d.kind = .internal w → s.sch[a].pass = none →
    s.shu.ch[mediaCh a].state = .idle → s.sch[a].work.any (fun x => x.1 == w) = true →
    ∃ t p, exec (.pendingSeekIssue a) s = .next t ∧ t.sch[a].pass = some p ∧ p.kind = .internal w ∧ p.step = d.step ∧ t.sch[a].decided = none) ∧
  (∀ (a : Act) (s : State), s.sch[a].work.any (fun w => w.1.isSelftest && !s.sch[a].running w.1) = true →
    exec (.selftestStarve a) s = .next (s.modSch a (fun h => { h with forced := true }))) ∧
  (∀ (a : Act) (m : PassEnd) (p : SchPass) (r : Nat) (s : State), s.sch[a].pass = some p → s.passOver a p = true → p.kind = .internal (.save r) →
    p.onTrack = true → p.lu = none → s.sch[a].decided = none → s.zones.waits = [] →
    let left := s.sch[a].work.eraseP (fun x => x.1 == .save r)
    (p.complete = true → left.any (fun x => x.1 == .save r) = false →
      ∃ t, exec (.passEnd a m) s = .next t ∧ t.sch[a].pass = none ∧ (a.val, r) ∉ t.zones.marked ∧ t.sch[a].work = left ∧
        (⟨a.val, r, s.nextGen a r, s.recHolds a r ((p.recs.headD []).take 4096)⟩ : SavedRec) ∈ t.zones.saved ∧ t.intake = s.intake) ∧
    (p.complete = false → ∃ t, exec (.passEnd a m) s = .next t ∧ t.sch[a].pass = none ∧ t.sch[a].work = s.sch[a].work ∧ t.zones = s.zones ∧
      t.intake = s.intake)) ∧
  (∀ (a : Act) (m : PassEnd) (p : SchPass) (c : Nat) (x : Ctx) (q : Fin 2) (b : PassBlk) (s : State), s.sch[a].pass = some p → s.passOver a p = true →
    p.kind = .host → p.write = true → p.blks = [b] → b.ctx = c → s.endedAt p = none → s.sch[a].decided = none → s.intake.ctxs = [(c, x)] →
    x.state = .media → x.abort = false → x.doom = none → x.allWritten = true → s.growing c = false → x.port = q.val → x.response = [] →
    aget s.intake.exceptions x.lu = none →
    ∃ t, exec (.passEnd a m) s = .next t ∧ t.sch[a].pass = none ∧ t.intake.ctxs = [] ∧
      t.intake.sent[q] = s.intake.sent[q] ++ [.response x.init x.tag stGood []])

/-- R241 to R247, R327. -/
def Obligations.BobbinsMove : Prop :=
  (∀ (c : Fin 40960) (x : Ctx) (b : Nat) (rest : List Nat) (s : State), swf 0#64 s.creel.owned = true → s.ctx? c.val = some x → 0 < x.credits →
    (List.finRange 64).any (fun d => s.wantsPop d c.val x) = true → s.creel.pools[Fin.ofNat 65 (s.poolOf x.lu)].cache = b :: rest → s.bobWaits b = false →
    ∃ t, exec (.bobbinPop c) s = .next t ∧ t.ctx? c.val = some { x with bobs := x.bobs ++ [b], credits := x.credits - 1 } ∧ t.bobOwned b = true ∧
      t.creel.pools[Fin.ofNat 65 (s.poolOf x.lu)].cache = rest ∧ (∀ k, k ≠ b → t.bobOwned k = s.bobOwned k) ∧
      regsBut [bank (s.poolOf x.lu) Reg.CREEL_POOL_CREDIT] s t) ∧
  (∀ (b u : Nat) (s : State), s.canonical = true → swf 0#64 s.creel.owned = true → s.creel.returns = [(b, u, false)] → s.bobWaits b = false →
    let p := s.poolOf u
    let pool := Fin.ofNat 65 p
    (s.inList p b = true → s.bobOwned b = true → s.isPinned b = false → s.poolFree p < 2 ^ 18 - 1 → p < 64 →
      ∃ t, exec .bobbinReturn s = .next t ∧ t.creel.returns = [] ∧ t.bobOwned b = false ∧ t.poolFree p = s.poolFree p + 1 ∧
        t.usedBob u = s.usedBob u - 1 ∧ (s.creel.pools[pool].cache.length < 32 → t.creel.pools[pool].cache = b :: s.creel.pools[pool].cache)) ∧
    (s.inList p b = false ∨ s.bobOwned b = false →
      ∃ t, exec .bobbinReturn s = .next t ∧ t.creel = { s.creel with returns := [] } ∧ t.bitF Reg.CREEL_CHK Fld.CREEL_CHK_RET_BAD = true ∧
        (∃ r, t.raised = s.raised ++ [r] ∧ r.src = 0xAB) ∧ regsBut [Reg.CREEL_CHK, Reg.CREEL_CNT_CHK, Reg.CREEL_CHK_ADDR] s t)) ∧
  (∀ (p : Fin 65) (b : Nat) (s : State), s.creel.pools[p].rebuild = false → s.creel.pools[p].cache.length < 16 → s.creel.pools[p].head = some b →
    (∀ n, s.readLink p.val b = some n →
      exec (.headCacheRefill p) s = .next (s.modPool p (fun l => { l with cache := l.cache ++ [b], head := n }))) ∧
    (s.readLink p.val b = none → s.sevOf 0xAC < 2 → s.canonical = true → ∃ t, exec (.headCacheRefill p) s = .next t ∧ t.creel.pools[p].rebuild = true ∧
      t.bitF Reg.CREEL_CHK Fld.CREEL_CHK_LINK_BAD = true ∧ (∃ r, t.raised = s.raised ++ [r] ∧ r.src = 0xAC))) ∧
  (∀ (p : Fin 65) (s : State), s.creel.pools[p].rebuild = true →
    ∃ t, exec (.creelRebuildDone p) s = .next t ∧ t.creel.pools[p] = { s.creel.pools[p] with head := (s.rethread p).head?, rebuild := false } ∧
      (∀ q, q ≠ p → t.creel.pools[q] = s.creel.pools[q]) ∧ t.creel.owned = s.creel.owned) ∧
  (∀ (w : Fin 3840) (i : Nat) (s : State), swf 0#64 s.creel.owned = true → s.creel.bitmapWait.contains w.val = true → i < 64 →
    ∃ t, exec (.bitmapWordRebuildDone w) s = .next t ∧ t.bobOwned (64 * w.val + i) = s.chainHas (64 * w.val + i) ∧
      (∀ k, k / 64 ≠ w.val → t.bobOwned k = s.bobOwned k) ∧ w.val ∉ t.creel.bitmapWait ∧ t.regs = s.regs)

/-! ### The Shuttle (chapter 12) -/

/-- R250. -/
def Obligations.HostJobsInOrder : Prop :=
  (∀ (p : Fin 2) (c : Nat) (x : Ctx) (s : State), s.owed p.val < s.window p.val → s.nextBurst p.val = some (c, x) →
    s.shu.hostQ.length < 4096 → s.shu.overflow = [] →
    let n := min (x.nblk - x.hostDone) (s.burstBlocks p.val)
    ∃ t, exec (.jobPost (.burst p)) s = .next t ∧
      t.shu = { s.shu with hostQ := s.shu.hostQ ++ [⟨if x.cls = 1 then .hostIn else .compareIn, c, x.hostDone, n⟩] } ∧
      t.ctx? c = some { x with requested := x.hostDone + n, outstanding := true } ∧ onlyShuttle s t ∧ regsBut [Reg.SHU_JOBQ] s t) ∧
  (∀ (c : Fin 40960) (x : Ctx) (s : State), s.ctx? c.val = some x → x.cls = 0 → x.state = .media → x.port < 2 → 0 < x.nblk → x.placed ≠ [] →
    s.hasHostJob c.val = false → s.shu.hostQ.length < 4096 → s.shu.overflow = [] →
    ∃ t, exec (.jobPost (.hostOut c)) s = .next t ∧ t.shu = { s.shu with hostQ := s.shu.hostQ ++ [⟨.hostOut, c.val, 0, x.nblk⟩] } ∧
      t.intake = s.intake ∧ onlyShuttle s t ∧ regsBut [Reg.SHU_JOBQ] s t) ∧
  (∀ (j : JobPost) (s t : State), s.shu.hostQ.length ≤ 4096 → exec (.jobPost j) s = .next t →
    t.shu.hostQ.length ≤ 4096 ∧ ∃ l, t.shu.hostQ = s.shu.hostQ ++ l) ∧
  (∀ (d : Fin 64) (j : Job) (rest : List Job) (s : State), 16 ≤ d.val → s.shu.ch[d].state = .idle →
    (∀ e : Fin 64, 16 ≤ e.val → e.val < d.val → s.shu.ch[e].state ≠ .idle) → s.shu.hostQ = j :: rest → s.shu.overflow = [] →
    ∃ t, exec .hostJobDequeue s = .next t ∧ t.shu.hostQ = rest ∧ t.shu.ch[d].state = .run ∧ t.shu.ch[d].job = some j ∧ t.shu.ch[d].pc = 0 ∧
      t.shu.ch[d].cursor = 0 ∧ (∀ e, e ≠ d → t.shu.ch[e] = s.shu.ch[e]) ∧ t = { s with shu := t.shu, regs := t.regs })

/-- R249, R252, R254 to R257. -/
def Obligations.ShuttleProgramsRun : Prop :=
  (∀ (d : Fin 64) (m : Move) (s : State), s.shu.ch[d].state = .run → s.shu.ch[d].moving = none → s.shuInstr d = .move m →
    let c := s.shu.ch[d]
    let n := if m.count = 0 then c.left else min m.count c.left
    ∃ t, exec (.shuttleMove d) s = .next t ∧ onlyCh d s t ∧
      (0 < n → t.shu.ch[d] = { c with moving := some n }) ∧ (n = 0 → m.src ≠ 4 → t.shu.ch[d].pc = c.pc + 1 ∧ t.shu.ch[d].moving = none)) ∧
  (∀ (d : Fin 64) (target count : Nat) (until_ : Bool) (s : State), s.shu.ch[d].state = .run → s.shuInstr d = .loop target count until_ →
    let c := s.shu.ch[d]
    let n := match c.counter with | none => count | some k => k - 1
    ∃ t, exec (.shuttleLoop d) s = .next t ∧ onlyCh d s t ∧
      t.shu.ch[d].pc = (if until_ then (if 0 < c.left then target else c.pc + 1) else (if n = 0 then c.pc + 1 else target)) ∧
      (until_ = false → t.shu.ch[d].counter = if n = 0 then none else some n)) ∧
  (∀ (d : Fin 64) (cond tmo : Nat) (s : State), s.shu.ch[d].state = .run → s.shuInstr d = .wait cond tmo →
    ∃ t, exec (.shuttleWait d) s = .next t ∧ onlyCh d s t ∧
      (s.waitMet d cond = true → t.shu.ch[d].state = .run ∧ t.shu.ch[d].pc = s.shu.ch[d].pc + 1) ∧
      (s.waitMet d cond = false → t.shu.ch[d] = { s.shu.ch[d] with state := .wait })) ∧
  (∀ (d : Fin 64) (cond tmo : Nat) (s : State), s.shu.ch[d].state = .wait → s.shuInstr d = .wait cond tmo → s.waitMet d cond = true →
    ∃ t, exec (.waitConditionMet d) s = .next t ∧ onlyCh d s t ∧ t.shu.ch[d].state = .run ∧ t.shu.ch[d].pc = s.shu.ch[d].pc + 1) ∧
  (∀ (d : Fin 64) (e : Nat) (j : Job) (x : Ctx) (p : Fin 2) (s : State), s.shu.ch[d].state = .run → s.shu.ch[d].job = some j →
    s.shuInstr d = .signal e → s.intake.ctxs = [(j.ctx, x)] → x.port = p.val →
    ∃ t, exec (.shuttleSignal d) s = .next t ∧ t.shu.ch[d].state = .run ∧ t.shu.ch[d].pc = s.shu.ch[d].pc + 1 ∧
      (e = 0 → x.hostDone < x.nblk → t.intake.ctxs = [(j.ctx, { x with outstanding := false })] ∧ s.shu.rx.filter (fun r => r.ctx != j.ctx) = t.shu.rx ∧
        t.intake.sent = s.intake.sent) ∧
      (e = 1 → x.err = none → x.state ≠ .linger → x.response = [] → aget s.intake.exceptions x.lu = none →
        t.intake.ctxs = [] ∧ t.intake.sent[p] = s.intake.sent[p] ++ [.response x.init x.tag stGood []]) ∧
      (e = 3 → x.err = none → x.cls = 0 → x.allHere = true → t.intake.ctxs = [(j.ctx, { x with state := .dataOut })] ∧ t.intake.sent = s.intake.sent)) ∧
  (∀ (d : Fin 64) (s : State), s.shu.ch[d].state = .paced → s.atLo d = true →
    ∃ t, exec (.paceResume d) s = .next t ∧ onlyCh d s t ∧ t.shu.ch[d] = { s.shu.ch[d] with state := .run }) ∧
  (∀ (d : Fin 64) (s : State), s.shu.ch[d].state = .run → s.shuInstr d = .fin → (∀ a : Act, mediaCh a = d → s.sch[a].pass = none) →
    ∃ t, exec (.shuttleEnd d) s = .next t ∧ onlyCh d s t ∧ t.shu.ch[d].state = .idle ∧ t.shu.ch[d].job = none) ∧
  (∀ (a : Act) (p : SchPass) (c : Nat) (g : Seg) (s : State), s.sch[a].pass = some p → p.kind = .host → s.shu.ch[mediaCh a].state = .idle →
    s.nextMedia p = some (c, g) →
    ∃ t, exec (.jobPost (.media a)) s = .next t ∧ t.shu.ch[mediaCh a].state = .run ∧ t.shu.ch[mediaCh a].pc = 0 ∧
      t.shu.ch[mediaCh a].job = some ⟨if p.write then .mediaOut else .mediaIn, c, g.base + g.done, g.count - g.done⟩ ∧
      t.sch[a].pass = some { p with posted := p.posted ++ [c] } ∧ t = { s with sch := t.sch, shu := t.shu, regs := t.regs })

/-- R253, R254, R257, R314. -/
def Obligations.BlocksAreMoved : Prop :=
  (∀ (d : Fin 64) (j : Job) (m : Move) (x : Ctx) (k b i : Nat) (p : Fin 2) (s : State), s.moves d j m x k → m.src = 2 → m.dst = 1 → m.pi = false →
    16 ≤ d.val → k < x.outLimit → x.port = p.val →
    (s.atHi d = true → ∃ t, exec (.moveBlock d) s = .next t ∧ t.shu.ch[d] = { s.shu.ch[d] with state := .paced } ∧ t.shu.hostOut = s.shu.hostOut ∧
      t.intake = s.intake ∧ onlyShuttle s t) ∧
    (s.atHi d = false → s.homeOf x k = some (b, i) → x.has k = true → s.isPlaced b i = true → (s.fetchBlock m b i).2.2.2 = true → x.prot = 0 →
      ∃ t, exec (.moveBlock d) s = .next t ∧ t.shu.hostOut[p] = s.shu.hostOut[p] ++ [⟨j.ctx, k, s.blockData b i, 0⟩] ∧
        (∀ q, q ≠ p → t.shu.hostOut[q] = s.shu.hostOut[q]) ∧ t.shu.ch[d].cursor = s.shu.ch[d].cursor + 1 ∧ t.intake = s.intake ∧
        t.hbm = (storeIcrc m b i (s.fetchBlock m b i).2.2.1 s).hbm ∧ onlyShuttle s t)) ∧
  (∀ (a : Act) (j : Job) (m : Move) (x : Ctx) (k bo i : Nat) (q : SchPass) (b : PassBlk) (s : State), s.moves (mediaCh a) j m x k → m.src = 2 → m.dst = 3 → m.pi = false →
    s.sch[a].pass = some q → q.blks.find? (fun b => b.ctx == j.ctx && b.blk == k && !b.erase) = some b → s.atHi (mediaCh a) = false →
    s.homeOf x k = some (bo, i) → s.isPlaced bo i = true → (s.fetchBlock m bo i).2.2.2 = true →
    let s' := storeIcrc m bo i (s.fetchBlock m bo i).2.2.1 s
    ∃ t e, exec (.moveBlock (mediaCh a)) s = .next t ∧ t.shu.cipherOut[a] = s.shu.cipherOut[a] ++ [e] ∧ e.tag = b.tag ∧ e.ctx = j.ctx ∧ e.zone = b.zone ∧
      e.lba = b.lba ∧ e.lu = x.lu ∧ e.data = s.blockData bo i ∧ e.pi = s.blockPi bo i ∧ (e.attempt, e.stamp, e.fill) = ((s'.trailer x b).2.1, (s'.trailer x b).1, (s'.trailer x b).2.2) ∧
      t.shu.ch[mediaCh a].cursor = s.shu.ch[mediaCh a].cursor + 1 ∧ t.intake = s.intake ∧ t.hbm = s'.hbm ∧ onlyShuttle s t) ∧
  (∀ (d : Fin 64) (j : Job) (m : Move) (x : Ctx) (k b i : Nat) (r : RxBurst) (s : State), s.canonical = true → s.moves d j m x k → m.src = 0 → m.dst = 2 → m.pi = false →
    m.cmp = false → m.cvop = 0 → j.kind = .hostIn → s.rxOf j.ctx = some r → x.wire = 4096 → x.prot = 0 → 4096 ≤ r.data.length →
    blockHome x.bobs k = some (b, i) → b < 245760 → i < 16 →
    ∃ t, exec (.moveBlock d) s = .next t ∧ t.blockData b i = r.data.take 4096 ∧ t.ctx? j.ctx = some { x with hostDone := x.hostDone + 1 } ∧
      t.shu.ch[d].cursor = s.shu.ch[d].cursor + 1 ∧ t.rxOf j.ctx = some { r with data := r.data.drop 4096 } ∧ onlyShuttle s t) ∧
  (∀ (a : Act) (j : Job) (m : Move) (x : Ctx) (k b i : Nat) (e : InBlock) (rest : List InBlock) (s : State), s.canonical = true → s.moves (mediaCh a) j m x k → m.src = 4 → m.dst = 2 → m.pi = false →
    m.cmp = false → m.cvop = 0 → m.place = true → j.kind = .mediaIn → s.shu.cipherIn[a] = e :: rest → e.ctx = j.ctx → e.data.length = 4096 →
    x.srcs = [] → blockHome x.bobs e.blk = some (b, i) → b < 245760 → i < 16 →
    ∃ t y, exec (.moveBlock (mediaCh a)) s = .next t ∧ t.blockData b i = e.data ∧ t.isPlaced b i = true ∧ t.ctx? j.ctx = some y ∧ y.placed.contains e.blk = true ∧
      y = { x with placed := y.placed } ∧ t.shu.cipherIn[a] = rest ∧ t.shu.ch[mediaCh a].cursor = s.shu.ch[mediaCh a].cursor + 1 ∧ onlyShuttle s t)

/-- R259 to R261, R312. -/
def Obligations.BusErrorsHalt : Prop :=
  (∀ (d : Fin 64) (m : Move) (cause : BusCause) (addr : BitVec 34) (s : State), s.shuInstr d = .move m → s.shu.ch[d].state = .run →
    s.shu.ch[d].moving.isSome = true → 0 < s.shu.ch[d].left → s.shu.ch[d].retryDue = false →
    (s.shu.ch[d].fails < m.retry → ∃ t, exec (.busError d cause addr) s = .next t ∧
      t.shu.ch[d] = { s.shu.ch[d] with fails := s.shu.ch[d].fails + 1, retryDue := true } ∧ t.intake = s.intake ∧ t.raised = s.raised ∧ onlyShuttle s t) ∧
    (∀ (j : Job) (x : Ctx) (p : Fin 2), m.retry ≤ s.shu.ch[d].fails → 16 ≤ d.val → s.shu.ch[d].job = some j → j.kind = .hostIn → s.sevOf 0xAD < 2 →
      s.canonical = true → s.intake.ctxs = [(j.ctx, x)] → x.state = .dataIn → x.port = p.val → x.response = [] → s.qerr x.lu ≠ 1 →
      ∃ t, exec (.busError d cause addr) s = .next t ∧ t.shu.ch[d].state = .halted ∧ t.shu.ch[d].job = some j ∧
        t.reg (bank d.val Reg.SHU_CH_ERR) = BitVec.ofNat 32 (causeCode cause + 8 * (addr.toNat / 64)) ∧
        (∃ r, t.raised = s.raised ++ [r] ∧ r.src = 0xAD) ∧ t.intake.ctxs = [] ∧
        t.intake.sent[p] = s.intake.sent[p] ++ [.response x.init x.tag stCheck (s.senseBytes x.lu { sense keyHardware 0x85 0x02 with info := some (x.lba + x.hostDone) })])) ∧
  (∀ (d : Fin 64) (s : State), s.shu.ch[d].state = .run → s.shu.ch[d].retryDue = true →
    ∃ t, exec (.busRetry d) s = .next t ∧ onlyCh d s t ∧ t.shu.ch[d] = { s.shu.ch[d] with retryDue := false, runRaw := s.shu.ch[d].startRaw }) ∧
  (∀ (d : Fin 64) (cond tmo : Nat) (j : Job) (x : Ctx) (p : Fin 2) (s : State), s.shu.ch[d].state = .wait → s.shuInstr d = .wait cond tmo → 0 < tmo →
    16 ≤ d.val → s.shu.ch[d].job = some j → j.kind = .hostIn → s.sevOf 0xAD < 2 → s.canonical = true → s.intake.ctxs = [(j.ctx, x)] → x.state = .dataIn →
    x.port = p.val → x.response = [] → s.qerr x.lu ≠ 1 →
    ∃ t, exec (.waitTimeout d) s = .next t ∧ t.shu.ch[d].state = .halted ∧ t.reg (bank d.val Reg.SHU_CH_ERR) = 5#32 ∧ t.intake.ctxs = [] ∧
      (∃ r, t.raised = s.raised ++ [r] ∧ r.src = 0xAD)) ∧
  (∀ (n : Fin 4) (d : Fin 64) (s : State), s.may n .operator = true → s.getF (bank n.val Reg.SHU_CH_SEL) Fld.SHU_CH_SEL_CH = d.val →
    (s.shu.ch[d].state = .halted → ∃ t, exec (.shuttleClear n) s = .next t ∧ onlyCh d s t ∧ t.shu.ch[d] = { chIdle with returned := some s.now }) ∧
    (s.shu.ch[d].state ≠ .halted → exec (.shuttleClear n) s = .next s)) ∧
  (∀ (a : Act) (s : State), s.shu.ch[mediaCh a].state = .halted → s.shu.ch[mediaCh a].stopped = false →
    ∃ t, exec (.mediaChannelAutoClear a) s = .next t ∧ onlyCh (mediaCh a) s t ∧ t.shu.ch[mediaCh a] = { chIdle with returned := some s.now })

/-! ### The Temple (chapter 13) -/

/-- R265, R266, R280 to R288. -/
def Obligations.TempleServesDescriptors : Prop :=
  (∀ (g : BitVec 25) (s : State), s.luOfZone g.toNat = none → ∀ soon, exec (.templeLookup g soon) s = .next s) ∧
  (∀ (g : BitVec 25) (s : State), (s.luOfZone g.toNat).isSome = true →
    (∀ (i : Fin 48) (n : Nat), s.zones.temple.entries[i].state ≠ .evicting n) →
    (∀ i, s.findEntry g.toNat = some i → s.zones.temple.entries[i].state = .valid → dchkOk s.zones.temple.entries[i].bytes = true →
      ∃ t, exec (.templeLookup g false) s = .next t ∧ t.zones.temple.clock = s.zones.temple.clock + 1 ∧
        t.zones.temple.entries = s.zones.temple.entries.set i { s.zones.temple.entries[i] with used := s.zones.temple.clock + 1 } ∧
        onlyRegs [Reg.TMP_CNT_HIT] { s with zones := t.zones } t) ∧
    (∀ i, s.findEntry g.toNat = none → s.findFill g.toNat = none → s.victim = some i →
      ∃ t, exec (.templeLookup g false) s = .next t ∧ (∀ k, k ≠ i → t.zones.temple.entries[k] = s.zones.temple.entries[k]) ∧
        (s.zones.temple.entries[i].state = .invalid → t.zones.temple.entries[i].g = g.toNat ∧ t.zones.temple.entries[i].state = .filling) ∧
        (s.zones.temple.entries[i].state = .valid → t.zones.temple.entries[i] = { s.zones.temple.entries[i] with state := .evicting g.toNat }) ∧
        onlyRegs [Reg.TMP_CNT_MISS] { s with zones := t.zones } t)) ∧
  (∀ (i : Fin 48) (s : State), (∀ (k : Fin 48) (n : Nat), s.zones.temple.entries[k].state ≠ .evicting n) → s.zones.temple.maint = none →
    s.zones.temple.entries[i].state = .filling →
    let e := s.zones.temple.entries[i]
    (dchkOk (s.zoneBytes e.g) = true → ∃ t, exec (.templeFillDone i) s = .next t ∧ t.zones.temple.entries[i].state = .valid ∧
      t.zones.temple.entries[i].g = e.g ∧ t.zones.temple.entries[i].bytes = s.zoneBytes e.g ∧ t = { s with zones := t.zones }) ∧
    (dchkOk (s.zoneBytes e.g) = false → e.again = false → ∃ t, exec (.templeFillDone i) s = .next t ∧
      t.zones.temple.entries[i] = { e with again := true } ∧ onlyRegs [Reg.TMP_CNT_ERR] { s with zones := t.zones } t) ∧
    (dchkOk (s.zoneBytes e.g) = false → e.again = true → s.sevOf 0xAE < 2 → ∃ t, exec (.templeFillDone i) s = .next t ∧
      t.zones.temple.entries[i].state = .invalid ∧ (∃ r, t.raised = s.raised ++ [r] ∧ r.src = 0xAE) ∧
      (∀ a : Act, s.actOfZone e.g = some a.val → t.sch[a].work.any (fun w => w.1 == .reload e.g) = true))) ∧
  (∀ (g : BitVec 25) (off : Fin 28) (bytes : List Byte) (soon : Bool) (s : State), s.canonical = true → s.oneEntry → zoneIn g.toNat →
    (s.luOfZone g.toNat).isSome = true →
    let d := ZDesc.decode (splice (s.zoneBytes g.toNat) off.val (bytes.take (28 - off.val)))
    ∃ t, exec (.templeUpdate g off bytes soon) s = .next t ∧ t.desc g.toNat = { d with gen := (d.gen + 1) % 2 ^ 16 } ∧
      (∀ h, h ≠ g.toNat → zoneIn h → t.desc h = s.desc h) ∧ t = { s with zones := t.zones, hbm := t.hbm, regs := t.regs }) ∧
  (∀ (e : MBEntry) (rest : List MBEntry) (s : State), s.canonical = true → s.oneEntry → s.zones.temple.mb = e :: rest →
    ∃ t, exec .mergeBufferWriteDone s = .next t ∧ t.zones.temple.mb = rest ∧ t.zones.temple.entries = s.zones.temple.entries ∧
      (∀ h, zoneIn h → t.zoneBytes h = s.zoneBytes h) ∧ t = { s with zones := t.zones, hbm := t.hbm, regs := t.regs } ∧ regsBut [Reg.TMP_STAT] s t) ∧
  (∀ (n : Fin 4) (s : State), s.canonical = true → s.may n .operator = true → s.bitF Reg.TMP_MAINT Fld.TMP_MAINT_BUSY = false →
    let g := s.getF Reg.TMP_MAINT_ADDR Fld.TMP_MAINT_ADDR_ZONE
    let result (t : State) (r : Nat) : Prop := t.getF Reg.TMP_MAINT Fld.TMP_MAINT_RESULT = r ∧ t.bitF Reg.TMP_MAINT Fld.TMP_MAINT_BUSY = false ∧
      t = { s with zones := t.zones, regs := t.regs } ∧ regsBut [Reg.TMP_MAINT, Reg.TMP_STAT] s t
    (s.luOfZone g = none → ∃ t, exec (.templePreload n) s = .next t ∧ exec (.templeInvalidate n) s = .next t ∧ exec (.templeUnlock n) s = .next t ∧
      t.zones = s.zones ∧ ∀ k, t.reg k = s.reg k) ∧
    (∀ i, (s.luOfZone g).isSome = true → s.findFill g = none → s.findEntry g = some i →
      (∃ t, exec (.templeInvalidate n) s = .next t ∧ t.zones.temple.entries[i].state = .invalid ∧ result t 1) ∧
      (9 ≤ s.unlocked → ∃ t, exec (.templePreload n) s = .next t ∧ t.zones.temple.entries[i].lock = true ∧ result t 1) ∧
      (∃ t, exec (.templeUnlock n) s = .next t ∧ t.zones.temple.entries[i].lock = false ∧ result t 1)) ∧
    ((s.luOfZone g).isSome = true → s.findFill g = none → s.findEntry g = none → ∃ t, exec (.templeUnlock n) s = .next t ∧ t.zones.temple.entries = s.zones.temple.entries ∧ result t 3) ∧
    (s.noFill (fun _ => true) = true → ∃ t, exec (.templeInvalidateAll n) s = .next t ∧
      (∀ i : Fin 48, t.zones.temple.entries[i].state = .invalid ∧ t.zones.temple.entries[i].lock = false) ∧ result t 1)) ∧
  (∀ (n : Fin 4) (m : Fin 8) (s : State), s.canonical = true → s.may n .operator = true → s.bitF Reg.TMP_MAINT Fld.TMP_MAINT_BUSY = false → m.val < 6 →
    ((∀ i : Fin 48, i.val / 8 = m.val → s.zones.temple.entries[i].lock = false) →
      (∃ k, k < 6 ∧ k ≠ m.val ∧ s.bit Reg.TMP_STAT k = true) →
      8 ≤ (List.finRange 48).countP (fun i => !(i.val / 8 == m.val) && s.bit Reg.TMP_STAT (i.val / 8) && !(s.zones.temple.entries[i]).lock) →
      ∃ t, exec (.templeGroupOff n m) s = .next t ∧ t.zones.temple = { s.zones.temple with cleaning := some m.val } ∧
        t.bitF Reg.TMP_MAINT Fld.TMP_MAINT_BUSY = true ∧ onlyRegs [Reg.TMP_MAINT] { s with zones := t.zones } t) ∧
    (s.bit Reg.TMP_STAT m.val = false →
      ∃ t, exec (.templeGroupOn n m) s = .next t ∧ t.bit Reg.TMP_STAT m.val = true ∧
        (∀ i : Fin 48, i.val / 8 = m.val → t.zones.temple.entries[i].state = .invalid) ∧
        (∀ i : Fin 48, i.val / 8 ≠ m.val → t.zones.temple.entries[i] = s.zones.temple.entries[i]))) ∧
  (∀ (m : Nat) (s : State), s.canonical = true → s.zones.temple.cleaning = some m → m < 6 → s.noFill (fun i => i.val / 8 == m) = true →
    ∃ t, exec .groupCleanDone s = .next t ∧ t.zones.temple.cleaning = none ∧ t.bit Reg.TMP_STAT m = false ∧
      (∀ i : Fin 48, i.val / 8 = m → t.zones.temple.entries[i].state = .invalid) ∧
      (∀ i : Fin 48, i.val / 8 ≠ m → t.zones.temple.entries[i] = s.zones.temple.entries[i]) ∧ t.bitF Reg.TMP_MAINT Fld.TMP_MAINT_BUSY = false)

/-! ### The cipher and the check-value units (chapters 14 and 15) -/

/-- R299 to R304, R307. -/
def Obligations.KeysAndRekey : Prop :=
  (∀ (n : Fin 4) (kcv : BitVec 24) (s : State), s.canonical = true → s.may n .keeper = true →
    let u := s.keySel n
    (∀ l, s.luCfg u = some l → s.luLocked u = true → s.bitF (bank u Reg.CIP_KEY_STAT) Fld.CIP_KEY_STAT_CLEARING = false →
      (kcvOf s.stagedKey = kcv.toNat → ∃ t, exec (.cipherKeyLoad n kcv) s = .next t ∧ aget t.cip.keys u = some s.stagedKey ∧
        (∀ v, v ≠ u → aget t.cip.keys v = aget s.cip.keys v) ∧ t.stagedKey = zeros 32 ∧
        t.getF (bank u Reg.CIP_KEY_STAT) Fld.CIP_KEY_STAT_RESULT = 1 ∧ t.bitF (bank u Reg.CIP_KEY_STAT) Fld.CIP_KEY_STAT_LOADED = true ∧
        t.intake = s.intake ∧ onlyTasks s t) ∧
      (kcvOf s.stagedKey ≠ kcv.toNat → ∃ t, exec (.cipherKeyLoad n kcv) s = .next t ∧ t.cip = { s.cip with staged := Vector.replicate 8 0#32 } ∧
        t.getF (bank u Reg.CIP_KEY_STAT) Fld.CIP_KEY_STAT_RESULT = 2 ∧ t.intake = s.intake ∧ onlyTasks s t)) ∧
    (∀ l, s.luCfg u = some l → s.luLocked u = false → ∃ t, exec (.cipherKeyLoad n kcv) s = .next t ∧ t.cip.keys = s.cip.keys ∧
      t.getF (bank u Reg.CIP_KEY_STAT) Fld.CIP_KEY_STAT_RESULT = 3) ∧
    (s.luCfg u = none → ∃ t, exec (.cipherKeyLoad n kcv) s = .next t ∧ t.cip.keys = s.cip.keys ∧
      t.getF (bank u Reg.CIP_KEY_STAT) Fld.CIP_KEY_STAT_RESULT = 4)) ∧
  (∀ (n : Fin 4) (l : LuCfg) (c : Nat) (x : Ctx) (p : Fin 2) (s : State), s.canonical = true → s.may n .keeper = true → s.luCfg (s.keySel n) = some l →
    (s.intake.ctxs = [] → ∃ t, exec (.cipherKeyClear n) s = .next t ∧ t.bitF (bank (s.keySel n) Reg.CIP_KEY_STAT) Fld.CIP_KEY_STAT_CLEARING = true ∧
      t.cip = s.cip ∧ t.intake = s.intake ∧ onlyTasks s t) ∧
    (s.intake.ctxs = [(c, x)] → x.lu = s.keySel n → x.reserve = false → x.state.begun = false → x.hasMedia = true → x.port = p.val → x.response = [] →
      x.preds = [] → ∃ t, exec (.cipherKeyClear n) s = .next t ∧ t.bitF (bank (s.keySel n) Reg.CIP_KEY_STAT) Fld.CIP_KEY_STAT_CLEARING = true ∧
        t.intake.ctxs = [] ∧ t.intake.sent[p] = s.intake.sent[p] ++ [.response x.init x.tag stCheck (s.senseBytes x.lu (sense keyProtect 0x80 0x00))])) ∧
  (∀ (u : Fin 256) (s : State), s.canonical = true → s.bitF (bank u.val Reg.CIP_KEY_STAT) Fld.CIP_KEY_STAT_CLEARING = true → s.luBusy u.val = false →
    ∃ t, exec (.keyClearComplete u) s = .next t ∧ t.luLocked u.val = true ∧ (∀ v, v ≠ u.val → aget t.cip.keys v = aget s.cip.keys v) ∧
      (∀ k ∈ t.cip.derived, k.lu ≠ u.val) ∧ t.bitF (bank u.val Reg.CIP_KEY_STAT) Fld.CIP_KEY_STAT_CLEARING = false ∧
      t.bitF (bank u.val Reg.CIP_KEY_STAT) Fld.CIP_KEY_STAT_LOADED = false ∧ t.getF (bank u.val Reg.CIP_KEY_STAT) Fld.CIP_KEY_STAT_RESULT = 1 ∧
      t = { s with cip := t.cip, regs := t.regs }) ∧
  (∀ (q : Nat × Nat × Nat) (rest : List (Nat × Nat × Nat)) (key : List Byte) (s : State), s.cip.derivQ = q :: rest → aget s.cip.keys q.1 = some key →
    ∃ t, exec .keyDerivationDone s = .next t ∧ t.cip.derivQ = rest ∧ (∀ k ∈ t.cip.derived, k.is q = true → k.key = some (zoneKey key q.1 q.2.1 q.2.2)) ∧
      t.cip.derived.map (fun k => (k.lu, k.zone, k.label, k.uses)) = s.cip.derived.map (fun k => (k.lu, k.zone, k.label, k.uses)) ∧
      t = { s with cip := t.cip }) ∧
  (∀ (n : Fin 4) (s : State), s.canonical = true → s.may n .keeper = true → s.bitF Reg.CIP_REKEY_CMD Fld.CIP_REKEY_CMD_BUSY = false →
    let g := s.getF Reg.CIP_REKEY_ADDR Fld.CIP_REKEY_ADDR_ZONE
    (s.luOfZone g = none → ∃ t, exec (.zoneRekey n) s = .next t ∧ t.getF Reg.CIP_REKEY_CMD Fld.CIP_REKEY_CMD_RESULT = 5 ∧ onlyRegs [Reg.CIP_REKEY_CMD] s t) ∧
    (∀ l m r, s.luOfZone g = some (l, m) → s.rekeyRefusal l.lu g = some r →
      ∃ t, exec (.zoneRekey n) s = .next t ∧ t.getF Reg.CIP_REKEY_CMD Fld.CIP_REKEY_CMD_RESULT = r ∧ onlyRegs [Reg.CIP_REKEY_CMD] s t) ∧
    (∀ l m, s.luOfZone g = some (l, m) → s.luCfg l.lu = some l → s.rekeyRefusal l.lu g = none → s.intake.ctxs = [] → s.hed.retired = [] →
      s.activating = false → s.oneEntry → zoneIn g → s.reloading g = false → (s.desc g).klabel < 0xFFFFFFFF →
      ∃ t c x, exec (.zoneRekey n) s = .next t ∧ t.intake.ctxs = [(c, x)] ∧ t.cip.rekey = some c ∧ t.bitF Reg.CIP_REKEY_CMD Fld.CIP_REKEY_CMD_BUSY = true ∧
        (t.desc g).klabel = (s.desc g).klabel + 1 ∧ (t.desc g).stamp = 1 ∧ ((s.desc g).ztype = true → (t.desc g).cond = 1 ∧ (t.desc g).wp = 0) ∧
        t.zones.waits = s.zones.waits ++ [(.ctx c, t.saveRec g)] ∧ t.saveRec g ∈ t.zones.marked ∧ t.intake.sent = s.intake.sent)) ∧
  (∀ (n : Fin 4) (kcv : BitVec 24) (s : State), s.may n .keeper = false →
    exec (.cipherKeyLoad n kcv) s = .next s ∧ exec (.cipherKeyClear n) s = .next s ∧ exec (.zoneRekey n) s = .next s)

/-- R290 to R294, R305, R310, R311, R319. -/
def Obligations.BlocksSealedAndChecked : Prop :=
  (∀ (k : Fin 4) (a : Act) (s : State), s.cip.cores[k] = none →
    (∀ (p : SchPass) (i : EncItem) (rest : List EncItem) (n : Nat), s.sch[a].pass = some p → (s.cip.lastQ + 1 + n) % 32 = 2 * a.val → n < 32 → (∀ m, m < n → s.serveQueue ((s.cip.lastQ + 1 + m) % 32) = none) →
      s.shu.cipherOut[a] = i :: rest → s.chan[a].stage.length + s.sealing a < 2 → (s.passKey p i.zone).isSome = true →
      ∃ t, exec (.cipherCoreTake k) s = .next t ∧ t.cip.cores[k] = some (.enc a i) ∧ t.shu.cipherOut[a] = rest ∧ t.cip.lastQ = 2 * a.val ∧
        (∀ j, j ≠ k → t.cip.cores[j] = s.cip.cores[j]) ∧ t = { s with cip := t.cip, shu := t.shu }) ∧
    (∀ (d : DecodedSector) (rest : List DecodedSector) (q : SchPass) (b : PassBlk) (n : Nat), (s.cip.lastQ + 1 + n) % 32 = 2 * a.val + 1 → n < 32 →
      (∀ m, m < n → s.serveQueue ((s.cip.lastQ + 1 + m) % 32) = none) → s.chan[a].out = d :: rest → s.passOf a d.slot = some (q, b) →
      b.lba < noBlockMark → (s.passKey q b.zone).isSome = true →
      ∃ t, exec (.cipherCoreTake k) s = .next t ∧ t.cip.cores[k] = some (.dec a d) ∧ t.chan[a].out = rest ∧ t.cip.lastQ = 2 * a.val + 1 ∧
        (∀ j, j ≠ k → t.cip.cores[j] = s.cip.cores[j]) ∧ t = { s with cip := t.cip, chan := t.chan })) ∧
  (∀ (k : Fin 4) (a : Act) (i : EncItem) (p : SchPass) (key : List Byte) (s : State), s.cip.cores[k] = some (.enc a i) → s.sch[a].pass = some p →
    s.passKey p i.zone = some key → p.blks.any (fun b => b.tag == i.tag) = true →
    ∃ t, exec (.cipherEncryptDone k) s = .next t ∧ t.chan[a] = { s.chan[a] with stage := s.chan[a].stage ++ [⟨i.tag, true, sealField key (s.desc i.zone).ztype i⟩] } ∧
      t.cip = { s.cip with cores := s.cip.cores.set k none } ∧ t = { s with chan := t.chan, cip := t.cip, regs := t.regs } ∧ regsBut [Reg.CIP_CNT_ENC] s t) ∧
  (∀ (k : Fin 4) (a : Act) (d : DecodedSector) (p : SchPass) (b : PassBlk) (l : LuCfg) (m : Nat) (key : List Byte) (s : State),
    s.cip.cores[k] = some (.dec a d) → s.passOf a d.slot = some (p, b) → s.luOfZone b.zone = some (l, m) → s.passKey p b.zone = some key →
    let t0 := selvedgeOf d.field
    let n := nonceOf l.lu b.lba t0.attempt t0.stamp
    let ct := d.field.take 4096
    let fails := openFails t0 l.lu (b.lba % 2 ^ 44) (s.desc b.zone) (gcmTag key n (aadOf d.field) ct == t0.tag)
    (∀ x, fails = none → p.kind = .host → s.ctx? b.ctx = some x → x.cls = 0 → d.second = false → x.rereads = [] →
      ∃ t, exec (.cipherDecryptDone k) s = .next t ∧ t.cip.cores[k] = none ∧
        t.shu.cipherIn[a] = s.shu.cipherIn[a] ++ [⟨b.ctx, b.blk, gcmCrypt key n ct, (d.field.drop 4096).take 16⟩] ∧
        t.intake.sent = s.intake.sent ∧ t.ctx? b.ctx = some x ∧ regsBut [Reg.CIP_CNT_DEC] s t ∧ t.chan = s.chan) ∧
    (fails.isSome = true → ∃ t, exec (.cipherDecryptDone k) s = .next t ∧ t.cip.cores[k] = none ∧
      ∀ (c : Act) (e : InBlock), e ∈ t.shu.cipherIn[c] → e ∈ s.shu.cipherIn[c])) ∧
  (∀ (key iv data : List Byte), key.length = 32 → iv.length = 12 → gcmCrypt key iv (gcmCrypt key iv data) = data) ∧
  (∀ (n : Fin 4) (v : Fin 8) (w : Word) (s : State), s.canonical = true → s.may n .operator = true → s.cvBound v.val = false →
    let p := s.cvParams v.val
    let shows (t : State) (r : BitVec 64) : Prop := t.cvRaw v.val = r ∧
      (t.reg (Reg.CV_RESULT_HI v.val)).setWidth 64 <<< 32 ||| (t.reg (Reg.CV_RESULT_LO v.val)).setWidth 64 = p.result r ∧
      onlyRegs [Reg.CV_CTRL v.val, Reg.CV_COUNT v.val, Reg.CV_RUN_LO v.val, Reg.CV_RUN_HI v.val, Reg.CV_RESULT_LO v.val, Reg.CV_RESULT_HI v.val] s t
    (∃ t, exec (.cvStart n v w) s = .next t ∧ shows t p.start ∧ t.reg (Reg.CV_COUNT v.val) = 0#32) ∧
    (∃ t, exec (.cvFeed n v w) s = .next t ∧
      shows t (p.feed (s.cvRaw v.val) ((leBytes 4 w.toNat).take (s.getF (Reg.CV_CTRL v.val) Fld.CV_CTRL_NBYTES + 1)))) ∧
    (∃ t, exec (.cvRunLoad n v w) s = .next t ∧ shows t (w.setWidth 64 <<< 32 ||| (s.reg (cvHeld v.val)).setWidth 64))) ∧
  (∀ (n : Fin 4) (v : Fin 8) (w : Word) (s : State), s.may n .operator = false ∨ s.cvBound v.val = true →
    exec (.cvStart n v w) s = .next s ∧ exec (.cvFeed n v w) s = .next s ∧ exec (.cvRunLoad n v w) s = .next s)

/-! ### The Heddle memories (chapter 16) -/

/-- R321, R322. -/
def Obligations.HeddleCorrectsOneBit : Prop :=
  ∀ d : BitVec 64, hedJudge (codeWord d) = .clean ∧ hedDeliver (codeWord d) = d ∧
    ∀ b : Nat, b < 80 → hedJudge (codeWord d ^^^ (1#80 <<< b)) = .corrected b ∧ hedDeliver (codeWord d ^^^ (1#80 <<< b)) = d

/-- R322 to R326, R328, R329. -/
def Obligations.HeddleWords : Prop :=
  (∀ (m : Fin 204) (w : Fin 4096) (flip : BitVec 80) (bad : Bool) (s : State), s.canonical = true → w.val < macroSize m.val →
    let loc := s.hedLoc m.val w.val
    let v := s.hedStored m.val loc ^^^ flip
    s.hed.due.contains (m.val, loc) = false →
    (hedJudge v = .clean → ∃ t, exec (.heddleRead m w flip bad) s = .next t ∧ t.hed.out = some (dataOf v) ∧ t.hed.due = s.hed.due ∧ t = { s with hed := t.hed }) ∧
    (∀ b, hedJudge v = .corrected b → s.sevOf 0xB1 < 2 → ∃ t, exec (.heddleRead m w flip bad) s = .next t ∧ t.hed.out = some (hedDeliver v) ∧
      t.hed.due = s.hed.due ++ [(m.val, loc)] ∧ (∃ r, t.raised = s.raised ++ [r] ∧ r.src = 0xB1) ∧
      t.getF Reg.HED_CNT Fld.HED_CNT_CE = min (2 ^ 16 - 1) (s.getF Reg.HED_CNT Fld.HED_CNT_CE + 1) ∧
      t = { s with hed := t.hed, raised := t.raised, regs := t.regs, applied := t.applied } ∧ regsBut [Reg.HED_CNT, Reg.HED_ERR_LAST] s t) ∧
    (hedJudge v = .uncorrectable → ∃ t, exec (.heddleRead m w flip bad) s = .next t ∧ t.hed.out = none ∧ ∃ r ∈ t.raised, r.src = 0xB2)) ∧
  (∀ (m loc : Nat) (rest : List (Nat × Nat)) (s : State), s.canonical = true → s.hed.due = (m, loc) :: rest →
    (∃ t, exec (.heddleWriteback false) s = .next t ∧ t.hedStored m loc = codeWord (s.hedAt m loc) ∧ t.hed.due = rest ∧ t = { s with hed := t.hed }) ∧
    (∀ n, m < 204 → s.freeRemap m = some n → ∃ t, exec (.heddleWriteback true) s = .next t ∧ t.hed.due = rest ∧
      t.reg (bank m (Reg.HED_REMAP n)) = BitVec.ofNat 32 (s.hedAddr m loc % 4096 + 4096)) ∧
    (s.freeRemap m = none → s.sevOf 0xB3 < 2 → ∃ t, exec (.heddleWriteback true) s = .next t ∧ t.hed.due = rest ∧
      t.bitF Reg.HED_STAT Fld.HED_STAT_REMAP_FULL = true ∧ ∃ r, t.raised = s.raised ++ [r] ∧ r.src = 0xB3)) ∧
  (∀ (w : Fin 4096) (mask : BitVec 8) (data : BitVec 64) (s : State), swf 0#64 s.creel.owned = true → w.val < 3840 →
    hedJudge (s.hedStored 200 (s.hedLoc 200 w.val)) = .clean →
    ∃ t, exec (.heddleNarrowWrite 200 w mask data 0#80) s = .next t ∧ t.hedContent 200 w.val = mergeWord (s.hedContent 200 w.val) data mask ∧
      t.hedStored 200 (t.hedLoc 200 w.val) = codeWord (t.hedContent 200 w.val) ∧ (∀ b, b / 64 ≠ w.val → t.bobOwned b = s.bobOwned b) ∧
      t = { s with hed := t.hed, creel := { s.creel with owned := t.creel.owned } }) ∧
  (∀ (m loc : Nat) (bad : Bool) (e : FetchErr) (rp : ShadowRead) (s : State), s.bitF Reg.HED_SCRUB Fld.HED_SCRUB_EN = true → s.hed.scrub < hedWords →
    scrubPlace (List.range 204) s.hed.scrub = some (m, loc) → s.hed.due.contains (m, loc) = false → hedJudge (s.hedStored m loc) = .clean →
    ∃ t, exec (.heddleScrubRead 0#80 bad e rp) s = .next t ∧ t.hed = { s.hed with scrub := s.hed.scrub + 1, out := some (dataOf (s.hedStored m loc)) } ∧
      t = { s with hed := t.hed }) ∧
  (∀ (n : Fin 4) (s : State), s.canonical = true → s.may n .keeper = true → s.bitF Reg.HED_TEST_CMD Fld.HED_TEST_CMD_BUSY = false →
    let m := s.getF Reg.HED_TEST_ADDR Fld.HED_TEST_ADDR_MACRO
    let w := s.getF Reg.HED_TEST_ADDR Fld.HED_TEST_ADDR_WORD
    let loc := s.hedLoc m w
    let ends (t : State) (op r : Nat) : Prop := t.getF Reg.HED_TEST_CMD Fld.HED_TEST_CMD_OP = op ∧ t.getF Reg.HED_TEST_CMD Fld.HED_TEST_CMD_RESULT = r
    (m < 204 → w < macroSize m →
      (m ≠ 202 → m ≠ 203 →
        (∃ t, exec (.heddleRawRead n) s = .next t ∧ t.testData = dataOf (s.hedStored m loc) ∧
          t.getF Reg.HED_TEST_CHK Fld.HED_TEST_CHK_CHK = (chkOf (s.hedStored m loc)).toNat ∧ ends t 1 1 ∧
          onlyRegs [Reg.HED_TEST_CMD, Reg.HED_TEST_CHK, Reg.HED_TEST_DATA_LO, Reg.HED_TEST_DATA_HI] s t) ∧
        (∃ t, exec (.heddleDataOnly n) s = .next t ∧ t.hedStored m loc = chkOf (s.hedStored m loc) ++ s.testData ∧ ends t 3 1 ∧
          onlyRegs [Reg.HED_TEST_CMD] { s with hed := t.hed } t)) ∧
      (hedJudge (s.hedStored m loc) = .clean →
        ∃ t, exec (.heddleInject n) s = .next t ∧ t.hedStored m loc = codeWord (s.hedAt m loc) ^^^ s.testFlip ∧ ends t 2 1 ∧
          onlyRegs [Reg.HED_TEST_CMD] { s with hed := t.hed } t) ∧
      (∃ t, exec (.heddleCheckOnly n) s = .next t ∧
        t.hedStored m loc = BitVec.ofNat 16 (s.getF Reg.HED_TEST_CHK Fld.HED_TEST_CHK_CHK) ++ dataOf (s.hedStored m loc) ∧ ends t 4 1 ∧
        onlyRegs [Reg.HED_TEST_CMD] { s with hed := t.hed } t)) ∧
    (m = 202 ∨ m = 203 → w < macroSize m → ∃ t, exec (.heddleRawRead n) s = .next t ∧ ends t 1 2 ∧ onlyRegs [Reg.HED_TEST_CMD] s t) ∧
    (204 ≤ m ∨ macroSize m ≤ w → ∃ t, exec (.heddleInject n) s = .next t ∧ ends t 2 3 ∧ onlyRegs [Reg.HED_TEST_CMD] s t))

/-! ### Faults and crossings (chapters 17 and 1) -/

/-- R11, R14, R330, R331, R336, R338, R340, R341, R436. -/
def Obligations.FaultsAndCrossings : Prop :=
  (∀ (r : Raise) (rest : List Raise) (s : State), s.canonical = true → s.loomRuns = true → s.raised = r :: rest → r.reacted = true → r.late = false →
    r.sev ≤ 1 → r.src < 192 →
    ∃ t, exec .faultCollect s = .next t ∧ t.raised = rest ∧ t.isPending r.src = true ∧ (∀ k, k < 192 → k ≠ r.src → t.isPending k = s.isPending k) ∧
      t.getF (bank r.src Reg.FLT_SRC_CNT) Fld.FLT_SRC_CNT_COUNT = min Fld.FLT_SRC_CNT_COUNT.max (s.getF (bank r.src Reg.FLT_SRC_CNT) Fld.FLT_SRC_CNT_COUNT + 1) ∧
      t.acu = s.acu ∧ t.scu = s.scu ∧ t.chan = s.chan ∧ t.jq = s.jq ∧ t.hbm = s.hbm ∧
      (s.errnMin ≤ r.sev → s.isPending r.src = false → t.bitF Reg.FLT_ERRN Fld.FLT_ERRN_HOLD = true ∧ t.bitF Reg.FLT_ERRN Fld.FLT_ERRN_PIN = true ∧
        t.mgmt.ready = s.mgmt.ready ++ [.event r.src r.sev r.unit]) ∧
      (r.sev < s.errnMin → t.bitF Reg.FLT_ERRN Fld.FLT_ERRN_PIN = s.bitF Reg.FLT_ERRN Fld.FLT_ERRN_PIN ∧ t.mgmt = s.mgmt)) ∧
  (∀ (n : Fin 4) (s : State), s.canonical = true →
    (s.may n .operator = true → ∃ t, exec (.errnHoldClear n) s = .next t ∧ t.bitF Reg.FLT_ERRN Fld.FLT_ERRN_HOLD = false ∧
      t.bitF Reg.FLT_ERRN Fld.FLT_ERRN_PIN = (s.bitF Reg.FLT_ERRN Fld.FLT_ERRN_PIN && (s.power.errnLow || s.bitF Reg.FLT_ERRN Fld.FLT_ERRN_DEVSTOP)) ∧
      onlyRegs [Reg.FLT_ERRN] s t) ∧
    (s.may n .operator = false → exec (.errnHoldClear n) s = .next s)) ∧
  (∀ s : State, s.canonical = true → ∃ t, exec .errnMinPulseEnd s = .next t ∧ t.power = { s.power with errnLow := false } ∧
    t.bitF Reg.FLT_ERRN Fld.FLT_ERRN_PIN = (s.bitF Reg.FLT_ERRN Fld.FLT_ERRN_PIN && (s.bitF Reg.FLT_ERRN Fld.FLT_ERRN_HOLD || s.bitF Reg.FLT_ERRN Fld.FLT_ERRN_DEVSTOP)) ∧
    onlyRegs [Reg.FLT_ERRN] { s with power := t.power } t) ∧
  (∀ (n : Fin 4) (w : Word) (s : State), s.canonical = true →
    let src := s.fltSel n
    let v := Fld.FLT_SEV_SEV.get w
    (s.may n .keeper = true → src ≤ 0xB8 → srcMin src ≤ v → v ≤ 4 → ∃ t, exec (.severityWrite n w) s = .next t ∧ t.sevOf src = v ∧
      t.getF (bank src Reg.FLT_SEV) Fld.FLT_SEV_PROFILE = Fld.FLT_SEV_PROFILE.get w ∧ onlyRegs [bank src Reg.FLT_SEV] s t) ∧
    (s.may n .keeper = false ∨ 0xB8 < src ∨ v < srcMin src ∨ 4 < v → exec (.severityWrite n w) s = .next s)) ∧
  (∀ (p : Pll) (s : State), s.canonical = true →
    (s.bitF Reg.GLB_ISLAND_STAT (lockFld p) = false → exec (.clockPllLosesLock p) s = .next s) ∧
    (s.bitF Reg.GLB_ISLAND_STAT (lockFld p) = true → ∃ t, exec (.clockPllLosesLock p) s = .next t ∧ t.bitF Reg.GLB_ISLAND_STAT (lockFld p) = false ∧
      t.bitF Reg.GLB_READY Fld.GLB_READY_CLOCKS = false ∧ (∃ r ∈ t.raised, r.src = 0xB6) ∧
      (s.sevOf 0xB6 = 4 → s.isPending 0xB6 = false → (∀ r ∈ s.raised, r.src ≠ 0xB6) → t.bitF Reg.FLT_STOP Fld.FLT_STOP_DEVICE = true))) ∧
  (∀ s : State, ∃ t, exec .dieTemperatureLimit s = .next t ∧ (∃ r ∈ t.raised, r.src = 0xB7) ∧ (∀ r ∈ s.raised, r ∈ t.raised)) ∧
  (∀ (h : HbmTemp) (s : State), s.canonical = true →
    (∀ n : Nat, (h = .below85 ∧ n = 0) ∨ ((h = .above85 ∨ h = .below95) ∧ n = 1) ∨ (h = .above95 ∧ n = 2) →
      ∃ t, exec (.hbm3TemperatureThreshold h) s = .next t ∧ t.power = { s.power with hbmRefresh := n } ∧
        t.getF Reg.CREEL_HBM Fld.CREEL_HBM_REFRESH = n ∧ onlyRegs [Reg.CREEL_HBM] { s with power := t.power } t) ∧
    (h = .above105 → ∃ t, exec (.hbm3TemperatureThreshold h) s = .next t ∧ t.bitF Reg.CREEL_HBM Fld.CREEL_HBM_READY = false ∧
      t.bitF Reg.GLB_READY Fld.GLB_READY_HBM = false ∧ ∃ r ∈ t.raised, r.src = 0xB5)) ∧
  (∀ (x : Crossing) (s : State),
    (s.takesWords x = false → exec (.crossingWord x) s = .next s) ∧
    (∀ (w : XWord) (rest : List XWord), s.takesWords x = true → (xget x s.cross).fifo = w :: rest →
      let f := XFifo.fill (crossDepth x) { xget x s.cross with fifo := rest }
      (w.idx = 0 → 1 < w.total → exec (.crossingWord x) s = .next { s with cross := xset x { f with partial_ := [w] } s.cross }) ∧
      (w.total = w.idx + 1 → w.idx = 0 ∨ (xget x s.cross).partial_ = (wordsOf w.msg w.total).take w.idx →
        let c := xset x { f with partial_ := [], last := some w.msg } s.cross
        (∀ (a : Act) (speed vbus : Nat) (tol rotor : Bool), x = .scuAcu a true → w.msg = .report speed vbus tol rotor →
          exec (.crossingWord x) s = .next { s with cross := c, acu := s.acu.set a { s.acu[a] with speed16 := speed, vbus := vbus } }) ∧
        (∀ (a : Act) (lock : Bool), x = .chanScu a → w.msg = .lock lock → ∃ t, exec (.crossingWord x) s = .next t ∧
          t = { s with cross := c, scu := s.scu.set (hdaOf a) t.scu[hdaOf a] } ∧
          t.scu[hdaOf a] = (if a.val % 2 = 0 then { s.scu[hdaOf a] with lockLow := lock } else { s.scu[hdaOf a] with lockHigh := lock })))))

/-! ### The image, its slot, the journal and activation (chapters 9 and 18) -/

/-- R355, R356, R359. -/
def Obligations.LoaderRuns : Prop :=
  (∀ s : State, s.loomRuns = true → s.bitF Reg.GLB_READY Fld.GLB_READY_HBM = true → s.bitF Reg.GLB_READY Fld.GLB_READY_IMAGE = false →
    s.loader = .idle → ∃ t, exec .loaderStart s = .next t ∧
      t.loader = .checking (if s.getF Reg.GLB_RST_CAUSE Fld.GLB_RST_CAUSE_LAST = 0 then .powerOn else .restart) s.activeSlot ∧
      t = { s with loader := t.loader, regs := t.regs, hbm := t.hbm } ∧ regsBut [Reg.GLB_IMG_PREV] s t ∧
      ((∀ q : Fin 64, s.jq[q].running = false) → t.hbm = s.hbm)) ∧
  (∀ (f : ImageFile) (fills : List BankCheck) (w : LoadWhen) (slot : Nat) (s : State), w ≠ .activation → s.loader = .checking w slot → s.checkImage f = none →
    exec (.imageCheckPassDone ⟨f, fills⟩) s = .next { s with loader := .applying w slot, cand := some f }) ∧
  (∀ (f : ImageFile) (fills : List BankCheck) (r : Refused) (slot : Nat) (s : State), s.canonical = true → s.loader = .checking .powerOn slot → s.checkImage f = some r →
    ∃ t, exec (.imageCheckPassDone ⟨f, fills⟩) s = .next t ∧ t.img = s.img ∧ t.cand = none ∧
      t.loader = (if slot = s.activeSlot ∧ s.prevOk = true then .checking .powerOn (1 - slot) else .stopped) ∧
      t.getF Reg.GLB_IMG_ERR Fld.GLB_IMG_ERR_CODE = r.code % 16 ∧ t.getF Reg.GLB_IMG_ERR Fld.GLB_IMG_ERR_WHEN = 1 ∧
      regsBut [Reg.GLB_IMG_ERR, Reg.GLB_IMG_ERR_OFS] s t) ∧
  (∀ (f : ImageFile) (slot : Nat) (w : LoadWhen) (recheck : List Bool) (fills : List BankCheck) (s : State), s.canonical = true →
    s.loader = .applying w slot → s.cand = some f →
    (firstBad (recheck.take f.recs.length) 0 = none → ∃ t, exec (.imageApplyPassDone recheck fills) s = .next t ∧ t.img = some f ∧
      t.loader = .idle ∧ t.cand = none ∧ t.reg Reg.GLB_IMG_VER = f.version ∧ t.bitF Reg.GLB_READY Fld.GLB_READY_IMAGE = true ∧
      t.bitF Reg.GLB_IMG_STAT Fld.GLB_IMG_STAT_LOADED = true) ∧
    (∀ n, firstBad (recheck.take f.recs.length) 0 = some n → w = .powerOn → ∃ t, exec (.imageApplyPassDone recheck fills) s = .next t ∧
      t.img = s.img ∧ t.cand = none ∧ t.getF Reg.GLB_IMG_ERR Fld.GLB_IMG_ERR_CODE = 4))

/-- R357, R358, R361. -/
def Obligations.SlotDirectoryJournal : Prop :=
  (∀ (p : Fin 2) (c : Nat) (x : Ctx) (s : State), s.staging.erasing = true → s.staging.holder = some .host → s.intake.ctxs = [(c, x)] →
    x.downloads = true → x.port = p.val → x.response = [] → aget s.intake.exceptions x.lu = none →
    ∃ t, exec .stagingEraseDone s = .next t ∧ t.intake.ctxs = [] ∧ t.staging = { s.staging with erasing := false, waiting := none } ∧
      t.flash = programFlash s.flash (slotBase s.stagingSlot) (s.staging.waiting.getD []) ∧
      t.intake.sent[p] = s.intake.sent[p] ++ [.response x.init x.tag stGood []]) ∧
  (∀ (d : BootDir) (s : State), s.canonical = true → s.dirDue = some d →
    ∃ t, exec .directoryUpdateDone s = .next t ∧ t.dirA = dirBytes d ∧ t.dirB = dirBytes d ∧ t.dirDue = none ∧
      t.bitF Reg.GLB_IMG_STAT Fld.GLB_IMG_STAT_DIR_PEND = false ∧
      t = { s with dirA := dirBytes d, dirB := dirBytes d, dirDue := none, regs := t.regs } ∧ regsBut [Reg.GLB_IMG_STAT, Reg.GLB_IMG_PREV] s t) ∧
  (∀ (e : JEntry) (rest : List JEntry) (s : State), s.jpend = e :: rest → s.journal.length < halfEntries →
    (s.jwait = [] → ∃ t, exec .journalEntryDone s = .next t ∧ t.journal = s.journal ++ [entryBytes e] ∧ t.jpend = rest ∧
      t = { s with journal := t.journal, jpend := rest, regs := t.regs } ∧ regsBut [Reg.PROT_CFG] s t) ∧
    (∀ (p : Fin 2) (c : Nat) (x : Ctx), s.jwait = [(e.seq, .ctx c)] → s.intake.ctxs = [(c, x)] → x.state ≠ .linger → x.port = p.val →
      x.response = [] → aget s.intake.exceptions x.lu = none →
      ∃ t, exec .journalEntryDone s = .next t ∧ t.journal = s.journal ++ [entryBytes e] ∧ t.jpend = rest ∧ t.jwait = [] ∧
        t.intake.ctxs = [] ∧ t.intake.sent[p] = s.intake.sent[p] ++ [.response x.init x.tag stGood []])) ∧
  (∀ s : State, halfEntries ≤ s.journal.length → exec .journalCompact s = .next { s with journal := liveEntries (fun _ => true) s.journal })

/-- R212 to R214, R164, R358. -/
def Obligations.ActivationCourse : Prop :=
  (∀ s : State, s.canonical = true → s.actPhase = 1 → s.stillBegun = false → s.loader = .idle →
    ∃ t, exec .activationQuiesceDone s = .next t ∧ t.loader = .checking .activation s.stagingSlot ∧ t.actPhase = 2 ∧
      t = { s with loader := t.loader, regs := t.regs, intake := { s.intake with verifyFrom := s.intake.nextSeq } } ∧ regsBut [Reg.INT_ACT_STAT] s t) ∧
  (∀ (p : Fin 2) (c : Nat) (x : Ctx) (s : State), s.canonical = true → s.actPhase = 1 → s.intake.actBy = some (.ctx c) → s.intake.ctxs = [(c, x)] →
    x.state = .media → x.port = p.val → x.response = [] →
    ∃ t, exec .activationQuiesceTimeout s = .next t ∧ t.actPhase = 0 ∧ t.intake.actBy = none ∧ t.intake.ctxs = [] ∧
      t.intake.sent[p] = s.intake.sent[p] ++ [.response x.init x.tag stCheck (s.senseBytes x.lu (sense keyAborted 0x2C 0x00))]) ∧
  (∀ (f : ImageFile) (fills : List BankCheck) (slot : Nat) (s : State), s.canonical = true → s.loader = .checking .activation slot → s.intake.ctxs = [] →
    (s.checkImage f = none → ∃ t, exec (.activationVerifyDone f fills) s = .next t ∧ t.actPhase = 3 ∧ t.cand = some f ∧ t.loader = .idle ∧ t.img = s.img ∧
      (∀ (q : Fin 64) (g : Prog), progOf f.recs q.val = some g → s.storeUsed q = true → s.jq[q].running = true → s.storeFailed q.val = false →
        bankPasses fills q (isPick q) g = true →
        t.jq[q].staging = some g ∧ t.jq[q].armed = true ∧ t.jq[q].active = s.jq[q].active)) ∧
    (∀ r, s.checkImage f = some r → s.intake.actBy = some .mgmt → ∃ t, exec (.activationVerifyDone f fills) s = .next t ∧ t.actPhase = 0 ∧ t.cand = none ∧
      t.img = s.img ∧ t.getF Reg.INT_ACT_STAT Fld.INT_ACT_STAT_RESULT = 3 ∧ t.intake.actBy = none ∧
      (∀ q : Fin 64, t.jq[q].stgValid = false ∧ t.jq[q].armed = false ∧ t.jq[q].active = s.jq[q].active))) ∧
  (∀ (f : ImageFile) (s : State), s.canonical = true → s.cand = some f → s.actPhase = 3 → s.bitF Reg.JQ_ACT Fld.JQ_ACT_BUSY = false →
    s.intake.ctxs = [] → s.intake.actBy = some .mgmt →
    ∃ t, exec .activationSwapDone s = .next t ∧ t.img = some f ∧ t.cand = none ∧ t.actPhase = 0 ∧ t.intake.actBy = none ∧
      t.getF Reg.INT_ACT_STAT Fld.INT_ACT_STAT_RESULT = (if s.jqLeft then 2 else 1) ∧
      t.reg Reg.GLB_IMG_VER = f.version ∧ (∃ d, t.dirDue = some d ∧ d.active = s.stagingSlot ∧ d.actVer = f.version.toNat) ∧
      (∀ e ∈ s.intake.initTab, ∀ l ∈ t.cfg.lus, (⟨e.1, l.lu, 0x3F, 0x01⟩ : UnitAtt) ∈ t.intake.uas))

/-! ### Power, readiness, bring-up and resets (chapter 19) -/

/-- R364, R365, R367 to R369. -/
def Obligations.PowerOnAndBringup : Prop :=
  (∀ (mbus : Bool) (s : State),
    (s.power.released = true → exec (.powerOnRelease mbus) s = .next s) ∧
    (s.power.released = false → ∃ t, exec (.powerOnRelease mbus) s = .next t ∧ t.power.released = true ∧ t.power.phase = .run ∧ t.power.mbusHi = mbus ∧
      t.flash = s.flash ∧ t.dirA = s.dirA ∧ t.dirB = s.dirB ∧ t.journal = s.journal ∧ t.zones.saved = s.zones.saved ∧ t.rcd.ring = s.rcd.ring ∧
      t.mgmt.svnMin = s.mgmt.svnMin ∧ t.mgmt.revoked = s.mgmt.revoked ∧ t.pending = s.pending ∧ t.hbm = [] ∧ t.cip = State.reset.cip ∧
      t.intake = State.reset.intake ∧ t.sess = State.reset.sess ∧ t.chan = State.reset.chan ∧ t.acu = State.reset.acu ∧ t.scu = State.reset.scu ∧
      t.bitF Reg.GLB_READY Fld.GLB_READY_MGMT = true ∧ t.bitF Reg.GLB_PWR Fld.GLB_PWR_MBUS = mbus)) ∧
  (∀ s : State, s.canonical = true → s.power.released = true → s.power.mainHi = true →
    ∃ t, exec .pllLock s = .next t ∧ (∀ p, t.bitF Reg.GLB_ISLAND_STAT (lockFld p) = true) ∧ t.bitF Reg.GLB_READY Fld.GLB_READY_CLOCKS = true ∧
      t = { s with acu := t.acu, scu := t.scu, regs := t.regs } ∧ regsBut [Reg.GLB_ISLAND_STAT, Reg.GLB_READY] s t) ∧
  (∀ s : State, s.canonical = true → s.loomRuns = true → s.bitF Reg.GLB_READY Fld.GLB_READY_MGMT = true → s.bitF Reg.GLB_READY Fld.GLB_READY_CLOCKS = true →
    s.bitF Reg.GLB_READY Fld.GLB_READY_HBM = false →
    (∃ t, exec (.hbmTrained true) s = .next t ∧ t.bitF Reg.GLB_READY Fld.GLB_READY_HBM = true ∧ t.bitF Reg.CREEL_HBM Fld.CREEL_HBM_READY = true ∧
      onlyRegs [Reg.CREEL_HBM, Reg.GLB_READY] s t) ∧
    (∃ t, exec (.hbmTrained false) s = .next t ∧ t.bitF Reg.CREEL_HBM Fld.CREEL_HBM_TRAIN_FAIL = true ∧ ∃ r ∈ t.raised, r.src = 0xB5)) ∧
  (∀ s : State, s.canonical = true → s.bitF Reg.GLB_READY Fld.GLB_READY_IMAGE = true → s.bitF Reg.GLB_READY Fld.GLB_READY_CIPHER = false →
    (∃ t, exec (.cipherSelfTestDone true) s = .next t ∧ t.cip = { s.cip with ready := true } ∧ t.bitF Reg.GLB_READY Fld.GLB_READY_CIPHER = true ∧
      t.power.portsOn = (s.power.portsOn || s.bitF Reg.GLB_READY Fld.GLB_READY_CREEL) ∧ t = { s with cip := t.cip, power := t.power, regs := t.regs }) ∧
    (∃ t, exec (.cipherSelfTestDone false) s = .next t ∧ ∃ r ∈ t.raised, r.src = 0xAF ∧ r.sev = 4)) ∧
  (∀ s : State, s.canonical = true →
    (s.mayBringup = false ∨ s.power.buDue = none → exec .bringupStart s = .next s) ∧
    (∀ forced, s.mayBringup = true → s.power.buDue = some forced → forced = true ∨ s.bitF Reg.GLB_BU_CFG Fld.GLB_BU_CFG_AUTO = true →
      ∃ t, exec .bringupStart s = .next t ∧ t.power.buDue = none ∧
        ∀ h : Hda, s.inMask h = true → s.hasHda h = true → s.scu[h].state = .stopped → s.hdaOut h = false → s.ownBits .hda h.val % 2 = 0 →
          t.power.buRun[h] = true ∧ t.ownBits .hda h.val / 2 % 2 = 1)) ∧
  (∀ (n : Fin 4) (s : State),
    (s.may n .keeper = false → exec (.buStart n) s = .next s) ∧
    (s.may n .keeper = true → s.power.portsOn = false → exec (.buStart n) s = .next (s.modPower (fun p => { p with buDue := some true }))) ∧
    (s.may n .keeper = true → s.power.portsOn = true → ∃ t, exec (.buStart n) s = .next t ∧ t.power.buDue = none ∧
      ∀ h : Hda, s.inMask h = true → s.hasHda h = true → s.scu[h].state = .stopped → s.anyHalted h = false → s.hdaOut h = false → t.power.buRun[h] = true)) ∧
  (∀ s : State, s.canonical = true →
    (∀ h : Hda, s.power.mbusHi = true → s.placesUsed < s.staggerN → allHdas.find? (fun h => s.scu[h].waitPlace && s.scu[h].state == .detect) = some h →
      ∃ t, exec .staggerPlaceFree s = .next t ∧ t.power = { s.power with placed := s.power.placed.set h true } ∧ t.spinOf h = 2 ∧ t.scu[h].state = .align ∧
        t.scu[h].waitPlace = false ∧ ∀ g, g ≠ h → t.scu[g] = s.scu[g]) ∧
    (s.staggerN ≤ s.placesUsed ∨ s.power.mbusHi = false → exec .staggerPlaceFree s = .next s)) ∧
  (∀ (h : Hda) (r : PhaseResult) (s : State), s.canonical = true → s.power.buRun[h] = true → s.spinOf h = 2 ∨ s.spinOf h = 3 →
    (s.scu[h].inTol = true → ∃ t, exec (.bringupPhaseDone (.spin h) r) s = .next t ∧ t.spinOf h = 4 ∧ t.power.placed[h] = false ∧
      (∀ a ∈ s.actsOf h, s.phaseOf a = 8 → t.phaseOf a = 1 ∨ t.phaseOf a = 2)) ∧
    (s.scu[h].inTol = false → exec (.bringupPhaseDone (.spin h) r) s = .next s)) ∧
  (∀ (a : Act) (s : State), s.canonical = true → s.power.buRun[hdaOf a] = true →
    (s.phaseOf a = 1 → s.acu[a].state = .follow → s.acu[a].servoLock = true →
      ∃ t, exec (.bringupPhaseDone (.act a) .done) s = .next t ∧ t.phaseOf a = 2 ∧ t.chan[a].clocked = true) ∧
    (s.phaseOf a = 2 → s.chan[a].locked = false → exec (.bringupPhaseDone (.act a) .done) s = .next s) ∧
    (s.phaseOf a = 2 → s.chan[a].locked = true → ∃ t, exec (.bringupPhaseDone (.act a) .done) s = .next t ∧ t.phaseOf a = 3 ∧
      t.cal[hdaOf a].running = true ∧ t.cal[hdaOf a].bringup = true) ∧
    (s.phaseOf a = 3 → s.calLeft a = [] → s.calBusy a = false → (∃ n, n < s.cfg.acts[a].heads ∧ s.headOut a.val n = false) → s.power.tables[a] = false →
      ∃ t, exec (.bringupPhaseDone (.act a) .done) s = .next t ∧ t.phaseOf a = 4) ∧
    (∀ l, s.phaseOf a = 4 → ∃ t, exec (.bringupPhaseDone (.act a) (.tables l)) s = .next t ∧ t.phaseOf a = 5) ∧
    (∀ l fwd, swf 0 s.own = true → s.phaseOf a = 5 → s.rewriting a = false → ∃ t, exec (.bringupPhaseDone (.act a) (.saved l fwd)) s = .next t ∧ t.phaseOf a = 6 ∧
      t.power.tables[a] = true ∧ t.ownBits .act a.val / 2 % 2 = 0) ∧
    (∀ x, s.phaseOf a = 5 → s.rewriting a = true → exec (.bringupPhaseDone (.act a) x) s = .next s)) ∧
  (∀ (a : Act) (s : State), s.canonical = true → s.power.buRun[hdaOf a] = true → s.phaseOf a = 2 →
    (s.chan[a].locked = false → s.sevOf (srcAct a 7) < 2 → ∃ t, exec (.bringupWarpTimeout a) s = .next t ∧ t.phaseOf a = 7 ∧
      t.ownBits .act a.val % 2 = 1 ∧ ∃ r, t.raised = s.raised ++ [r] ∧ r.src = srcAct a 7) ∧
    (s.chan[a].locked = true → exec (.bringupWarpTimeout a) s = .next s))

/-- R371 to R374. -/
def Obligations.ResetsAndRestart : Prop :=
  (∀ s : State, s.canonical = true → s.loomRuns = true → s.power.phase = .run →
    (∃ t, exec .sysRstQualify s = .next t ∧ t.power.phase = .qualified ∧ t.power.sysLow = true ∧ t.rcd.accepting = false ∧ t.zones.temple.mb = [] ∧
      t.acu = s.acu ∧ t.scu = s.scu ∧ ((∀ (a : Act) p, s.chan[a].pass = some p → p.write = false) → s.oneEntry →
        ∀ g, zoneIn g → t.zoneBytes g = s.zoneBytes g)) ∧
    (∀ n, s.may n .keeper = true → ∃ t, exec (.softReset n) s = .next t ∧ t.power.phase = .qualified ∧ t.power.soft = true ∧ t.rcd.accepting = false ∧
      t.zones.temple.mb = [])) ∧
  (∀ (n : Fin 4) (s : State), s.may n .keeper = false → exec (.softReset n) s = .next s ∧ exec (.motionReset n) s = .next s) ∧
  (∀ s : State, s.power.phase ≠ .run → exec .sysRstQualify s = .next (s.modPower (fun p => { p with sysLow := true }))) ∧
  (∀ s : State,
    (s.power.phase ≠ .qualified → exec .resetDomainEnter s = .next s) ∧
    (s.power.phase = .qualified → ∃ t, exec .resetDomainEnter s = .next t ∧ t.power.phase = .held ∧ t.power.cause = (if s.power.soft then 2 else 1) ∧
      t.intake.ctxs = [] ∧ t.sess = State.reset.sess ∧ t.chan = State.reset.chan ∧ t.shu = State.reset.shu ∧ t.hbm = s.hbm ∧ t.flash = s.flash ∧
      t.cip.keys = s.cip.keys ∧ t.journal = s.journal ∧
      t.scu = s.scu.map (fun u => { u with lockLow := false, lockHigh := false }))) ∧
  (∀ s : State, exec .sysRstRelease s = .next (s.modPower (fun p => { p with sysLow := false }))) ∧
  (∀ s : State, s.canonical = true →
    (s.power.sysLow = true ∨ s.power.phase ≠ .held → exec .loomRestart s = .next s) ∧
    (s.power.released = true → s.power.mainHi = true → s.power.sysLow = false → s.power.phase = .held → s.power.cause < 4 →
      ∃ t, exec .loomRestart s = .next t ∧ t.power.phase = .run ∧ t.power.buDue = some true ∧ t.rcd.accepting = true ∧
        t.getF Reg.GLB_RST_CAUSE Fld.GLB_RST_CAUSE_LAST = s.power.cause ∧ t.bitF Reg.GLB_READY Fld.GLB_READY_MGMT = true ∧ t.acu = s.acu ∧ t.scu = s.scu)) ∧
  (∀ (n : Fin 4) (s : State), s.canonical = true → s.may n .keeper = true → s.bitF Reg.GLB_RST Fld.GLB_RST_MOT_BUSY = false →
    let named (h : Hda) : Bool := s.getF Reg.GLB_RST Fld.GLB_RST_MOT_HDA / 2 ^ h.val % 2 == 1
    let ok (h : Hda) : Bool := s.actPhase == 0 && s.mayReset h
    ∃ t, exec (.motionReset n) s = .next t ∧
      (∀ h, (named h && ok h) = true → t.power.mot[h] = some .parking ∧ t.bitF Reg.GLB_RST Fld.GLB_RST_MOT_BUSY = true) ∧
      (∀ h, (named h && ok h) = false → t.power.mot[h] = s.power.mot[h]) ∧
      (∀ h, named h = true → ok h = false → t.getF Reg.GLB_RST Fld.GLB_RST_MOT_RESULT = 2) ∧ t.scu = s.scu) ∧
  (∀ (h : Hda) (s : State),
    (s.power.mot[h] ≠ some .parking → exec (.motionResetGatesOff h) s = .next s) ∧
    (s.power.mot[h] = some .parking → ∃ t, exec (.motionResetGatesOff h) s = .next t ∧ t.power = { s.power with mot := s.power.mot.set h (some .held) } ∧
      t.acu[lowAct h].gatesOn = false ∧ t.acu[highAct h].gatesOn = false ∧ (t.scu[h].state = .coast ∨ t.scu[h].state = .halted) ∧
      ∀ g, g ≠ h → t.scu[g] = s.scu[g])) ∧
  (∀ (h : Hda) (fills : List BankCheck) (s : State), s.canonical = true →
    (s.power.mot[h] ≠ some .held → exec (.motionResetDone ⟨h, fills⟩) s = .next s) ∧
    (s.power.mot[h] = some .held → s.bitF Reg.GLB_BU_CFG Fld.GLB_BU_CFG_AUTO = false →
      (∀ g, s.img = some g → ∀ (q : Fin 64) p, progOf g.recs q.val = some p → bankPasses fills q (isPick q) p = true) → ∃ t, exec (.motionResetDone ⟨h, fills⟩) s = .next t ∧
      t.power.mot[h] = none ∧ t.scu[h].state = .stopped ∧ t.acu[lowAct h].state = .ramp ∧ t.acu[highAct h].state = .ramp ∧
      t.bit Reg.GLB_RST_CAUSE (8 + h.val) = true ∧ ∀ g, g ≠ h → t.power.mot[g] = s.power.mot[g]))

/-- R375 to R379. -/
def Obligations.PowerRails : Prop :=
  (∀ s : State, (s.power.mainHi = false → exec .pgMainFall s = .next s) ∧ (s.power.mainHi = true → exec .pgMainRise s = .next s) ∧
    (s.power.motHi = false → exec .pgMotFall s = .next s) ∧ (s.power.motHi = true → exec .pgMotRise s = .next s) ∧
    (s.power.mbusHi = false → exec .pgMbusFall s = .next s) ∧ (s.power.mbusHi = true → exec .pgMbusRise s = .next s)) ∧
  (∀ s : State, s.canonical = true → s.power.mainHi = true → s.power.released = true → s.sevOf 0xB8 < 2 →
    ∃ t g, exec .pgMainFall s = .next t ∧ t.power.mainHi = false ∧ t.power.phase = .held ∧ t.power.lg = some g ∧ g.fell % 2 = 1 ∧ t.hbm = [] ∧
      t.cip.keys = [] ∧ t.reg Reg.GLB_READY = 0#32 ∧ t.intake.ctxs = [] ∧ (∀ a : Act, t.chan[a].gate = false ∧ t.chan[a].pass = none) ∧ t.flash = s.flash ∧ t.journal = s.journal ∧
      ∃ r ∈ t.raised, r.src = 0xB8) ∧
  (∀ s : State, s.power.mainHi = false → ∃ t, exec .pgMainRise s = .next t ∧ t.power.mainHi = true ∧ t.acu = s.acu ∧ t.scu = s.scu ∧ t.intake = s.intake) ∧
  (∀ s : State, s.canonical = true → s.power.motHi = true → s.power.released = true → ∃ t, exec .pgMotFall s = .next t ∧ t.power.motHi = false ∧
    t.power.released = s.power.mainHi ∧ (∀ h : Hda, t.scu[h].state = .stopped) ∧ (∀ a : Act, t.acu[a].state = .ramp) ∧
    t.bitF Reg.GLB_PWR Fld.GLB_PWR_MOT = false ∧ t.bitF Reg.GLB_PWR Fld.GLB_PWR_MOT_LOST = true ∧ ∃ r ∈ t.raised, r.src = 0xB8) ∧
  (∀ s : State, s.canonical = true → s.power.motHi = false → s.power.released = true → ∃ t, exec .pgMotRise s = .next t ∧ t.power.motHi = true ∧
    t.bitF Reg.GLB_PWR Fld.GLB_PWR_MOT = true) ∧
  (∀ s : State, s.canonical = true → s.power.mbusHi = true → s.power.released = true → s.sevOf 0xB8 < 2 → ∃ t, exec .pgMbusFall s = .next t ∧
    t.power.mbusHi = false ∧ t.bitF Reg.GLB_PWR Fld.GLB_PWR_MBUS = false ∧ t.bitF Reg.GLB_PWR Fld.GLB_PWR_MBUS_LOST = true ∧
    (∀ h : Hda, s.hasHda h = true → s.scu[h].state = .run → t.scu[h].state = .bushold ∧ t.ownBits .hda h.val / 4 % 2 = 1) ∧
    ∃ r ∈ t.raised, r.src = 0xB8) ∧
  (∀ s : State, s.canonical = true → s.power.mbusHi = false → s.power.released = true → ∃ t, exec .pgMbusRise s = .next t ∧ t.power.mbusHi = true ∧
    t.power.mbusDelay = true ∧ t.bitF Reg.GLB_PWR Fld.GLB_PWR_MBUS = true ∧
    ∀ h : Hda, s.hasHda h = true → s.scu[h].state = .bushold → t.scu[h].state = .accel) ∧
  (∀ s : State, s.canonical = true →
    (s.power.mbusHi = false ∨ s.power.mbusDelay = false → exec .mbusRunDelayEnd s = .next s) ∧
    (s.power.mbusHi = true → s.power.mbusDelay = true → ∃ t, exec .mbusRunDelayEnd s = .next t ∧ t.power.mbusDelay = false ∧
      ∀ h : Hda, s.hasHda h = true → s.inMask h = true → s.begun h = true → s.scu[h].state = .coast → s.power.portsOn = true → s.power.buDue = none →
        s.hdaOut h = false → s.ownBits .hda h.val % 2 = 0 → t.power.buRun[h] = true)) ∧
  (∀ s : State, s.power.mainHi = true → exec .standbySecond s = .next s) ∧
  (∀ s : State, s.power.mainHi = false → ∃ t, exec .standbySecond s = .next t ∧
    t.power = { s.power with offSecs := min (2 ^ 32 - 1) (s.power.offSecs + 1) } ∧ t = { s with power := t.power }) ∧
  (∀ s : State, exec .standbySupplyLoss s = .next (s.modPower (fun p => { p with stbyValid := false, lg := none, offSecs := 0 })))

/-! ### Management (chapter 20) -/

/-- R380 to R386; published-standard codes are log entry 24. -/
def Obligations.EndpointAndSessions : Prop :=
  (∀ (d : BitVec 7) (s : State), s.mgmtUp = true → exec (.i3cEntdaa d) s = .next { s with mgmt := { s.mgmt with dynAddr := some d } }) ∧
  (∀ (p : MctpPacket) (s : State), s.mgmtUp = true → p.body.length ≤ 64 →
    (p.som = true → p.eom = true → exec (.mctpPacket p) s = .next { s with mgmt := { s.mgmt with
      asm := none, received := if acceptedType p.body then s.mgmt.received ++ [p.body] else s.mgmt.received } }) ∧
    (p.som = true → p.eom = false → exec (.mctpPacket p) s = .next { s with mgmt := { s.mgmt with asm := some ((p.seq.val + 1) % 4, p.body) } }) ∧
    (∀ next l, p.som = false → s.mgmt.asm = some (next, l) →
      (next = p.seq.val → l.length + p.body.length ≤ 1088 → p.eom = true → acceptedType (l ++ p.body) = true →
        exec (.mctpPacket p) s = .next { s with mgmt := { s.mgmt with asm := none, received := s.mgmt.received ++ [l ++ p.body] } }) ∧
      (next ≠ p.seq.val ∨ 1088 < l.length + p.body.length →
        exec (.mctpPacket p) s = .next { s with mgmt := { s.mgmt with asm := none } })) ∧
    (p.som = false → s.mgmt.asm = none → exec (.mctpPacket p) s = .next s)) ∧
  (∀ (m : MgmtMsg) (rest : List MgmtMsg) (s : State), s.mgmtUp = true → s.mgmt.ready = m :: rest →
    (s.mgmt.dynAddr.isSome = true →
      exec .inBandInterrupt s = .next { s with mgmt := { s.mgmt with ready := rest, sent := s.mgmt.sent ++ [m] } }) ∧
    (s.mgmt.dynAddr = none → exec .inBandInterrupt s = .next s)) ∧
  (∀ s : State, s.mgmtUp = true →
    (∀ e : Byte, e ≠ 0x00#8 → e ≠ 0xFF#8 →
      exec (.setEndpointId e) s = .next (answer (.control 0x01 [0x00#8, 0x00#8, e, 0x00#8]) { s with mgmt := { s.mgmt with eid := e } })) ∧
    (∀ e : Byte, e = 0x00#8 ∨ e = 0xFF#8 → exec (.setEndpointId e) s = .next (answer (.control 0x01 [0x02#8]) s)) ∧
    exec .getEndpointId s = .next (answer (.control 0x02 [0x00#8, s.mgmt.eid, 0x00#8, 0x00#8]) s) ∧
    (∃ u, u.length = 16 ∧ exec .getEndpointUuid s = .next (answer (.control 0x03 (0x00#8 :: u)) s)) ∧
    (∀ t, ∃ v, exec (.getMctpVersionSupport t) s = .next (answer (.control 0x04 (0x00#8 :: v)) s)) ∧
    exec .getMessageTypeSupport s = .next (answer (.control 0x05 [0x00#8, 5#8, 0x00#8, 0x01#8, 0x05#8, 0x06#8, 0x7F#8]) s) ∧
    (∃ d, exec (.getVendorDefinedMessageSupport 0#8) s = .next (answer (.control 0x06 (0x00#8 :: d)) s)) ∧
    (∀ v : Byte, v ≠ 0#8 → exec (.getVendorDefinedMessageSupport v) s = .next (answer (.control 0x06 [0x02#8]) s))) ∧
  (∀ s : State, s.mgmtUp = true →
    exec .getVersion s = .next (answer (.spdm none .version) s) ∧ exec .getCapabilities s = .next (answer (.spdm none .capabilities) s) ∧
    exec (.negotiateAlgorithms true) s = .next (answer (.spdm none .algorithms) s) ∧
    exec (.negotiateAlgorithms false) s = .next (answer (.spdm none (.error 0x01)) s) ∧ exec .getDigests s = .next (answer (.spdm none .digests) s) ∧
    (∀ o l, exec (.getCertificate 0 o l) s = .next (answer (.spdm none (.certificate 0 o l)) s)) ∧
    (∀ c o l, c ≠ 0 → exec (.getCertificate c o l) s = .next (answer (.spdm none (.error 0x01)) s)) ∧
    (∀ x, exec (.challenge 0 x) s = .next (answer (.spdm none (.challengeAuth 0 x)) s)) ∧
    (∀ c x, c ≠ 0 → exec (.challenge c x) s = .next (answer (.spdm none (.error 0x01)) s)) ∧
    (∀ x, exec (.getMeasurements 0#8 x) s = .next (answer (.spdm none (.measurements 3 [] x)) s)) ∧
    (∀ (i : Byte) x, 1 ≤ i.toNat → i.toNat ≤ 3 →
      exec (.getMeasurements i x) s = .next (answer (.spdm none (.measurements 1 [(i.toNat, s.measurement i.toNat)] x)) s)) ∧
    (∀ (i : Byte) x, 3 < i.toNat → i ≠ 0xFF#8 → exec (.getMeasurements i x) s = .next (answer (.spdm none (.error 0x01)) s))) ∧
  (∀ (b : Bool) (s : State), s.mgmtUp = true →
    (∀ n : Fin 4, s.sess[n].phase = .closed → (∀ k : Fin 4, k < n → s.sess[k].phase ≠ .closed) →
      ∃ t, exec (.keyExchange b) s = .next t ∧ t = { s with sess := t.sess, mgmt := t.mgmt } ∧ t.sess[n].phase = .exchanging b ∧
        (∀ k, k ≠ n → t.sess[k] = s.sess[k]) ∧ t.mgmt = { s.mgmt with ready := s.mgmt.ready ++ [.spdm none (.keyExchange n b)] }) ∧
    ((∀ n : Fin 4, s.sess[n].phase ≠ .closed) → exec (.keyExchange b) s = .next (answer (.spdm none (.error 0x03)) s))) ∧
  (∀ (n : Fin 4) (wanted : Bool) (f : FinishMsg) (s : State), s.canonical = true → s.mgmtUp = true → s.sess[n].phase = .exchanging wanted →
    (f.verified = false → ∃ t, exec (.finish n f) s = .next t ∧ sessionClosed n [.spdm (some n) (.error 0x06)] s t) ∧
    (f.verified = true → wanted = false → ∃ t, exec (.finish n f) s = .next t ∧ sessionOpened n .observer 0 false s t) ∧
    (f.verified = true → wanted = true → f.mutualAuth = true → s.mgmt.claimOpen = false ∨ s.keeperAnchors ≠ 0 →
      (∀ i, s.anchorSlot 3 f.rootDigest = some i → s.keeperOpen = false →
        ∃ t, exec (.finish n f) s = .next t ∧ sessionOpened n .keeper i true s t) ∧
      (∀ i, s.anchorSlot 3 f.rootDigest = some i → s.keeperOpen = true →
        ∃ t, exec (.finish n f) s = .next t ∧ sessionClosed n [.spdm (some n) (.error 0x03)] s t) ∧
      (∀ i, s.anchorSlot 3 f.rootDigest = none → s.anchorSlot 2 f.rootDigest = some i →
        ∃ t, exec (.finish n f) s = .next t ∧ sessionOpened n .operator i true s t) ∧
      (∀ i, s.anchorSlot 3 f.rootDigest = none → s.anchorSlot 2 f.rootDigest = none → s.anchorSlot 1 f.rootDigest = some i →
        ∃ t, exec (.finish n f) s = .next t ∧ sessionOpened n .observer i true s t) ∧
      ((∀ r ∈ [1, 2, 3], s.anchorSlot r f.rootDigest = none) →
        ∃ t, exec (.finish n f) s = .next t ∧ sessionClosed n [.spdm (some n) (.error 0x05)] s t)) ∧
    (f.verified = true → wanted = true → f.mutualAuth = true → s.mgmt.claimOpen = true → s.keeperAnchors = 0 → f.rootDigest.length = 48 →
      ∃ t e, exec (.finish n f) s = .next t ∧ t.sess[n] = ⟨.opened, .keeper, 0, true, s.now⟩ ∧ t.mgmt.claimOpen = false ∧
        t.mgmt.ready = s.mgmt.ready ++ [.spdm (some n) .finish] ∧ t.jpend = s.jpend ++ [e] ∧ e.kind = 1 ∧ e.page = 0xF0 ∧ e.sub = 12 ∧
        e.data = f.rootDigest)) ∧
  (∀ (n : Fin 4) (s : State), s.inSess n →
    exec (.heartbeat n) s = .next (answer (.spdm (some n) .heartbeatAck) (touchSess n s)) ∧
    exec (.keyUpdate n) s = .next (answer (.spdm (some n) .keyUpdateAck) (touchSess n s)) ∧
    (∃ t, exec (.endSession n) s = .next t ∧ sessionClosed n [.spdm (some n) .endSessionAck] s t)) ∧
  (∀ (n : Fin 4) (s : State), s.isOpen n = false →
    exec (.heartbeat n) s = .next s ∧ exec (.keyUpdate n) s = .next s ∧ exec (.endSession n) s = .next s) ∧
  (∀ (n : Fin 4) (s : State), ∃ t, exec (.sessionIdleTimeout n) s = .next t ∧ sessionClosed n [] s t) ∧
  (∀ s : State, exec .claimWindowEnd s = .next { s with mgmt := { s.mgmt with claimOpen := false } })

/-- R357, R385 to R397, R399; published-standard codes are log entry 24. -/
def Obligations.RegistersUnitsAndFirmware : Prop :=
  (∀ (m : RegMsg) (s : State), s.mgmtUp = true →
    exec (.regRead none m) s = .next (answer (regRsp none m 0x01 []) s) ∧ exec (.regWrite none m) s = .next (answer (regRsp none m 0x01 []) s) ∧
    exec (.regWriteMasked none m) s = .next (answer (regRsp none m 0x01 []) s) ∧
    (∀ st, exec (.unitState none m st) s = .next (answer (regRsp none ⟨m.bytes ++ st⟩ 0x01 []) s))) ∧
  (∀ (n : Fin 4) (m : RegMsg) (cc : Nat) (s : State), s.inSess n →
    (headCheck m 0x01 1 64 0 0 = some cc → exec (.regRead (some n) m) s = .next (answer (regRsp (some n) m cc []) (touchSess n s))) ∧
    (headCheck m 0x02 1 32 4 0 = some cc → exec (.regWrite (some n) m) s = .next (answer (regRsp (some n) m cc []) (touchSess n s))) ∧
    (headCheck m 0x03 1 1 0 8 = some cc → exec (.regWriteMasked (some n) m) s = .next (answer (regRsp (some n) m cc []) (touchSess n s))) ∧
    (∀ h st, m.bytes = h ++ st → headCheck m 0x04 0 0 0 8 = some cc →
      exec (.unitState (some n) ⟨h⟩ st) s = .next (answer (regRsp (some n) m cc []) (touchSess n s)))) ∧
  (∀ (n : Fin 4) (m : RegMsg) (s : State), s.inSess n → s.sess[n].role = .observer →
    (headCheck m 0x02 1 32 4 0 = none → exec (.regWrite (some n) m) s = .next (answer (regRsp (some n) m 0x01 []) (touchSess n s))) ∧
    (headCheck m 0x03 1 1 0 8 = none → exec (.regWriteMasked (some n) m) s = .next (answer (regRsp (some n) m 0x01 []) (touchSess n s))) ∧
    (∀ h st, m.bytes = h ++ st → headCheck m 0x04 0 0 0 8 = none →
      exec (.unitState (some n) ⟨h⟩ st) s = .next (answer (regRsp (some n) m 0x01 []) (touchSess n s)))) ∧
  (∀ (n : Fin 4) (m : RegMsg) (d : RegDesc) (i r : Nat) (s : State), s.inSess n → headCheck m 0x01 1 64 0 0 = none → m.count = 1#8 →
    regAt m.addr = some (d, i, r) → d.base ≠ Reg.CREEL_POOL_PEAK → (∀ u : State, u.capture (some n) d.base r = none) →
    ∃ t, exec (.regRead (some n) m) s = .next t ∧
      t.mgmt.ready = s.mgmt.ready ++ [regRsp (some n) m 0x00 (leBytes 4 ((touchSess n s).readWord (some n) m.addr).toNat)] ∧
      (d.mask (fun f => f.acc == .rc) = 0 → onlyAnswer n [] s t) ∧
      (∀ k, s.canonical = true → s.declared d.base i r = true → s.regClocked d.base i = true → s.regKey (some n) d.base i m.addr = some k →
        onlyAnswer n [k] s t ∧ t.reg k = s.reg k &&& ~~~(BitVec.ofNat 32 (d.mask (fun f => f.acc == .rc))))) ∧
  (∀ (n : Fin 4) (m : RegMsg) (d : RegDesc) (i r k : Nat) (s : State), s.canonical = true → s.inSess n → s.sess[n].role = .keeper →
    PlainReg s n m.addr k d i r →
    (headCheck m 0x02 1 32 4 0 = none → m.count = 1#8 → ∃ t, exec (.regWrite (some n) m) s = .next t ∧ onlyAnswer n [k] s t ∧
      t.reg k = written (s.reg k) 0xFFFFFFFF#32 (BitVec.ofNat 32 (leNat m.data)) d.bits ∧
      t.mgmt.ready = s.mgmt.ready ++ [regRsp (some n) m 0x00 []]) ∧
    (headCheck m 0x03 1 1 0 8 = none → ∃ t, exec (.regWriteMasked (some n) m) s = .next t ∧ onlyAnswer n [k] s t ∧
      t.reg k = written (s.reg k) (BitVec.ofNat 32 (leNat (m.data.take 4))) (BitVec.ofNat 32 (leNat (m.data.drop 4))) d.bits ∧
      t.mgmt.ready = s.mgmt.ready ++ [regRsp (some n) m 0x00 []])) ∧
  (∀ (n : Fin 4) (hd l : List Byte) (k : UnitKind) (s : State), s.canonical = true → s.inSess n → s.sess[n].role ≠ .observer →
    let m : RegMsg := ⟨hd ++ l⟩
    let st := m.state
    headCheck m 0x04 0 0 0 8 = none → unitKind st.kind.toNat = some k →
    (s.unitCheck n st = 0x05 → ∃ t, exec (.unitState (some n) ⟨hd⟩ l) s = .next t ∧ onlyAnswer n [Reg.UST_CNT] s t ∧
      t.getF Reg.UST_CNT Fld.UST_CNT_MISMATCH = min 65535 (s.getF Reg.UST_CNT Fld.UST_CNT_MISMATCH + 1) ∧
      t.mgmt.ready = s.mgmt.ready ++ [regRsp (some n) m 0x05 (s.report k st.index.toNat)]) ∧
    (s.unitCheck n st = 0x06 ∨ s.unitCheck n st = 0x01 →
      exec (.unitState (some n) ⟨hd⟩ l) s = .next (answer (regRsp (some n) m (s.unitCheck n st) (s.report k st.index.toNat)) (touchSess n s))) ∧
    (s.unitCheck n st = 0x00 → st.target ≠ 0#8 → s.drainOf k st.index.toNat = none → s.adm k st.index.toNat ≠ 1 → st.drainT ≠ 0#16 →
      ∃ t, exec (.unitState (some n) ⟨hd⟩ l) s = .next t ∧ t.adm k st.index.toNat = 1 ∧ t.gen k st.index.toNat = (s.gen k st.index.toNat + 1) % 65536 ∧
        t.drainOf k st.index.toNat = some ⟨k, st.index.toNat, st.target.toNat, if st.drainT = 0xFFFF#16 then none else some st.drainT.toNat, s.now⟩ ∧
        t.intake = s.intake ∧ regsBut [ustKey k st.index.toNat] s t ∧
        t.mgmt.ready = s.mgmt.ready ++ [regRsp (some n) m 0x00 (t.report k st.index.toNat)]) ∧
    (s.unitCheck n st = 0x00 → st.target = 0#8 → k = .lu →
      ∃ t, exec (.unitState (some n) ⟨hd⟩ l) s = .next t ∧ t.adm .lu st.index.toNat = 0 ∧ t.drainOf .lu st.index.toNat = none ∧
        t.intake = s.intake ∧ t.mgmt.ready = s.mgmt.ready ++ [regRsp (some n) m 0x00 (t.report .lu st.index.toNat)])) ∧
  (∀ (k : UnitKind) (i : Fin 256) (s : State), s.canonical = true →
    (∀ d, s.drainOf k i.val = some d → d.target = 2 ∨ d.target = 3 →
      (s.loomRuns = true → s.onUnit k i.val = [] →
        ∃ t, exec (.drainComplete k i) s = .next t ∧ t.adm k i.val = d.target ∧ t.drainOf k i.val = none ∧ (k = .lu → t.intake = s.intake)) ∧
      (s.onUnit k i.val ≠ [] → exec (.drainComplete k i) s = .next s) ∧
      (d.deadline = none → exec (.drainDeadline k i) s = .next s) ∧
      (∀ (q : Fin 2) (c : Nat) (x : Ctx), d.deadline.isSome = true → s.intake.ctxs = [(c, x)] → s.onUnit k i.val = [c] → x.state = .queued →
        x.abort = false → x.doom = none → x.cls = 0 → x.preds = [] → x.port = q.val → x.response = [] → (∀ a : Act, s.chan[a].cur = none) →
        s.zones.waits = [] →
        ∃ t, exec (.drainDeadline k i) s = .next t ∧ t.intake.ctxs = [] ∧
          t.getF Reg.UST_CNT Fld.UST_CNT_DRAIN_ABORT = min 65535 (s.getF Reg.UST_CNT Fld.UST_CNT_DRAIN_ABORT + 1) ∧
          (∃ y, t.intake.sent[q] = s.intake.sent[q] ++ [.response x.init x.tag stCheck y]))) ∧
    (s.drainOf k i.val = none → exec (.drainComplete k i) s = .next s ∧ exec (.drainDeadline k i) s = .next s)) ∧
  (∀ (n : Fin 4) (cmd : Byte) (q : MonitorQuery) (code : Nat) (s : State), s.inSess n →
    (∃ d, exec (.pldmDiscovery (some n) cmd) s = .next (answer (.pldm (some n) 0 cmd.toNat (0x00#8 :: d)) (touchSess n s))) ∧
    exec (.pldmDiscovery none cmd) s = .next s ∧
    (∀ v, s.monitor q = (code, some v) →
      exec (.pldmMonitorRead (some n) q) s = .next (answer (.pldm (some n) 2 code (0x00#8 :: leBytes 4 v)) (touchSess n s)) ∧
      exec (.pldmMonitorRead none q) s = .next (answer (.pldm none 2 code (0x00#8 :: leBytes 4 v)) s)) ∧
    (s.monitor q = (code, none) → exec (.pldmMonitorRead none q) s = .next (answer (.pldm none 2 code [0x80#8]) s))) ∧
  (∀ (n : Fin 4) (off : Nat) (data : List Byte) (s : State), s.canonical = true → s.inSess n →
    (s.sess[n].role ≠ .keeper →
      exec (.pldmFirmwareTransfer n off data) s = .next (answer (.pldm (some n) 5 0x15 [0x01#8]) (touchSess n s)) ∧
      exec (.activateFirmware n) s = .next (answer (.pldm (some n) 5 0x1A [0x01#8]) (touchSess n s))) ∧
    (s.sess[n].role = .keeper → s.actPhase = 0 →
      (off = 0 → data.length ≤ slotSize → ∃ t, exec (.pldmFirmwareTransfer n off data) s = .next t ∧
        t.staging = ⟨some .pldm, true, data.length, some data⟩ ∧ t.bitF Reg.GLB_IMG_STAT Fld.GLB_IMG_STAT_STG_BUSY = true ∧
        t.flash = sdrop (fun a => decide (slotBase s.stagingSlot ≤ a) && decide (a < slotBase s.stagingSlot + slotSize)) s.flash ∧
        t.mgmt.ready = s.mgmt.ready ++ [.pldm (some n) 5 0x15 [0x00#8]] ∧ regsBut [Reg.GLB_IMG_STAT] s t ∧ t.intake = s.intake) ∧
      (off ≠ 0 → s.staging.holder = some .pldm → off = s.staging.next → off + data.length ≤ slotSize → s.staging.erasing = false →
        exec (.pldmFirmwareTransfer n off data) s = .next (answer (.pldm (some n) 5 0x15 [0x00#8]) { touchSess n s with
          flash := programFlash s.flash (slotBase s.stagingSlot + off) data, staging := { s.staging with next := off + data.length } })) ∧
      (off ≠ 0 → s.staging.holder ≠ some .pldm →
        exec (.pldmFirmwareTransfer n off data) s = .next (answer (.pldm (some n) 5 0x15 [0x84#8]) (touchSess n s))) ∧
      (∃ t, exec (.activateFirmware n) s = .next t ∧ t.actPhase = 1 ∧ t.intake.actBy = some .mgmt ∧
        t.mgmt.ready = s.mgmt.ready ++ [.pldm (some n) 5 0x1A [0x00#8]])) ∧
    (s.sess[n].role = .keeper → s.actPhase ≠ 0 →
      exec (.activateFirmware n) s = .next (answer (.pldm (some n) 5 0x1A [0x84#8]) (touchSess n s)))) ∧
  (∀ (n k : Fin 4) (v : Nat) (s : State), s.inSess n → s.sess[n].role = .keeper →
    ((∀ a, s.mgmt.armed = some a → a.sess ≠ n ∨ a.code ≠ 0x01 ∨ a.arg ≠ v) →
      exec (.oemRaiseSvnMin n v) s = .next (answer (.pldm (some n) 63 0x01 [0x00#8])
        { touchSess n s with mgmt := { s.mgmt with armed := some ⟨n, 0x01, v, s.now⟩ } })) ∧
    (∀ t0, s.mgmt.armed = some ⟨n, 0x01, v, t0⟩ → s.now ≤ t0 + 10000000 →
      exec (.oemRaiseSvnMin n v) s = .next (answer (.pldm (some n) 63 0x01 [0x00#8])
        { touchSess n s with mgmt := { s.mgmt with svnMin := max s.mgmt.svnMin v, armed := none } })) ∧
    (∀ t0, s.mgmt.armed = some ⟨n, 0x02, k.val, t0⟩ → s.now ≤ t0 + 10000000 → s.mgmt.revoked.contains k.val = false →
      exec (.oemRevokeKey n k) s = .next (answer (.pldm (some n) 63 0x02 [0x00#8])
        { touchSess n s with mgmt := { s.mgmt with revoked := s.mgmt.revoked ++ [k.val], armed := none } })) ∧
    exec .oemArmExpire s = .next { s with mgmt := { s.mgmt with armed := none } }) ∧
  (∀ (n : Fin 4) (role slot : Nat) (s : State), s.canonical = true → s.may n .keeper = true →
    s.bitF Reg.PROT_ANCHOR_CMD Fld.PROT_ANCHOR_CMD_BUSY = false → s.anchorSel n = (role, slot) → role ≠ 0 →
    (s.stagedDigest.all (· == 0#8) = true → ∃ t, exec (.anchorInstall n) s = .next t ∧ onlyRegs [Reg.PROT_ANCHOR_CMD] s t ∧
      t.getF Reg.PROT_ANCHOR_CMD Fld.PROT_ANCHOR_CMD_RESULT = 4) ∧
    (s.stagedDigest.all (· == 0#8) = false → (s.anchorAt role slot).isSome = true → ∃ t, exec (.anchorInstall n) s = .next t ∧
      onlyRegs [Reg.PROT_ANCHOR_CMD] s t ∧ t.getF Reg.PROT_ANCHOR_CMD Fld.PROT_ANCHOR_CMD_RESULT = 3) ∧
    (s.stagedDigest.all (· == 0#8) = false → s.anchorAt role slot = none → ∃ t e, exec (.anchorInstall n) s = .next t ∧
      t.bitF Reg.PROT_ANCHOR_CMD Fld.PROT_ANCHOR_CMD_BUSY = true ∧ t.mgmt.anchorJob = some ⟨role, slot, s.stagedDigest⟩ ∧
      t.jpend = s.jpend ++ [e] ∧ e.kind = 1 ∧ e.page = 0xF0 ∧ e.sub = role * 4 + slot ∧ e.data = s.stagedDigest ∧ t.sess = s.sess) ∧
    (role = 3 → (s.anchorAt role slot).isSome = true → s.keeperAnchors ≤ 1 → ∃ t, exec (.anchorRemove n) s = .next t ∧
      onlyRegs [Reg.PROT_ANCHOR_CMD] s t ∧ t.getF Reg.PROT_ANCHOR_CMD Fld.PROT_ANCHOR_CMD_RESULT = 2) ∧
    (role ≠ 3 ∨ 1 < s.keeperAnchors → ∃ t e, exec (.anchorRemove n) s = .next t ∧
      t.bitF Reg.PROT_ANCHOR_CMD Fld.PROT_ANCHOR_CMD_BUSY = true ∧ t.mgmt.anchorJob = some ⟨role, slot, []⟩ ∧
      t.jpend = s.jpend ++ [e] ∧ e.kind = 1 ∧ e.page = 0xF0 ∧ e.sub = role * 4 + slot ∧ e.data = [] ∧ t.sess = s.sess) ∧
    (∀ d, s.anchorAt role slot = some d → d.length = 48 → ∃ t, exec (.anchorCopy n) s = .next t ∧ t.stagedDigest = d ∧
      t.getF Reg.PROT_ANCHOR_CMD Fld.PROT_ANCHOR_CMD_RESULT = 1 ∧
      onlyRegs (Reg.PROT_ANCHOR_CMD :: (List.range 12).map (fun i => Reg.PROT_ANCHOR_DIG i)) s t)) ∧
  (∀ (n : Fin 4) (s : State), s.may n .keeper = false →
    exec (.anchorInstall n) s = .next s ∧ exec (.anchorRemove n) s = .next s ∧ exec (.anchorCopy n) s = .next s)

/-! ### Calibration (chapter 21) -/

/-- R402 to R409. -/
def Obligations.CalibrationRuns : Prop :=
  (∀ (h : Hda) (temp : BitVec 8) (s : State), s.canonical = true →
    (s.loomRuns = false ∨ s.hasHda h = false → exec (.thermistorRead h temp) s = .next s) ∧
    (s.loomRuns = true → s.hasHda h = true →
      (s.cal[h].running = true ∨ s.bitF Reg.CAL_CFG Fld.CAL_CFG_AUTO = false → ∃ t, exec (.thermistorRead h temp) s = .next t ∧
        t.getF (Reg.CAL_HDA h.val) Fld.CAL_HDA_TEMP = temp.toNat ∧ onlyRegs [Reg.CAL_HDA h.val] s t) ∧
      (s.cal[h].running = false → s.bitF Reg.CAL_CFG Fld.CAL_CFG_AUTO = true →
        atLeast1 (s.getF Reg.CAL_CFG Fld.CAL_CFG_TEMP_DELTA) ≤ (signed 8 temp.toNat - s.calLast h).natAbs →
        ∃ t, exec (.thermistorRead h temp) s = .next t ∧ t.getF (Reg.CAL_HDA h.val) Fld.CAL_HDA_TEMP = temp.toNat ∧ t.cal[h].running = true ∧
          t.cal[h].cause = 1 ∧ t.cal[h].temp = signed 8 temp.toNat ∧ t.cal[h].scu = true ∧ (∀ g, g ≠ h → t.cal[g] = s.cal[g]) ∧
          t.chan = s.chan ∧ t.intake = s.intake))) ∧
  (∀ (h : Hda) (s : State), s.canonical = true →
    (s.periodOn = false ∨ s.cal[h].running = true → exec (.calPeriodExpire h) s = .next s) ∧
    (s.periodOn = true → s.cal[h].running = false → s.loomRuns = true → s.hasHda h = true →
      ∃ t, exec (.calPeriodExpire h) s = .next t ∧ t.cal[h].running = true ∧ t.cal[h].cause = 2 ∧ t.cal[h].temp = s.calTemp h ∧
        t.bitF (Reg.CAL_HDA h.val) Fld.CAL_HDA_RUNNING = true ∧ t.getF (Reg.CAL_HDA h.val) Fld.CAL_HDA_CAUSE = 2 ∧
        (∀ g, g ≠ h → t.cal[g] = s.cal[g]) ∧ regsBut [Reg.CAL_HDA h.val] s t)) ∧
  (∀ (n : Fin 4) (h : Hda) (s : State), s.canonical = true →
    (s.may n .operator = false → exec (.calGo n) s = .next s ∧ exec (.calAbort n) s = .next s) ∧
    (s.may n .operator = true → s.calNamed = [h] →
      (s.loomRuns = true → s.hasHda h = true → s.cal[h].running = false →
        ∃ t, exec (.calGo n) s = .next t ∧ t.cal[h].running = true ∧ t.cal[h].cause = 3 ∧ (∀ g, g ≠ h → t.cal[g] = s.cal[g]) ∧
          regsBut [Reg.CAL_HDA h.val] s t) ∧
      (s.cal[h].running = true → s.cal[h].bringup = false →
        (s.calBusy (lowAct h) = false → s.calBusy (highAct h) = false → ∃ t, exec (.calAbort n) s = .next t ∧ t.cal[h].running = false ∧
          t.calLeft (lowAct h) = [] ∧ t.calLeft (highAct h) = [] ∧ (∀ w ∈ t.sch[lowAct h].work, w.1.isCal = false) ∧ t.chan = s.chan ∧
          t.calLast h = s.calLast h) ∧
        (s.calBusy (lowAct h) = true → ∃ t, exec (.calAbort n) s = .next t ∧ t.cal[h].running = true ∧ t.cal[h].aborted = true ∧
          t.cal[h].scu = false ∧ t.acu = s.acu)) ∧
      (s.cal[h].running = false → exec (.calAbort n) s = .next s))) ∧
  (∀ (a : Act) (i : Fin 8) (gain ofs : Int) (s : State), s.canonical = true →
    (s.acu[a].clocked = false → exec (.calReferenceStep (.acu a) i gain ofs) s = .next s) ∧
    (s.acu[a].clocked = true →
      (aget s.calRef (refKey (.acu a) i) = none → ∃ t, exec (.calReferenceStep (.acu a) i gain ofs) s = .next t ∧
        t.calRef = aset s.calRef (refKey (.acu a) i) [(gain, ofs)] ∧ t = { s with calRef := t.calRef, regs := t.regs } ∧ regsBut [Reg.CAL_REF_STAT] s t) ∧
      (∀ l, aget s.calRef (refKey (.acu a) i) = some l → l ≠ [] →
        ((((l.length : Int) * gain - isum (l.map (·.1))).natAbs ≤ 100 * l.length) → ∃ t, exec (.calReferenceStep (.acu a) i gain ofs) s = .next t ∧
          t.calRef = aset s.calRef (refKey (.acu a) i) (((gain, ofs) :: l).take 16) ∧ regsBut [Reg.CAL_REF_STAT] s t) ∧
        (100 * l.length < (((l.length : Int) * gain - isum (l.map (·.1))).natAbs) → ∃ t, exec (.calReferenceStep (.acu a) i gain ofs) s = .next t ∧
          t.bitF Reg.CAL_REF_STAT Fld.CAL_REF_STAT_REF_BAD = true ∧ onlyRegs [Reg.CAL_REF_STAT] s t)))) ∧
  (∀ (h : Hda) (r : Nat) (s : State), s.canonical = true →
    (s.cal[h].running = false ∨ s.cal[h].scu = false ∨ s.scu[h].state ≠ .run → exec (.rphMeasureDone h r) s = .next s) ∧
    (s.cal[h].running = true → s.cal[h].scu = true → s.scu[h].state = .run → s.cal[h].aborted = false → s.cal[h].left[0] ≠ [] →
      (s.imageRph h ≤ 2 * r → 2 * r ≤ 3 * s.imageRph h → ∃ t, exec (.rphMeasureDone h r) s = .next t ∧ t.cfg.spin[h].rPh = r ∧
        t.cal[h] = { s.cal[h] with scu := false } ∧ t = { s with cfg := t.cfg, cal := t.cal }) ∧
      (2 * r < s.imageRph h → ∃ t, exec (.rphMeasureDone h r) s = .next t ∧ t.cfg = s.cfg ∧ t.cal[h] = { s.cal[h] with scu := false } ∧
        t.getF Reg.CAL_CNT2 Fld.CAL_CNT2_REJECT = min 65535 (s.getF Reg.CAL_CNT2 Fld.CAL_CNT2_REJECT + 1) ∧ regsBut [Reg.CAL_CNT2] s t))) ∧
  (∀ (a : Act) (m : CalWindow) (s : State), s.acu[a].calWin = none ∨ s.acu[a].state ≠ .follow → exec (.calWindowEnd a m) s = .next s) ∧
  (∀ (a : Act) (m : CalWindow) (hd z : Nat) (s : State), s.canonical = true → swf 0#32 s.chan[a].skew = true → z < 64 →
    s.acu[a].calWin = some (hd * 64 + z) → s.acu[a].state = .follow → s.sch[a].decided = none →
    s.cal[hdaOf a].bringup = true ∨ s.cal[hdaOf a].scu = true →
    (s.skewWedges a < 2 * m.missing → ∃ t, exec (.calWindowEnd a m) s = .next t ∧ t.acu[a].calWin = none ∧ t.sch[a].pass = none ∧
      t.chan[a].skew = s.chan[a].skew ∧ t.getF Reg.CAL_CNT Fld.CAL_CNT_DISCARD = min 65535 (s.getF Reg.CAL_CNT Fld.CAL_CNT_DISCARD + 1)) ∧
    (2 * m.missing ≤ s.skewWedges a → m.radial.natAbs ≤ 127 →
      (s.firstOf a hd z = none → skewValid (s.chan[a].skewOf hd z) = false ∨ (m.angle - skewAngle (s.chan[a].skewOf hd z)).natAbs ≤ s.skewJump →
        ∃ t, exec (.calWindowEnd a m) s = .next t ∧ t.chan[a].skewOf hd z = skewWord m.angle m.radial true ∧ (hd, z) ∉ t.calLeft a ∧
          t.getF Reg.CAL_CNT Fld.CAL_CNT_DONE = min 65535 (s.getF Reg.CAL_CNT Fld.CAL_CNT_DONE + 1) ∧
          (∀ p q, q < 64 → (p, q) ≠ (hd, z) → t.chan[a].skewOf p q = s.chan[a].skewOf p q) ∧ t.acu[a].calWin = none ∧ t.sch[a].pass = none) ∧
      (s.firstOf a hd z = none → skewValid (s.chan[a].skewOf hd z) = true → s.skewJump < (m.angle - skewAngle (s.chan[a].skewOf hd z)).natAbs →
        s.cal[hdaOf a].aborted = false →
        ∃ t, exec (.calWindowEnd a m) s = .next t ∧ t.chan[a].skew = s.chan[a].skew ∧ t.firstOf a hd z = some m.angle ∧ t.calLeft a = s.calLeft a ∧
          t.acu[a].calWin = none) ∧
      (∀ x, s.firstOf a hd z = some x → (m.angle - x).natAbs ≤ 4 →
        ∃ t, exec (.calWindowEnd a m) s = .next t ∧ t.chan[a].skewOf hd z = skewWord m.angle m.radial true ∧ t.firstOf a hd z = none ∧
          t.getF Reg.CAL_CNT2 Fld.CAL_CNT2_JUMP = min 65535 (s.getF Reg.CAL_CNT2 Fld.CAL_CNT2_JUMP + 1)) ∧
      (∀ x, s.firstOf a hd z = some x → 4 < (m.angle - x).natAbs → m.marks < 64 → s.headOut a.val hd = true →
        ∃ t, exec (.calWindowEnd a m) s = .next t ∧ skewValid (t.chan[a].skewOf hd z) = false ∧ (∀ e ∈ t.calLeft a, e.1 ≠ hd) ∧
          t.getF Reg.CAL_CNT2 Fld.CAL_CNT2_REJECT = min 65535 (s.getF Reg.CAL_CNT2 Fld.CAL_CNT2_REJECT + 1))) ∧
    (2 * m.missing ≤ s.skewWedges a → 127 < m.radial.natAbs → s.headOut a.val hd = true →
      ∃ t, exec (.calWindowEnd a m) s = .next t ∧ skewValid (t.chan[a].skewOf hd z) = false ∧ (∀ e ∈ t.calLeft a, e.1 ≠ hd) ∧
        t.acu[a].calWin = none))

/-! ### The event recorder (chapter 22) -/

/-- R410 to R421. -/
def Obligations.RecorderRecords : Prop :=
  (∀ s : State, s.canonical = true →
    (s.loomRuns = false ∨ s.bitF Reg.ER_STAT Fld.ER_STAT_READY = true → exec .recorderScanDone s = .next s) ∧
    (s.loomRuns = true → s.bitF Reg.ER_STAT Fld.ER_STAT_READY = false →
      ((∀ x ∈ s.rcd.ring, ∀ r ∈ x.recs, r.clearsLog = false ∧ r.typ ≠ 0x0008) →
        ∃ t, exec .recorderScanDone s = .next t ∧ t.bitF Reg.ER_STAT Fld.ER_STAT_READY = true ∧ onlyRegs [Reg.ER_STAT] s t) ∧
      (∀ (x : RingSector) (r : Rec), s.rcd.ring = [x] → x.recs = [r] → r.typ = 0x0008 →
        ∃ t, exec .recorderScanDone s = .next t ∧ t.bitF Reg.ER_STAT Fld.ER_STAT_READY = true ∧
          t.rcd = { s.rcd with maxHda := signed 8 (fieldAt r.payload 2832 1), maxDie := signed 8 (fieldAt r.payload 2833 1),
                               clearGen := fieldAt r.payload 2836 4 }))) ∧
  (∀ s : State, s.mayProgram = false ∨ s.rcd.buf = [] → exec .recorderProgramDone s = .next s) ∧
  (∀ (r : Rec) (rest : List Rec) (s : State), s.canonical = true → s.mayProgram = true → s.rcd.buf = r :: rest →
    (s.rcd.ring = [] → s.rcd.erasing.contains 0 = false → r.clearsLog = false → ∃ t, exec .recorderProgramDone s = .next t ∧
      t.rcd = { s.rcd with buf := rest, ring := [⟨0, 0, r.seq, [r]⟩] } ∧ t.reg Reg.ER_SEQ = BitVec.ofNat 32 r.seq ∧
      t = { s with rcd := t.rcd, regs := t.regs } ∧ regsBut [Reg.ER_SEQ, Reg.ER_STAT] s t) ∧
    (∀ x : RingSector, s.rcd.ring = [x] → r.clearsLog = false → x.used + recLen r.payload.length ≤ 4096 →
      ∃ t, exec .recorderProgramDone s = .next t ∧ t.rcd = { s.rcd with buf := rest, ring := [{ x with recs := x.recs ++ [r] }] } ∧
        t.reg Reg.ER_SEQ = BitVec.ofNat 32 r.seq ∧ t = { s with rcd := t.rcd, regs := t.regs } ∧ regsBut [Reg.ER_SEQ, Reg.ER_STAT] s t) ∧
    (∀ x : RingSector, s.rcd.ring = [x] → x.pos < 2048 → r.clearsLog = false → 4096 < x.used + recLen r.payload.length →
      s.rcd.erasing.contains ((x.pos + 1) % 2048) = false → ∃ t, exec .recorderProgramDone s = .next t ∧
        t.rcd = { s.rcd with buf := rest, ring := [x, ⟨(x.pos + 1) % 2048, x.sseq + 1, r.seq, [r]⟩] } ∧
        t = { s with rcd := t.rcd, regs := t.regs } ∧ regsBut [Reg.ER_SEQ, Reg.ER_STAT] s t) ∧
    (∀ x : RingSector, s.rcd.ring = [x] → x.pos < 2048 → r.clearsLog = true → s.rcd.erasing = [] → ∃ t, exec .recorderProgramDone s = .next t ∧
      t.rcd = { s.rcd with buf := rest, ring := [⟨(x.pos + 1) % 2048, x.sseq + 1, r.seq, [r]⟩], erasing := [x.pos], clearing := some r.seq } ∧
      t.bitF Reg.ER_STAT Fld.ER_STAT_ERASING = true)) ∧
  (∀ (p : Nat) (rest : List Nat) (s : State), s.canonical = true → s.loomRuns = true → s.rcd.erasing = p :: rest →
    (s.rcd.clearing = none ∨ rest ≠ [] → exec .recorderEraseDone s = .next { s with rcd := { s.rcd with erasing := rest } }) ∧
    (s.rcd.clearing.isSome = true → rest = [] → s.rcd.accepting = true → s.rcd.lostNow = 0 → bufUsed s.rcd.buf ≤ 62000 →
      ∃ t l, exec .recorderEraseDone s = .next t ∧ t.bitF Reg.ER_STAT Fld.ER_STAT_ERASING = false ∧ t.rcd.erasing = [] ∧ t.rcd.clearing = none ∧
        t.rcd.buf = s.rcd.buf ++ [⟨0x0008, s.rcd.nextSeq, s.stamp, l⟩])) ∧
  (∀ (x : Snap) (rest : List Snap) (s : State), s.loomRuns = true → s.rcd.snaps = x :: rest →
    (s.rcd.running = none → exec .snapshotStart s = .next { s with rcd := { s.rcd with
      running := some { x with addrs := s.profileAddrs x.profile }, snaps := rest } }) ∧
    (s.rcd.running.isSome = true → exec .snapshotStart s = .next s)) ∧
  (∀ (x : Snap) (s : State), s.canonical = true → s.loomRuns = true → s.rcd.running = some x → s.rcd.accepting = true → s.rcd.lostNow = 0 →
    let l := withNreg x.rcd.payload x.addrs.length ++ x.addrs.flatMap s.snapEntry
    bufUsed s.rcd.buf + recLen l.length ≤ 65536 →
    ∃ t, exec .snapshotDone s = .next t ∧ t.rcd = { s.rcd with running := none, buf := s.rcd.buf ++ [⟨x.rcd.typ, s.rcd.nextSeq, x.rcd.time, l⟩],
                                                               nextSeq := s.rcd.nextSeq + 1 } ∧
      t = { s with rcd := t.rcd, regs := t.regs } ∧ regsBut [Reg.ER_STAT] s t) ∧
  (∀ s : State, s.rcd.running = none → exec .snapshotDone s = .next s) ∧
  (∀ s : State, s.canonical = true → s.loomRuns = true → s.rcd.accepting = true → s.rcd.lostNow = 0 → bufUsed s.rcd.buf ≤ 62000 →
    ∃ t l, exec .checkpointTimer s = .next t ∧ t.rcd = { s.rcd with buf := s.rcd.buf ++ [⟨0x0008, s.rcd.nextSeq, s.stamp, l⟩],
                                                                    nextSeq := s.rcd.nextSeq + 1 } ∧
      l.length = 2848 ∧ t = { s with rcd := t.rcd, regs := t.regs } ∧ regsBut [Reg.ER_STAT] s t) ∧
  (∀ s : State, s.canonical = true →
    (s.power.released = false ∨ s.power.mainHi = false → exec .recorderSecond s = .next s) ∧
    (s.power.released = true → s.power.mainHi = true →
      (s.rcd.secs < 3599 → ∃ t, exec .recorderSecond s = .next t ∧ t.rcd.secs = s.rcd.secs + 1 ∧ t.rcd.hours = s.rcd.hours ∧ t.rcd.buf = s.rcd.buf ∧
        t = { s with rcd := t.rcd, regs := t.regs } ∧
        (s.loomRuns = true → ∀ n, n < 16 → s.getF (bank n Reg.ER_HIST_CFG) Fld.ER_HIST_CFG_QTY = 10 →
          ∃ i, i < 32 ∧ t.getF (bank n (Reg.ER_HIST_BIN i)) Fld.ER_HIST_BIN_COUNT
            = min (2 ^ 32 - 1) (s.getF (bank n (Reg.ER_HIST_BIN i)) Fld.ER_HIST_BIN_COUNT + 1))) ∧
      (s.rcd.secs = 3599 → ∃ t, exec .recorderSecond s = .next t ∧ t.rcd.secs = 0 ∧ t.rcd.hours = (s.rcd.hours + 1) % 2 ^ 28))) ∧
  (∀ (n : Fin 4) (s : State), s.may n .keeper = false →
    exec (.erClearHist n) s = .next s ∧ exec (.erClearLog n) s = .next s ∧ exec (.erClearBoth n) s = .next s ∧
    ∀ b w, exec (.histConfigWrite n b w) s = .next s) ∧
  (∀ (n : Fin 4) (s : State), s.canonical = true → s.may n .keeper = true → s.rcd.accepting = true → s.rcd.lostNow = 0 → bufUsed s.rcd.buf ≤ 62000 →
    (∃ t, exec (.erClearHist n) s = .next t ∧ t.rcd.ring = s.rcd.ring ∧ t.rcd.clearGen = (s.rcd.clearGen + 1) % 2 ^ 32 ∧
      (∀ k i, k < 16 → i < 32 → t.reg (bank k (Reg.ER_HIST_BIN i)) = 0#32) ∧ (∀ k, k < 16 → t.reg (bank k Reg.ER_HIST_MIN) = 0x7FFFFFFF#32 ∧
        t.reg (bank k Reg.ER_HIST_MAX) = 0x80000000#32 ∧ t.reg (bank k Reg.ER_HIST_CFG) = s.reg (bank k Reg.ER_HIST_CFG))) ∧
    (∃ t r, exec (.erClearLog n) s = .next t ∧ t.rcd.buf = s.rcd.buf ++ [r] ∧ r.clearsLog = true ∧ r.seq = s.rcd.nextSeq ∧
      t = { s with rcd := t.rcd, regs := t.regs } ∧ regsBut [Reg.ER_STAT] s t) ∧
    (∃ t r, exec (.erClearBoth n) s = .next t ∧ t.rcd.buf = s.rcd.buf ++ [r] ∧ r.clearsLog = true ∧
      ∀ k i, k < 16 → i < 32 → t.reg (bank k (Reg.ER_HIST_BIN i)) = 0#32)) ∧
  (∀ (n : Fin 4) (s : State), s.canonical = true →
    (s.may n .operator = false → exec (.erReadGo n) s = .next s) ∧
    (s.may n .operator = true → ∃ t, exec (.erReadGo n) s = .next t ∧ t.bitF (bank n.val Reg.ER_RD_CTRL) Fld.ER_RD_CTRL_BUSY = true ∧
      onlyRegs [bank n.val Reg.ER_RD_CTRL] s t) ∧
    (s.loomRuns = true → s.bitF (bank n.val Reg.ER_RD_CTRL) Fld.ER_RD_CTRL_BUSY = true → ∃ t, exec (.erReadDone n) s = .next t ∧
      t.bitF (bank n.val Reg.ER_RD_CTRL) Fld.ER_RD_CTRL_BUSY = false ∧
      (∀ i, i < 16 → t.reg (bank n.val (Reg.ER_RD_DATA i)) = BitVec.ofNat 32 (wordOfBytes
        (s.regionBytes (s.getF (bank n.val Reg.ER_RD_ADDR) Fld.ER_RD_ADDR_OFFSET / 64 * 64) 64) i)) ∧
      onlyRegs (bank n.val Reg.ER_RD_CTRL :: (List.range 16).map (fun i => bank n.val (Reg.ER_RD_DATA i))) s t) ∧
    (s.bitF (bank n.val Reg.ER_RD_CTRL) Fld.ER_RD_CTRL_BUSY = false → exec (.erReadDone n) s = .next s)) ∧
  (∀ (n : Fin 4) (w : Word) (k : Nat) (s : State), s.canonical = true → s.may n .keeper = true → k = (s.reg (bank n.val Reg.ER_HIST_SEL)).toNat → k < 16 →
    (Fld.ER_HIST_CFG_QTY.get w < 11 → ∃ t, exec (.histConfigWrite n false w) s = .next t ∧ t.reg (bank k Reg.ER_HIST_CFG) = w &&& 0x1FFFF#32 ∧
      t.reg (bank k Reg.ER_HIST_BASE) = s.reg (bank k Reg.ER_HIST_BASE) ∧ (∀ i, i < 32 → t.reg (bank k (Reg.ER_HIST_BIN i)) = 0#32) ∧
      t = { s with regs := t.regs }) ∧
    (∃ t, exec (.histConfigWrite n true w) s = .next t ∧ t.reg (bank k Reg.ER_HIST_BASE) = w ∧
      t.reg (bank k Reg.ER_HIST_CFG) = s.reg (bank k Reg.ER_HIST_CFG) ∧ (∀ i, i < 32 → t.reg (bank k (Reg.ER_HIST_BIN i)) = 0#32) ∧
      t = { s with regs := t.regs }))
end

