-- ==== Sys2Proof/Laws/Codec.lean ====
section
/-! SUPPORT. Laws of the byte codes: little-endian numbers, and the CRC of a protected field. -/

namespace Sys2Proof.Machine

theorem leBytes_length (n x : Nat) : (leBytes n x).length = n := by
  induction n generalizing x with
  | zero => rfl
  | succ n ih => simp [leBytes, ih]

/-- A little-endian number read back from its bytes. -/
theorem leNat_leBytes (n x : Nat) : leNat (leBytes n x) = x % 256 ^ n := by
  induction n generalizing x with
  | zero => simp [leBytes, leNat, Nat.mod_one]
  | succ n ih =>
    simp only [leBytes, leNat, ih, BitVec.toNat_ofNat]
    rw [show (2 : Nat) ^ 8 = 256 from rfl, Nat.pow_succ', Nat.mod_mul]

/-- A field of 4,140 bytes followed by their CRC passes the check of R67. -/
theorem fieldCrcOk_append (h : List Byte) (e : h.length = 4140) : fieldCrcOk (h ++ leBytes 4 (crc32c h).toNat) = true := by
  unfold fieldCrcOk
  rw [List.take_left' e, List.drop_left' e, leNat_leBytes, Nat.mod_eq_of_lt (by have := (crc32c h).isLt; omega)]
  exact beq_self_eq_true _

/-- A header of 252 bytes followed by their CRC, with the right MAGIC, FORMAT, HDR_LEN and STEPPING, passes the header checks of R355. -/
theorem headerFault_append (f : ImageFile) (h : List Byte) (e : h.length = 252) (he : f.header = h ++ leBytes 4 (crc32c h).toNat)
    (h0 : f.field 0 4 = 0x52465943) (h1 : f.field 4 2 = 1) (h2 : f.field 6 2 = 0x0100) (h3 : f.field 13 1 = 0xB0) : f.headerFault = none := by
  have h4 : f.field 252 4 = (crc32c (f.header.take 252)).toNat := by
    unfold ImageFile.field
    rw [he, List.take_left' e, List.drop_left' e, List.take_of_length_le (by rw [leBytes_length]), leNat_leBytes,
      Nat.mod_eq_of_lt (by have := (crc32c h).isLt; omega)]
  simp [ImageFile.headerFault, h0, h1, h2, h3, h4]

/-- An image whose every check of R355 holds passes the check pass. -/
theorem checkImage_none (s : State) (f : ImageFile) (h1 : f.headerFault = none) (h2 : s.keyTrusted f = true) (h3 : f.sigOk = true)
    (h4 : badCrc f.recs 0 = none) (h5 : badOrder none f.recs 0 = none) (h6 : f.nrec = f.recs.length) (h7 : f.rangesOk = true)
    (h8 : firstFail [] f.recs 0 = none) : s.checkImage f = none := by
  simp [State.checkImage, h1, h2, h3, h4, h5, h6, h7, h8]

end Sys2Proof.Machine
end

