-- ==== Sys2Proof/Laws/Ldpc.lean ====
section
/-! SUPPORT. Laws of the LDPC code (R62 to R66): a codeword satisfies every check, and the decoder gives its field back from ratios that stand on its
bits' sides. -/

namespace Sys2Proof.Machine

/-- The sum of block columns. -/
def xorAll (l : List (BitVec 128)) : BitVec 128 := l.foldr (· ^^^ ·) 0#128

theorem xorAll_append (l m : List (BitVec 128)) : xorAll (l ++ m) = xorAll l ^^^ xorAll m := by
  induction l with
  | nil => simp [xorAll]
  | cons a l ih => simp only [xorAll, List.cons_append, List.foldr_cons] at *; rw [ih, BitVec.xor_assoc]

theorem rot_zero (v : BitVec 128) : v.rotateRight 0 = v := by
  ext i h; simp [BitVec.getElem_rotateRight, h]

/-- A check counts an even number of ones exactly where the rotated columns sum to zero. -/
theorem check_count (c : Nat → Bool) (col : Nat → BitVec 128) (hc : ∀ j y, y < 128 → c (128 * j + y) = (col j).getLsbD y)
    (x : Nat) (hx : x < 128) (bs : List (Nat × Nat)) (hb : ∀ b ∈ bs, b.2 < 128) :
    (bs.map (fun b => 128 * b.1 + (x + b.2) % 128)).countP c % 2 =
      if (xorAll (bs.map (fun b => (col b.1).rotateRight b.2))).getLsbD x then 1 else 0 := by
  induction bs with
  | nil => simp [xorAll]
  | cons b t ih =>
    have h2 := hb b (by simp)
    have ih := ih (fun b h => hb b (by simp [h]))
    have e : ((col b.1).rotateRight b.2).getLsbD x = c (128 * b.1 + (x + b.2) % 128) := by
      rw [hc _ _ (Nat.mod_lt _ (by omega)), BitVec.getLsbD_rotateRight]
      rw [Nat.mod_eq_of_lt h2]
      by_cases h : x < 128 - b.2
      · simp only [h, decide_true, cond_true]; congr 1; omega
      · simp only [h, hx, decide_true, decide_false, cond_false, Bool.true_and]; congr 1; omega
    have e2 : xorAll ((b :: t).map (fun b => (col b.1).rotateRight b.2)) = (col b.1).rotateRight b.2 ^^^ xorAll (t.map (fun b => (col b.1).rotateRight b.2)) := rfl
    rw [e2, BitVec.getLsbD_xor, e, List.map_cons, List.countP_cons]
    generalize (xorAll (t.map (fun b => (col b.1).rotateRight b.2))).getLsbD x = g at ih ⊢
    generalize (t.map (fun b => 128 * b.1 + (x + b.2) % 128)).countP c = k at ih ⊢
    cases c (128 * b.1 + (x + b.2) % 128) <;> cases g <;> simp at ih ⊢ <;> omega

/-- The information blocks of block row r, for the columns `l` from column j on. -/
def infoPart (r : Nat) : Nat → List (BitVec 128) → BitVec 128
  | _, [] => 0#128
  | j, u :: t => xorAll ((List.range 4).filterMap (fun m => if ldpcRow j m = r then some (u.rotateRight (ldpcExp j m)) else none)) ^^^ infoPart r (j + 1) t

theorem addCol_get (s : Vector (BitVec 128) 29) (j : Nat) (u : BitVec 128) (r : Nat) (hr : r < 29) :
    (addCol s j u)[r] = s[r] ^^^ xorAll ((List.range 4).filterMap (fun m => if ldpcRow j m = r then some (u.rotateRight (ldpcExp j m)) else none)) := by
  have step : ∀ (l : List Nat) (s : Vector (BitVec 128) 29), (l.foldl (fun s m => let r := ldpcRow j m
      if h : r < 29 then s.set r (s[r] ^^^ u.rotateRight (ldpcExp j m)) h else s) s)[r] =
      s[r] ^^^ xorAll (l.filterMap (fun m => if ldpcRow j m = r then some (u.rotateRight (ldpcExp j m)) else none)) := by
    intro l
    induction l with
    | nil => intro s; simp [xorAll]
    | cons m l ih =>
      intro s
      have h : ldpcRow j m < 29 := Nat.mod_lt _ (by omega)
      rw [List.foldl_cons, ih]
      simp only [h, dite_true, List.filterMap_cons]
      by_cases e : ldpcRow j m = r
      · simp only [e, if_true, Vector.getElem_set_self, xorAll, List.foldr_cons, BitVec.xor_assoc]
      · simp only [e, if_false]; rw [Vector.getElem_set_ne _ _ e]
  exact step _ s

theorem rowSums_get (l : List (BitVec 128)) (j : Nat) (s : Vector (BitVec 128) 29) (r : Nat) (hr : r < 29) :
    (rowSums j s l)[r] = s[r] ^^^ infoPart r j l := by
  induction l generalizing j s with
  | nil => simp [rowSums, infoPart]
  | cons u t ih => simp only [rowSums, infoPart]; rw [ih, addCol_get _ _ _ _ hr, BitVec.xor_assoc]

theorem accumulate_length (p : BitVec 128) (l : List (BitVec 128)) : (accumulate p l).length = l.length := by
  induction l generalizing p with
  | nil => rfl
  | cons a l ih => simp [accumulate, ih]

theorem accumulate_zero (p : BitVec 128) (l : List (BitVec 128)) (h : 0 < l.length) : (accumulate p l).getD 0 0#128 = l.getD 0 0#128 ^^^ p := by
  cases l with
  | nil => simp at h
  | cons a l => simp [accumulate]

theorem accumulate_succ (p : BitVec 128) (l : List (BitVec 128)) (t : Nat) (h : t + 1 < l.length) :
    (accumulate p l).getD (t + 1) 0#128 = l.getD (t + 1) 0#128 ^^^ (accumulate p l).getD t 0#128 := by
  induction l generalizing p t with
  | nil => simp at h
  | cons a l ih =>
    simp only [accumulate, List.getD_cons_succ]
    cases t with
    | zero => rw [accumulate_zero _ _ (by simpa using h)]; simp
    | succ t => rw [ih _ _ (by simpa using h)]; simp

/-- The 288 block columns of a field's codeword. -/
def codeCols (field : List Byte) : List (BitVec 128) := infoCols 259 field ++ parityCols field

theorem infoCols_length (n : Nat) (l : List Byte) : (infoCols n l).length = n := by
  induction n generalizing l with
  | zero => rfl
  | succ n ih => simp [infoCols, ih]

theorem infoPart_blocks (r : Nat) (f : Nat → BitVec 128) (l : List (BitVec 128)) (j : Nat) (h : ∀ i, i < l.length → f (j + i) = l.getD i 0#128) :
    infoPart r j l = xorAll (((List.range' j l.length).flatMap (fun j => (List.range 4).filterMap (fun m =>
      if ldpcRow j m = r then some (j, ldpcExp j m) else none))).map (fun b => (f b.1).rotateRight b.2)) := by
  induction l generalizing j with
  | nil => simp [infoPart, xorAll]
  | cons u t ih =>
    have hu : f j = u := by simpa using h 0 (by simp)
    rw [infoPart, ih (j + 1) (fun i hi => by simpa [Nat.add_assoc, Nat.add_comm 1] using h (i + 1) (by simpa using hi)), List.length_cons, List.range'_succ,
      List.flatMap_cons, List.map_append, xorAll_append]
    congr 2
    rw [List.map_filterMap]
    congr 1
    funext m
    by_cases e : ldpcRow j m = r <;> simp [e, hu]

theorem rowBlocks_zero (field : List Byte) (r : Nat) (hr : r < 29) :
    xorAll ((rowBlocks r).map (fun b => ((codeCols field).getD b.1 0#128).rotateRight b.2)) = 0#128 := by
  have hl := infoCols_length 259 field
  have hs : ∀ t, t < 29 → (rowSums 0 (Vector.replicate 29 0#128) (infoCols 259 field)).toList.getD t 0#128 = infoPart t 0 (infoCols 259 field) := by
    intro t ht
    have := rowSums_get (infoCols 259 field) 0 (Vector.replicate 29 0#128) t ht
    rw [List.getD_eq_getElem _ _ (by simpa using ht)]
    simpa using this
  have hp : ∀ t, (codeCols field).getD (259 + t) 0#128 = (parityCols field).getD t 0#128 := by
    intro t
    unfold codeCols
    rw [List.getD_append_right _ _ _ _ (by omega), hl, Nat.add_sub_cancel_left]
  unfold rowBlocks
  rw [List.map_append, List.map_append, xorAll_append, xorAll_append]
  have hi : xorAll (((List.range 259).flatMap (fun j => (List.range 4).filterMap (fun m => if ldpcRow j m = r then some (j, ldpcExp j m) else none))).map
      (fun b => ((codeCols field).getD b.1 0#128).rotateRight b.2)) = infoPart r 0 (infoCols 259 field) := by
    rw [infoPart_blocks r (fun j => (codeCols field).getD j 0#128) (infoCols 259 field) 0 (fun i h => ?_), hl, List.range_eq_range' (n := 259)]
    simp only [codeCols, Nat.zero_add]
    exact List.getD_append _ _ _ _ h
  rw [hi]
  have lpar : (rowSums 0 (Vector.replicate 29 0#128) (infoCols 259 field)).toList.length = 29 := by simp
  cases r with
  | zero =>
    have := accumulate_zero 0#128 _ (show 0 < (rowSums 0 (Vector.replicate 29 0#128) (infoCols 259 field)).toList.length by omega)
    rw [hs 0 (by omega)] at this
    have e := hp 0
    rw [parityCols, this, Nat.add_zero] at e
    simp only [if_true, List.map_cons, List.map_nil, xorAll, List.foldr_cons, List.foldr_nil, e, rot_zero, BitVec.xor_zero, BitVec.xor_self]
  | succ t =>
    have := accumulate_succ 0#128 _ t (show t + 1 < (rowSums 0 (Vector.replicate 29 0#128) (infoCols 259 field)).toList.length by omega)
    rw [hs (t + 1) hr] at this
    have e := hp (t + 1)
    have e' := hp t
    simp only [parityCols, this] at e
    simp only [Nat.add_one_ne_zero, if_false, List.map_cons, List.map_nil, xorAll, List.foldr_cons, List.foldr_nil]
    rw [show 258 + (t + 1) = 259 + t by omega, e, e']
    simp only [parityCols, rot_zero, BitVec.xor_zero]
    generalize (accumulate 0#128 _).getD t 0#128 = p
    generalize infoPart _ _ _ = q
    rw [BitVec.xor_comm q p, BitVec.xor_self]

/-- A value stands on its bit's side: below zero for a 1, above it for a 0. -/
def onSide (b : Bool) (q : Rat) : Prop := if b then q < 0 else 0 < q

theorem ratSign_side {b : Bool} {q : Rat} (h : onSide b q) : ratSign q = if b then -1 else 1 := by
  cases b <;> simp only [onSide, if_true, Bool.false_eq_true, if_false] at h <;> simp [ratSign, h, not_lt_of_gt h]

theorem minAbs_nonneg (l : List Rat) : 0 ≤ minAbs l := by
  have ha : ∀ q : Rat, 0 ≤ ratAbs q := by
    intro q; unfold ratAbs; split <;> linarith
  match l with
  | [] => exact le_refl _
  | [x] => exact ha x
  | x :: y :: t => unfold minAbs; split; exacts [ha x, minAbs_nonneg _]

theorem prod_signs (bits : List Nat) (c : Nat → Bool) (l : Nat → Rat) (h : ∀ v ∈ bits, onSide (c v) (l v)) :
    ((bits.map l).map ratSign).prod = if bits.countP c % 2 = 0 then 1 else -1 := by
  induction bits with
  | nil => simp
  | cons v t ih =>
    simp only [List.map_cons, List.prod_cons, ih (fun w hw => h w (by simp [hw])), ratSign_side (h v (by simp)), List.countP_cons]
    generalize t.countP c = k
    cases c v
    · simp
    · rcases Nat.mod_two_eq_zero_or_one k with e | e
      · simp [e]; omega
      · simp [e]; omega

/-- A satisfied check drives each of its bits to the side it is on. -/
theorem checkMsg_side (q : List Rat) (hq : (q.map ratSign).prod = 1) (i : Nat) (hi : i < q.length) (b : Bool) (h : onSide b q[i]) :
    onSide b (q[i] + checkMsg (q.eraseIdx i)) := by
  have hm := minAbs_nonneg (q.eraseIdx i)
  have hp : ratSign q[i] * ((q.eraseIdx i).map ratSign).prod = 1 := by
    have := List.CommMonoid.mul_prod_eraseIdx (l := q.map ratSign) (by simpa using hi)
    rw [← hq, ← this, List.getElem_map, List.eraseIdx_map]
  unfold checkMsg
  cases b <;> simp only [onSide, if_true, Bool.false_eq_true, if_false] at h ⊢
  · have : ((q.eraseIdx i).map ratSign).prod = 1 := by simpa [ratSign, not_lt_of_gt h] using hp
    rw [this]; linarith
  · have : ((q.eraseIdx i).map ratSign).prod = -1 := by
      have : (-1 : Rat) * ((q.eraseIdx i).map ratSign).prod = 1 := by simpa [ratSign, h] using hp
      linarith
    rw [this]; linarith

/-- Every value of the codeword stands on its bit's side. -/
def allSides (c : Nat → Bool) (n : Nat) (l : Array Rat) : Prop := l.size = n ∧ ∀ i, i < n → onSide (c i) (l.getD i 0)

theorem set_sides (c : Nat → Bool) (n : Nat) (p : List (Nat × Rat)) (l : Array Rat) (hl : allSides c n l) (hp : ∀ e ∈ p, onSide (c e.1) e.2) :
    allSides c n (p.foldl (fun l e => l.setIfInBounds e.1 e.2) l) := by
  induction p generalizing l with
  | nil => exact hl
  | cons e p ih =>
    refine ih _ ⟨by simpa using hl.1, fun i hi => ?_⟩ (fun e he => hp e (by simp [he]))
    by_cases h : e.1 = i
    · subst h
      have : e.1 < l.size := by rw [hl.1]; exact hi
      simpa [Array.getD_eq_getD_getElem?, this] using hp e (by simp)
    · have := hl.2 i hi
      simpa [Array.getD_eq_getD_getElem?, Array.getElem?_setIfInBounds_ne h] using this

theorem checkStep_sides (c : Nat → Bool) (n : Nat) (bits : List Nat) (l : Array Rat) (hl : allSides c n l) (hb : ∀ v ∈ bits, v < n)
    (he : bits.countP c % 2 = 0) : allSides c n (checkStep bits (List.replicate bits.length 0) l).2 := by
  have hq : List.zipWith (fun v m => l.getD v 0 - m) bits (List.replicate bits.length 0) = bits.map (fun v => l.getD v 0) := by
    apply List.ext_getElem <;> simp
  simp only [checkStep, hq]
  apply set_sides c n _ _ hl
  intro e hm
  obtain ⟨i, hi, rfl⟩ := List.mem_iff_getElem.mp hm
  have h1 : i < bits.length := by simp at hi; omega
  simp only [checkMsgs, List.getElem_zip, List.getElem_zipWith, List.getElem_map, List.getElem_range]
  have := checkMsg_side (bits.map (fun v => l.getD v 0)) (by rw [prod_signs bits c _ (fun v hv => hl.2 v (hb v hv)), if_pos he]) i (by simpa using h1)
    (c bits[i]) (by simpa using hl.2 _ (hb _ (List.getElem_mem h1)))
  simpa using this

theorem ldpcIter_sides (c : Nat → Bool) (n : Nat) (bs : List (List Nat)) (l : Array Rat) (hl : allSides c n l)
    (hb : ∀ b ∈ bs, (∀ v ∈ b, v < n) ∧ b.countP c % 2 = 0) :
    allSides c n (ldpcIter (bs.map (fun b => (b, List.replicate b.length 0))) l).2 := by
  induction bs generalizing l with
  | nil => exact hl
  | cons b t ih =>
    have h := hb b (by simp)
    exact ih _ (checkStep_sides c n b l hl h.1 h.2) (fun b hb' => hb b (by simp [hb']))

theorem hardBit_side {b : Bool} {q : Rat} (h : onSide b q) : hardBit q = b := by
  cases b <;> simp only [onSide, if_true, Bool.false_eq_true, if_false] at h <;> simp [hardBit, h, le_of_lt h]

/-- Values that all stand on the sides of a word which satisfies every check decode to it in one iteration (R66). -/
theorem ldpcDecode_sides (c : Nat → Bool) (n limit : Nat) (llr : List Rat) (hn : 33152 ≤ n) (h0 : 0 < limit) (hl : allSides c n llr.toArray)
    (hb : ∀ b ∈ allChecks, (∀ v ∈ b, v < n) ∧ b.countP c % 2 = 0) :
    ldpcDecode limit llr = ⟨true, 1, bytesOfBits 4144 ((List.range 33152).map c)⟩ := by
  obtain ⟨k, rfl⟩ : ∃ k, limit = k + 1 := ⟨limit - 1, by omega⟩
  have hs := ldpcIter_sides c n allChecks llr.toArray hl hb
  have hc : checksSatisfied (ldpcIter (allChecks.map (fun b => (b, List.replicate b.length 0))) llr.toArray).2 = true := by
    refine List.all_eq_true.mpr (fun b hm => ?_)
    have e : b.countP (fun v => hardBit ((ldpcIter (allChecks.map (fun b => (b, List.replicate b.length 0))) llr.toArray).2.getD v 0)) = b.countP c :=
      List.countP_congr (fun v hv => by rw [hardBit_side (hs.2 v ((hb b hm).1 v hv))])
    rw [e]; simpa using (hb b hm).2
  have e : (List.range 33152).map (fun i => hardBit ((ldpcIter (allChecks.map (fun b => (b, List.replicate b.length 0))) llr.toArray).2.getD i 0)) =
      (List.range 33152).map c := List.map_congr_left (fun i hi => hardBit_side (hs.2 i (by have := List.mem_range.mp hi; omega)))
  simp only [ldpcDecode, ldpcLoop, hc, if_true, decodeResult, Nat.zero_add]
  rw [e]

/-- The bits of a field's codeword, column by column (R62, R65). -/
def codeBit (field : List Byte) (i : Nat) : Bool := ((codeCols field).getD (i / 128) 0#128).getLsbD (i % 128)

theorem ldpcExp_lt (j m : Nat) : ldpcExp j m < 128 := Nat.mod_lt _ (by omega)

theorem rowBlocks_bounds (r : Nat) (hr : r < 29) (b : Nat × Nat) (h : b ∈ rowBlocks r) : b.1 < 288 ∧ b.2 < 128 := by
  unfold rowBlocks at h
  rcases List.mem_append.mp h with h | h
  · rcases List.mem_append.mp h with h | h
    · obtain ⟨j, hj, h⟩ := List.mem_flatMap.mp h
      obtain ⟨m, _, h⟩ := List.mem_filterMap.mp h
      have := List.mem_range.mp hj
      split at h
      · cases h; exact ⟨by simp; omega, ldpcExp_lt _ _⟩
      · cases h
    · split at h
      · cases h
      · cases List.mem_singleton.mp h; exact ⟨by simp; omega, by simp⟩
  · cases List.mem_singleton.mp h; exact ⟨by simp; omega, by simp⟩

/-- A codeword satisfies every check. -/
theorem codeBit_checks (field : List Byte) (b : List Nat) (h : b ∈ allChecks) : (∀ v ∈ b, v < 36864) ∧ b.countP (codeBit field) % 2 = 0 := by
  obtain ⟨r, hr, h⟩ := List.mem_flatMap.mp h
  obtain ⟨x, hx, rfl⟩ := List.mem_map.mp h
  have hr := List.mem_range.mp hr
  have hx := List.mem_range.mp hx
  constructor
  · intro v hv
    obtain ⟨e, he, rfl⟩ := List.mem_map.mp hv
    have := (rowBlocks_bounds r hr e he).1
    omega
  · unfold parityBits
    rw [check_count (codeBit field) (fun j => (codeCols field).getD j 0#128) (fun j y hy => ?_) x hx _ (fun e he => (rowBlocks_bounds r hr e he).2),
      rowBlocks_zero field r hr]
    · simp
    · unfold codeBit; rw [Nat.mul_add_div (by omega), Nat.div_eq_of_lt hy, Nat.mul_add_mod, Nat.mod_eq_of_lt hy, Nat.add_zero]

theorem colBits_get (l : List Byte) (y : Nat) (hy : y < 128) : (colBits l).getLsbD y = streamBit l y := by
  have step : ∀ (n : Nat), (((List.range n).foldl (fun (v : BitVec 128) y => if streamBit l y then v ||| (1#128 <<< y) else v) 0#128).getLsbD y) =
      (decide (y < n) && streamBit l y) := by
    intro n
    induction n with
    | zero => simp
    | succ n ih =>
      rw [List.range_succ, List.foldl_append, List.foldl_cons, List.foldl_nil]
      by_cases e : y = n
      · subst e
        simp only [Nat.lt_irrefl, decide_false, Bool.false_and] at ih
        rw [show decide (y < y + 1) = true by simp, Bool.true_and]
        cases streamBit l y
        · simpa using ih
        · simp [hy]
      · have : (decide (y < n + 1)) = decide (y < n) := by simp; omega
        rw [this, ← ih]
        split
        · simp [BitVec.getLsbD_shiftLeft]; intro _ _; omega
        · rfl
  rw [colBits, step, decide_eq_true hy, Bool.true_and]

theorem infoCols_get (n : Nat) (l : List Byte) (j : Nat) (hj : j < n) : (infoCols n l).getD j 0#128 = colBits ((l.drop (16 * j)).take 16) := by
  induction n generalizing l j with
  | zero => omega
  | succ n ih =>
    cases j with
    | zero => simp [infoCols]
    | succ j =>
      rw [infoCols, List.getD_cons_succ, ih _ _ (by omega), List.drop_drop]; congr 3; omega

/-- The first 33,152 bits of a codeword are the field's, in recording order. -/
theorem codeBit_info (field : List Byte) (i : Nat) (hi : i < 33152) : codeBit field i = streamBit field i := by
  unfold codeBit codeCols
  rw [List.getD_append _ _ _ _ (by rw [infoCols_length]; omega), infoCols_get _ _ _ (by omega), colBits_get _ _ (Nat.mod_lt _ (by omega))]
  unfold streamBit
  rw [show i % 128 / 8 = i / 8 % 16 by omega, show i % 128 % 8 = i % 8 by omega]
  congr 1
  rw [List.getD_eq_getElem?_getD, List.getD_eq_getElem?_getD, List.getElem?_take, if_pos (Nat.mod_lt _ (by omega)), List.getElem?_drop]
  congr 2; omega

theorem byte_of_bits (b : Byte) : (List.range 8).foldl (fun (x : Byte) k => if b.getLsbD (7 - k) then x ||| (1#8 <<< (7 - k)) else x) 0#8 = b := by
  revert b; decide

theorem bytesOfBits_stream (n : Nat) (f : List Byte) (h : f.length = n) : bytesOfBits n ((List.range (8 * n)).map (streamBit f)) = f := by
  induction n generalizing f with
  | zero => simp [bytesOfBits, List.length_eq_zero_iff.mp h]
  | succ n ih =>
    obtain ⟨b, t, rfl⟩ : ∃ b t, f = b :: t := by cases f with | nil => simp at h | cons b t => exact ⟨b, t, rfl⟩
    rw [bytesOfBits]
    congr 1
    · conv_rhs => rw [← byte_of_bits b]
      apply List.foldl_ext
      intro x k hk
      have hk := List.mem_range.mp hk
      have : ((List.range (8 * (n + 1))).map (streamBit (b :: t))).getD k false = b.getLsbD (7 - k) := by
        rw [List.getD_eq_getElem _ _ (by simp; omega)]
        simp [streamBit, Nat.div_eq_of_lt hk, Nat.mod_eq_of_lt hk]
      rw [this]
    · refine Eq.trans ?_ (ih t (by simpa using h))
      congr 1
      apply List.ext_getElem (by simp; omega)
      intro i h1 h2
      simp [streamBit, show (8 + i) / 8 = i / 8 + 1 by omega, show (8 + i) % 8 = i % 8 by omega]

/-- Ratios that stand on the sides of a field's codeword decode to the field in one iteration (R62 to R66). -/
theorem ldpcDecode_codeword (field : List Byte) (limit : Nat) (llr : List Rat) (hf : field.length = 4144) (h0 : 0 < limit)
    (hl : allSides (codeBit field) 36864 llr.toArray) : ldpcDecode limit llr = ⟨true, 1, field⟩ := by
  have e : (List.range 33152).map (codeBit field) = (List.range (8 * 4144)).map (streamBit field) :=
    List.map_congr_left (fun i hi => codeBit_info field i (List.mem_range.mp hi))
  rw [ldpcDecode_sides (codeBit field) 36864 limit llr (by omega) h0 hl (codeBit_checks field), e, bytesOfBits_stream 4144 field hf]

/-- The detector's ratios of a sector whose codeword is the field's: as sure as they can be, from sector bit 0 on. -/
def sureLlrs (field : List Byte) : List Int := List.replicate 112 0 ++ (List.range 36864).map (fun i => if codeBit field i then -15 else 15)

theorem cutAt_sure (field : List Byte) (scale : Rat) (hs : 0 < scale) : allSides (codeBit field) 36864 (cutAt 0 scale (sureLlrs field)).toArray := by
  have e : cutAt 0 scale (sureLlrs field) = (List.range 36864).map (fun i => scale * (if codeBit field i then -15 else 15)) := by
    unfold cutAt sureLlrs
    rw [show (112 + (0 : Int)).toNat = 112 from rfl, List.drop_left' List.length_replicate, List.take_of_length_le (by simp), List.map_map]
    apply List.map_congr_left
    intro i _
    simp only [Function.comp_apply]
    cases codeBit field i
    · simp only [Bool.false_eq_true, if_false]; norm_num [llrSat]
    · simp only [if_true]; norm_num [llrSat]
  rw [e]
  refine ⟨by simp, fun i hi => ?_⟩
  simp only [Array.getD_eq_getD_getElem?, List.getElem?_toArray, List.getElem?_map, List.getElem?_range hi, Option.map_some, Option.getD_some]
  cases codeBit field i <;> simp [onSide] <;> linarith
end Sys2Proof.Machine
end

