-- ==== Sys2Proof/Laws/Microcode.lean ====
section
/-! SUPPORT. Laws of the SECDED code of the microcode stores: a word stored with its own check bits reads clean. -/

namespace Sys2Proof.Machine

theorem foldl_xor_lt {α : Type} (n : Nat) (f : α → Bool) (v : α → Nat) (l : List α) (k : Nat) (hk : k < 2 ^ n) (h : ∀ e ∈ l, v e < 2 ^ n) :
    l.foldl (fun a e => if f e then a ^^^ v e else a) k < 2 ^ n := by
  induction l generalizing k with
  | nil => exact hk
  | cons e l ih =>
    simp only [List.foldl_cons]
    refine ih _ ?_ (fun x hx => h x (List.mem_cons_of_mem _ hx))
    split
    · exact Nat.xor_lt_two_pow hk (h e List.mem_cons_self)
    · exact hk

theorem hamPlaces_lt (pick : Bool) : ∀ e ∈ (hamPlaces.take (wordBits pick)).zipIdx, e.1 < 2 ^ (if pick then 7 else 8) := by
  have h : (((hamPlaces.take (wordBits pick)).zipIdx).all (fun e => decide (e.1 < 2 ^ (if pick then 7 else 8)))) = true := by
    revert pick; decide +kernel
  simpa using h

theorem hamSum_lt (pick : Bool) (w : BitVec 128) : hamSum pick w < 2 ^ (if pick then 7 else 8) :=
  foldl_xor_lt _ (fun e : Nat × Nat => w.getLsbD e.2) Prod.fst _ 0 (Nat.two_pow_pos _) (hamPlaces_lt pick)

/-- A word stored with its own check bits reads clean (R149). -/
theorem secdedRead_clean (pick : Bool) (w : BitVec 128) : secdedRead pick w (secdedCheck pick w) = .clean w := by
  have h := hamSum_lt pick w
  generalize he : hamSum pick w = x at h
  cases pick <;> simp only [if_true, if_false, Bool.false_eq_true] at h <;>
    simp only [secdedRead, secdedCheck, he, if_true, if_false, Bool.false_eq_true, BitVec.toNat_ofNat, BitVec.getLsbD_ofNat] <;>
    rcases hp : (oddOnes w.toNat ^^ oddOnes x) with _ | _ <;>
    simp only [b2n, if_true, if_false, Bool.false_eq_true, Nat.mul_zero, Nat.mul_one, Nat.add_zero] <;>
    first
    | (rw [show x % 2 ^ 9 % 256 = x by omega]
       simp [hp, Nat.testBit_lt_two_pow (show x < 2 ^ 8 by omega)])
    | (rw [show (x + 256) % 2 ^ 9 % 256 = x by omega, Nat.testBit_eq_decide_div_mod_eq]
       simp [hp]; omega)
    | (rw [show x % 2 ^ 9 % 128 = x by omega]
       simp [hp, Nat.testBit_lt_two_pow (show x < 2 ^ 7 by omega)])
    | (rw [show (x + 128) % 2 ^ 9 % 128 = x by omega, Nat.testBit_eq_decide_div_mod_eq]
       simp [hp]; omega)

/-- A bank as the loader has written it reads as the record's words (R159). -/
theorem bankOf_read (pick : Bool) (j : JqRec) (i : Nat) : (bankOf pick j).read pick i .clean = j.words[i]?.map WordRead.clean := by
  simp only [Prog.read, bankOf, List.getElem?_map]
  cases j.words[i]? with
  | none => rfl
  | some w => simp [FetchErr.clean, codeAsRead, secdedRead_clean]

theorem bankOf_reads (pick : Bool) (j : JqRec) :
    (List.range (bankOf pick j).words.length).map (fun i => (bankOf pick j).read pick i ((aget [] i).getD .clean)) = j.words.map (fun w => some (.clean w)) := by
  apply List.ext_getElem
  · simp [bankOf]
  · intro i h _
    simp only [bankOf, List.length_map, List.length_range] at h
    simp only [List.getElem_map, List.getElem_range, aget, Option.getD_none, bankOf_read, List.getElem?_eq_getElem h, Option.map_some]

/-- A record whose DIGEST is that of its words passes its read-back when no bit reads wrong (R159). -/
theorem bankPasses_bankOf (q : Fin 64) (pick : Bool) (j : JqRec) (h : j.digest = sha384 (mcodeBytes pick j.words)) :
    bankPasses [] q pick (bankOf pick j) = true := by
  simp only [bankPasses, Prog.verifies, List.find?_nil, Option.getD_none, Bool.or_self, bankOf_reads]
  simp [List.map_map, Function.comp_def, bankOf, h]
/-- A word of a shadow read without an error of its block: the word at its place, where the block fits its stored CRC-32C (R162). -/
theorem State.shadowWord_clean (s : State) (slot : Bool) (q : Fin 64) (pick : Bool) (i : Nat) {b : List Byte}
    (hb : s.hbmRead (shadowAddr slot q (i / 64)) (64 * wordSize pick) = b) :
    s.shadowWord slot q pick i .clean =
      if leNat (s.hbmRead (shadowCrcAddr slot q (i / 64)) 4) = (crc32c b).toNat then
        some (BitVec.ofNat 128 (leNat ((b.drop (wordSize pick * (i % 64))).take (wordSize pick))))
      else none := by subst hb; rfl

end Sys2Proof.Machine
end

