-- ==== Sys2Proof/Laws/Sparse.lean ====
section
/-! SUPPORT. Laws of the sparse tables (a read after a write, the canonical form) and of the bit fields of a register. -/

namespace Sys2Proof.Machine

section Table
variable {α : Type} [DecidableEq α] {d : α}

/-- A write leaves every other key alone. -/
theorem sget_sset_ne (m : List (Nat × α)) (v : α) {j k : Nat} (h : j ≠ k) : sget d (sset d m k v) j = sget d m j := by
  induction m with
  | nil => simp only [sset]; split <;> simp [sget, Ne.symm h]
  | cons e t ih =>
    obtain ⟨k', v'⟩ := e
    simp only [sset]
    split
    · split <;> simp [sget, Ne.symm h]
    · split
      · rename_i hk; subst hk
        split <;> simp [sget, Ne.symm h]
      · simp only [sget, ih]

/-- A table whose keys start at `b` reads the default below `b`. -/
theorem sget_below {m : List (Nat × α)} {b k : Nat} (h : swfAbove d b m = true) (hk : k < b) : sget d m k = d := by
  induction m generalizing b with
  | nil => rfl
  | cons e t ih =>
    obtain ⟨k', v'⟩ := e
    simp only [swfAbove, Bool.and_eq_true, decide_eq_true_eq] at h
    have : k' ≠ k := by omega
    simp only [sget, this, if_false]
    exact ih h.2 (by omega)

theorem sget_sset_same_above {m : List (Nat × α)} {b : Nat} (h : swfAbove d b m = true) (k : Nat) (v : α) :
    sget d (sset d m k v) k = v := by
  induction m generalizing b with
  | nil => simp only [sset]; split <;> simp_all [sget]
  | cons e t ih =>
    obtain ⟨k', v'⟩ := e
    simp only [swfAbove, Bool.and_eq_true, decide_eq_true_eq] at h
    simp only [sset]
    split
    · split
      · rename_i hk hv
        have : k' ≠ k := by omega
        simp only [sget, this, if_false, hv]
        exact sget_below h.2 (by omega)
      · simp [sget]
    · split
      · rename_i hk; subst hk
        split
        · rename_i hv; rw [hv]; exact sget_below h.2 (by omega)
        · simp [sget]
      · rename_i hk
        have : k' ≠ k := fun e => hk e.symm
        simp only [sget, this, if_false]
        exact ih h.2

/-- A read after a write to the same key gives the value written. -/
theorem sget_sset_same {m : List (Nat × α)} (h : swf d m = true) (k : Nat) (v : α) : sget d (sset d m k v) k = v :=
  sget_sset_same_above h k v

theorem swfAbove_mono {m : List (Nat × α)} {b c : Nat} (h : swfAbove d c m = true) (hb : b ≤ c) : swfAbove d b m = true := by
  cases m with
  | nil => rfl
  | cons e t =>
    simp only [swfAbove, Bool.and_eq_true, decide_eq_true_eq] at h ⊢
    exact ⟨⟨by omega, h.1.2⟩, h.2⟩

theorem swfAbove_sset {m : List (Nat × α)} {b : Nat} (h : swfAbove d b m = true) (k : Nat) (v : α) (hk : b ≤ k) :
    swfAbove d b (sset d m k v) = true := by
  induction m generalizing b with
  | nil => simp only [sset]; split <;> simp_all [swfAbove]
  | cons e t ih =>
    obtain ⟨k', v'⟩ := e
    have h0 := h
    simp only [swfAbove, Bool.and_eq_true, decide_eq_true_eq] at h
    simp only [sset]
    split
    · split
      · exact h0
      · rename_i hlt hv
        simp only [swfAbove, Bool.and_eq_true, decide_eq_true_eq]
        exact ⟨⟨hk, hv⟩, ⟨by omega, h.1.2⟩, h.2⟩
    · split
      · split
        · exact swfAbove_mono h.2 (by omega)
        · rename_i heq hv
          simp only [swfAbove, Bool.and_eq_true, decide_eq_true_eq]
          exact ⟨⟨hk, hv⟩, by rw [heq]; exact h.2⟩
      · simp only [swfAbove, Bool.and_eq_true, decide_eq_true_eq]
        exact ⟨h.1, ih h.2 (by omega)⟩

/-- A write keeps the canonical form. -/
theorem swf_sset {m : List (Nat × α)} (h : swf d m = true) (k : Nat) (v : α) : swf d (sset d m k v) = true :=
  swfAbove_sset h k v (Nat.zero_le _)

theorem swfAbove_filter {m : List (Nat × α)} {b : Nat} (h : swfAbove d b m = true) (p : Nat × α → Bool) :
    swfAbove d b (m.filter p) = true := by
  induction m generalizing b with
  | nil => rfl
  | cons e t ih =>
    obtain ⟨k', v'⟩ := e
    simp only [swfAbove, Bool.and_eq_true, decide_eq_true_eq] at h
    simp only [List.filter_cons]
    split
    · simp only [swfAbove, Bool.and_eq_true, decide_eq_true_eq]
      exact ⟨h.1, ih h.2⟩
    · exact swfAbove_mono (ih h.2) (by omega)

/-- Dropping entries keeps the canonical form. -/
theorem swf_sdrop {m : List (Nat × α)} (h : swf d m = true) (p : Nat → Bool) : swf d (sdrop p m) = true :=
  swfAbove_filter h _

omit [DecidableEq α] in
/-- A table of which entries were dropped reads the default at the dropped keys, and as before at the others. -/
theorem sget_sdrop (m : List (Nat × α)) (p : Nat → Bool) (k : Nat) :
    sget d (sdrop p m) k = if p k then d else sget d m k := by
  induction m with
  | nil => simp [sdrop, sget]
  | cons e t ih =>
    obtain ⟨k', v'⟩ := e
    simp only [sdrop] at ih
    simp only [sdrop, List.filter_cons]
    by_cases hk : k' = k
    · subst hk
      by_cases hp : p k' <;> simp_all [sget]
    · by_cases hp : p k' <;> simp_all [sget]

theorem swf_foldl_sset {β : Type} (l : List β) (k : β → Nat) (v : β → α) {m : List (Nat × α)} (h : swf d m = true) :
    swf d (l.foldl (fun m e => sset d m (k e) (v e)) m) = true := by
  induction l generalizing m with
  | nil => exact h
  | cons e t ih => exact ih (swf_sset h _ _)

end Table

/-! ### Bit fields -/

theorem field_split (w P N : Nat) : w = P * (N * (w / P / N) + w / P % N) + w % P := by
  have h1 := Nat.div_add_mod w P
  have h2 := Nat.div_add_mod (w / P) N
  rw [h2]; omega

/-- A field's value fits the field. -/
theorem Fld.get_lt (f : Fld) (w : Word) : f.get w < 2 ^ (f.hi + 1 - f.lo) := Nat.mod_lt _ (Nat.two_pow_pos _)

theorem Fld.set_toNat (f : Fld) (w : Word) (v : Nat) (h1 : f.lo ≤ f.hi) (h2 : f.hi < 32) :
    (f.set w v).toNat = 2 ^ f.lo * (2 ^ (f.hi + 1 - f.lo) * (w.toNat / 2 ^ f.lo / 2 ^ (f.hi + 1 - f.lo)) + v % 2 ^ (f.hi + 1 - f.lo))
      + w.toNat % 2 ^ f.lo := by
  have hw := w.isLt
  have e : (2 : Nat) ^ 32 = 2 ^ f.lo * (2 ^ (f.hi + 1 - f.lo) * 2 ^ (31 - f.hi)) := by
    rw [← Nat.pow_add, ← Nat.pow_add]; congr 1; omega
  simp only [Fld.set, Fld.get, BitVec.toNat_ofNat]
  generalize hx : w.toNat = x at *
  generalize hP : 2 ^ f.lo = P at *
  generalize hN : 2 ^ (f.hi + 1 - f.lo) = N at *
  have pP : 0 < P := hP ▸ Nat.two_pow_pos _
  have pN : 0 < N := hN ▸ Nat.two_pow_pos _
  generalize hQ : 2 ^ (31 - f.hi) = Q at *
  have hs := field_split x P N
  have hr : x / P % N < N := Nat.mod_lt _ pN
  have hv : v % N < N := Nat.mod_lt _ pN
  have ha : x % P < P := Nat.mod_lt _ pP
  generalize x / P / N = q at *
  generalize x / P % N = r at *
  generalize x % P = a at *
  generalize v % N = u at *
  have hq : q < Q := by
    refine Nat.lt_of_not_le (fun hc => ?_)
    have : P * (N * Q) ≤ P * (N * q) := Nat.mul_le_mul_left _ (Nat.mul_le_mul_left _ hc)
    have h3 : P * (N * q + r) = P * (N * q) + P * r := Nat.mul_add _ _ _
    omega
  have e1 : x - r * P + u * P = P * (N * q + u) + a := by
    have h3 : P * (N * q + r) = P * (N * q) + P * r := Nat.mul_add _ _ _
    have h4 : P * (N * q + u) = P * (N * q) + P * u := Nat.mul_add _ _ _
    have h5 : r * P = P * r := Nat.mul_comm _ _
    have h6 : u * P = P * u := Nat.mul_comm _ _
    omega
  rw [e1]
  apply Nat.mod_eq_of_lt
  have h7 : N * q + u + 1 ≤ N * Q := by
    have : N * (q + 1) ≤ N * Q := Nat.mul_le_mul_left _ hq
    rw [Nat.mul_add] at this; omega
  have h8 : P * (N * q + u + 1) ≤ P * (N * Q) := Nat.mul_le_mul_left _ h7
  rw [Nat.mul_add] at h8
  omega

/-- A field read after it is set gives the value, modulo the field's width. -/
theorem Fld.get_set (f : Fld) (w : Word) (v : Nat) (h1 : f.lo ≤ f.hi) (h2 : f.hi < 32) :
    f.get (f.set w v) = v % 2 ^ (f.hi + 1 - f.lo) := by
  have h := Fld.set_toNat f w v h1 h2
  simp only [Fld.get, h]
  have pP : 0 < 2 ^ f.lo := Nat.two_pow_pos _
  rw [Nat.mul_add_div pP, Nat.div_eq_of_lt (Nat.mod_lt _ pP), Nat.add_zero, Nat.mul_add_mod, Nat.mod_mod]

/-- Setting a field leaves the bits outside it as they were. -/
theorem Fld.set_testBit (f : Fld) (w : Word) (v i : Nat) (h1 : f.lo ≤ f.hi) (h2 : f.hi < 32) (hi : i < f.lo ∨ f.hi < i) :
    (f.set w v).toNat.testBit i = w.toNat.testBit i := by
  have pos : ∀ n, 0 < 2 ^ n := Nat.two_pow_pos
  have shape : ∀ q u a, u < 2 ^ (f.hi + 1 - f.lo) → a < 2 ^ f.lo →
      (2 ^ f.lo * (2 ^ (f.hi + 1 - f.lo) * q + u) + a).testBit i
        = if i < f.lo then a.testBit i else q.testBit (i - f.lo - (f.hi + 1 - f.lo)) := by
    intro q u a hu ha
    rw [Nat.testBit_two_pow_mul_add _ ha]
    rcases hi with hi | hi
    · simp [hi]
    · have h3 : ¬ i < f.lo := by omega
      have h4 : ¬ i - f.lo < f.hi + 1 - f.lo := by omega
      rw [if_neg h3, if_neg h3, Nat.testBit_two_pow_mul_add _ hu, if_neg h4]
  have e := congrArg (fun y => Nat.testBit y i) (field_split w.toNat (2 ^ f.lo) (2 ^ (f.hi + 1 - f.lo)))
  rw [e, Fld.set_toNat f w v h1 h2, shape _ _ _ (Nat.mod_lt _ (pos _)) (Nat.mod_lt _ (pos _)),
    shape _ _ _ (Nat.mod_lt _ (pos _)) (Nat.mod_lt _ (pos _))]

/-- Setting one field leaves another, disjoint field as it was. -/
theorem Fld.get_set_ne (f g : Fld) (w : Word) (v : Nat) (h1 : f.lo ≤ f.hi) (h2 : f.hi < 32) (hd : g.hi < f.lo ∨ f.hi < g.lo) :
    g.get (f.set w v) = g.get w := by
  apply Nat.eq_of_testBit_eq
  intro i
  simp only [Fld.get, Nat.testBit_mod_two_pow, Nat.testBit_div_two_pow]
  by_cases hi : i < g.hi + 1 - g.lo
  · simp only [hi, decide_true, Bool.true_and]
    exact Fld.set_testBit f w v _ h1 h2 (by omega)
  · simp [hi]

end Sys2Proof.Machine
end

