-- ==== Sys2Proof/Laws/State.lean ====
section
/-! SUPPORT. What each update of the state leaves alone and what it changes: one lemma per field and update, true by definition. -/

namespace Sys2Proof.Machine

/-! ### State.setReg -/

@[simp] theorem State.setReg_pending (s : State) (k : Nat) (w : Word) : (s.setReg k w).pending = s.pending := rfl
@[simp] theorem State.setReg_now (s : State) (k : Nat) (w : Word) : (s.setReg k w).now = s.now := rfl
@[simp] theorem State.setReg_free (s : State) (k : Nat) (w : Word) : (s.setReg k w).free = s.free := rfl
@[simp] theorem State.setReg_power (s : State) (k : Nat) (w : Word) : (s.setReg k w).power = s.power := rfl
@[simp] theorem State.setReg_cfg (s : State) (k : Nat) (w : Word) : (s.setReg k w).cfg = s.cfg := rfl
@[simp] theorem State.setReg_chan (s : State) (k : Nat) (w : Word) : (s.setReg k w).chan = s.chan := rfl
@[simp] theorem State.setReg_retry (s : State) (k : Nat) (w : Word) : (s.setReg k w).retry = s.retry := rfl
@[simp] theorem State.setReg_retryTurn (s : State) (k : Nat) (w : Word) : (s.setReg k w).retryTurn = s.retryTurn := rfl
@[simp] theorem State.setReg_acu (s : State) (k : Nat) (w : Word) : (s.setReg k w).acu = s.acu := rfl
@[simp] theorem State.setReg_scu (s : State) (k : Nat) (w : Word) : (s.setReg k w).scu = s.scu := rfl
@[simp] theorem State.setReg_cross (s : State) (k : Nat) (w : Word) : (s.setReg k w).cross = s.cross := rfl
@[simp] theorem State.setReg_raised (s : State) (k : Nat) (w : Word) : (s.setReg k w).raised = s.raised := rfl
@[simp] theorem State.setReg_applied (s : State) (k : Nat) (w : Word) : (s.setReg k w).applied = s.applied := rfl
@[simp] theorem State.setReg_own (s : State) (k : Nat) (w : Word) : (s.setReg k w).own = s.own := rfl
@[simp] theorem State.setReg_rcd (s : State) (k : Nat) (w : Word) : (s.setReg k w).rcd = s.rcd := rfl
@[simp] theorem State.setReg_sess (s : State) (k : Nat) (w : Word) : (s.setReg k w).sess = s.sess := rfl
@[simp] theorem State.setReg_drains (s : State) (k : Nat) (w : Word) : (s.setReg k w).drains = s.drains := rfl
@[simp] theorem State.setReg_journal (s : State) (k : Nat) (w : Word) : (s.setReg k w).journal = s.journal := rfl
@[simp] theorem State.setReg_jpend (s : State) (k : Nat) (w : Word) : (s.setReg k w).jpend = s.jpend := rfl
@[simp] theorem State.setReg_jwait (s : State) (k : Nat) (w : Word) : (s.setReg k w).jwait = s.jwait := rfl
@[simp] theorem State.setReg_jseq (s : State) (k : Nat) (w : Word) : (s.setReg k w).jseq = s.jseq := rfl
@[simp] theorem State.setReg_flash (s : State) (k : Nat) (w : Word) : (s.setReg k w).flash = s.flash := rfl
@[simp] theorem State.setReg_dirA (s : State) (k : Nat) (w : Word) : (s.setReg k w).dirA = s.dirA := rfl
@[simp] theorem State.setReg_dirB (s : State) (k : Nat) (w : Word) : (s.setReg k w).dirB = s.dirB := rfl
@[simp] theorem State.setReg_dirDue (s : State) (k : Nat) (w : Word) : (s.setReg k w).dirDue = s.dirDue := rfl
@[simp] theorem State.setReg_staging (s : State) (k : Nat) (w : Word) : (s.setReg k w).staging = s.staging := rfl
@[simp] theorem State.setReg_loader (s : State) (k : Nat) (w : Word) : (s.setReg k w).loader = s.loader := rfl
@[simp] theorem State.setReg_jq (s : State) (k : Nat) (w : Word) : (s.setReg k w).jq = s.jq := rfl
@[simp] theorem State.setReg_jqLeft (s : State) (k : Nat) (w : Word) : (s.setReg k w).jqLeft = s.jqLeft := rfl
@[simp] theorem State.setReg_hed (s : State) (k : Nat) (w : Word) : (s.setReg k w).hed = s.hed := rfl
@[simp] theorem State.setReg_hbm (s : State) (k : Nat) (w : Word) : (s.setReg k w).hbm = s.hbm := rfl
@[simp] theorem State.setReg_creel (s : State) (k : Nat) (w : Word) : (s.setReg k w).creel = s.creel := rfl
@[simp] theorem State.setReg_shu (s : State) (k : Nat) (w : Word) : (s.setReg k w).shu = s.shu := rfl
@[simp] theorem State.setReg_cip (s : State) (k : Nat) (w : Word) : (s.setReg k w).cip = s.cip := rfl
@[simp] theorem State.setReg_zones (s : State) (k : Nat) (w : Word) : (s.setReg k w).zones = s.zones := rfl
@[simp] theorem State.setReg_intake (s : State) (k : Nat) (w : Word) : (s.setReg k w).intake = s.intake := rfl
@[simp] theorem State.setReg_sch (s : State) (k : Nat) (w : Word) : (s.setReg k w).sch = s.sch := rfl
@[simp] theorem State.setReg_cal (s : State) (k : Nat) (w : Word) : (s.setReg k w).cal = s.cal := rfl
@[simp] theorem State.setReg_calRef (s : State) (k : Nat) (w : Word) : (s.setReg k w).calRef = s.calRef := rfl
@[simp] theorem State.setReg_mgmt (s : State) (k : Nat) (w : Word) : (s.setReg k w).mgmt = s.mgmt := rfl
@[simp] theorem State.setReg_img (s : State) (k : Nat) (w : Word) : (s.setReg k w).img = s.img := rfl
@[simp] theorem State.setReg_cand (s : State) (k : Nat) (w : Word) : (s.setReg k w).cand = s.cand := rfl

/-! ### State.setF -/

@[simp] theorem State.setF_pending (s : State) (k : Nat) (f : Fld) (v : Nat) : (s.setF k f v).pending = s.pending := rfl
@[simp] theorem State.setF_now (s : State) (k : Nat) (f : Fld) (v : Nat) : (s.setF k f v).now = s.now := rfl
@[simp] theorem State.setF_free (s : State) (k : Nat) (f : Fld) (v : Nat) : (s.setF k f v).free = s.free := rfl
@[simp] theorem State.setF_power (s : State) (k : Nat) (f : Fld) (v : Nat) : (s.setF k f v).power = s.power := rfl
@[simp] theorem State.setF_cfg (s : State) (k : Nat) (f : Fld) (v : Nat) : (s.setF k f v).cfg = s.cfg := rfl
@[simp] theorem State.setF_chan (s : State) (k : Nat) (f : Fld) (v : Nat) : (s.setF k f v).chan = s.chan := rfl
@[simp] theorem State.setF_retry (s : State) (k : Nat) (f : Fld) (v : Nat) : (s.setF k f v).retry = s.retry := rfl
@[simp] theorem State.setF_retryTurn (s : State) (k : Nat) (f : Fld) (v : Nat) : (s.setF k f v).retryTurn = s.retryTurn := rfl
@[simp] theorem State.setF_acu (s : State) (k : Nat) (f : Fld) (v : Nat) : (s.setF k f v).acu = s.acu := rfl
@[simp] theorem State.setF_scu (s : State) (k : Nat) (f : Fld) (v : Nat) : (s.setF k f v).scu = s.scu := rfl
@[simp] theorem State.setF_cross (s : State) (k : Nat) (f : Fld) (v : Nat) : (s.setF k f v).cross = s.cross := rfl
@[simp] theorem State.setF_raised (s : State) (k : Nat) (f : Fld) (v : Nat) : (s.setF k f v).raised = s.raised := rfl
@[simp] theorem State.setF_applied (s : State) (k : Nat) (f : Fld) (v : Nat) : (s.setF k f v).applied = s.applied := rfl
@[simp] theorem State.setF_own (s : State) (k : Nat) (f : Fld) (v : Nat) : (s.setF k f v).own = s.own := rfl
@[simp] theorem State.setF_rcd (s : State) (k : Nat) (f : Fld) (v : Nat) : (s.setF k f v).rcd = s.rcd := rfl
@[simp] theorem State.setF_sess (s : State) (k : Nat) (f : Fld) (v : Nat) : (s.setF k f v).sess = s.sess := rfl
@[simp] theorem State.setF_drains (s : State) (k : Nat) (f : Fld) (v : Nat) : (s.setF k f v).drains = s.drains := rfl
@[simp] theorem State.setF_journal (s : State) (k : Nat) (f : Fld) (v : Nat) : (s.setF k f v).journal = s.journal := rfl
@[simp] theorem State.setF_jpend (s : State) (k : Nat) (f : Fld) (v : Nat) : (s.setF k f v).jpend = s.jpend := rfl
@[simp] theorem State.setF_jwait (s : State) (k : Nat) (f : Fld) (v : Nat) : (s.setF k f v).jwait = s.jwait := rfl
@[simp] theorem State.setF_jseq (s : State) (k : Nat) (f : Fld) (v : Nat) : (s.setF k f v).jseq = s.jseq := rfl
@[simp] theorem State.setF_flash (s : State) (k : Nat) (f : Fld) (v : Nat) : (s.setF k f v).flash = s.flash := rfl
@[simp] theorem State.setF_dirA (s : State) (k : Nat) (f : Fld) (v : Nat) : (s.setF k f v).dirA = s.dirA := rfl
@[simp] theorem State.setF_dirB (s : State) (k : Nat) (f : Fld) (v : Nat) : (s.setF k f v).dirB = s.dirB := rfl
@[simp] theorem State.setF_dirDue (s : State) (k : Nat) (f : Fld) (v : Nat) : (s.setF k f v).dirDue = s.dirDue := rfl
@[simp] theorem State.setF_staging (s : State) (k : Nat) (f : Fld) (v : Nat) : (s.setF k f v).staging = s.staging := rfl
@[simp] theorem State.setF_loader (s : State) (k : Nat) (f : Fld) (v : Nat) : (s.setF k f v).loader = s.loader := rfl
@[simp] theorem State.setF_jq (s : State) (k : Nat) (f : Fld) (v : Nat) : (s.setF k f v).jq = s.jq := rfl
@[simp] theorem State.setF_jqLeft (s : State) (k : Nat) (f : Fld) (v : Nat) : (s.setF k f v).jqLeft = s.jqLeft := rfl
@[simp] theorem State.setF_hed (s : State) (k : Nat) (f : Fld) (v : Nat) : (s.setF k f v).hed = s.hed := rfl
@[simp] theorem State.setF_hbm (s : State) (k : Nat) (f : Fld) (v : Nat) : (s.setF k f v).hbm = s.hbm := rfl
@[simp] theorem State.setF_creel (s : State) (k : Nat) (f : Fld) (v : Nat) : (s.setF k f v).creel = s.creel := rfl
@[simp] theorem State.setF_shu (s : State) (k : Nat) (f : Fld) (v : Nat) : (s.setF k f v).shu = s.shu := rfl
@[simp] theorem State.setF_cip (s : State) (k : Nat) (f : Fld) (v : Nat) : (s.setF k f v).cip = s.cip := rfl
@[simp] theorem State.setF_zones (s : State) (k : Nat) (f : Fld) (v : Nat) : (s.setF k f v).zones = s.zones := rfl
@[simp] theorem State.setF_intake (s : State) (k : Nat) (f : Fld) (v : Nat) : (s.setF k f v).intake = s.intake := rfl
@[simp] theorem State.setF_sch (s : State) (k : Nat) (f : Fld) (v : Nat) : (s.setF k f v).sch = s.sch := rfl
@[simp] theorem State.setF_cal (s : State) (k : Nat) (f : Fld) (v : Nat) : (s.setF k f v).cal = s.cal := rfl
@[simp] theorem State.setF_calRef (s : State) (k : Nat) (f : Fld) (v : Nat) : (s.setF k f v).calRef = s.calRef := rfl
@[simp] theorem State.setF_mgmt (s : State) (k : Nat) (f : Fld) (v : Nat) : (s.setF k f v).mgmt = s.mgmt := rfl
@[simp] theorem State.setF_img (s : State) (k : Nat) (f : Fld) (v : Nat) : (s.setF k f v).img = s.img := rfl
@[simp] theorem State.setF_cand (s : State) (k : Nat) (f : Fld) (v : Nat) : (s.setF k f v).cand = s.cand := rfl

/-! ### State.setB -/

@[simp] theorem State.setB_pending (s : State) (k : Nat) (f : Fld) (b : Bool) : (s.setB k f b).pending = s.pending := rfl
@[simp] theorem State.setB_now (s : State) (k : Nat) (f : Fld) (b : Bool) : (s.setB k f b).now = s.now := rfl
@[simp] theorem State.setB_free (s : State) (k : Nat) (f : Fld) (b : Bool) : (s.setB k f b).free = s.free := rfl
@[simp] theorem State.setB_power (s : State) (k : Nat) (f : Fld) (b : Bool) : (s.setB k f b).power = s.power := rfl
@[simp] theorem State.setB_cfg (s : State) (k : Nat) (f : Fld) (b : Bool) : (s.setB k f b).cfg = s.cfg := rfl
@[simp] theorem State.setB_chan (s : State) (k : Nat) (f : Fld) (b : Bool) : (s.setB k f b).chan = s.chan := rfl
@[simp] theorem State.setB_retry (s : State) (k : Nat) (f : Fld) (b : Bool) : (s.setB k f b).retry = s.retry := rfl
@[simp] theorem State.setB_retryTurn (s : State) (k : Nat) (f : Fld) (b : Bool) : (s.setB k f b).retryTurn = s.retryTurn := rfl
@[simp] theorem State.setB_acu (s : State) (k : Nat) (f : Fld) (b : Bool) : (s.setB k f b).acu = s.acu := rfl
@[simp] theorem State.setB_scu (s : State) (k : Nat) (f : Fld) (b : Bool) : (s.setB k f b).scu = s.scu := rfl
@[simp] theorem State.setB_cross (s : State) (k : Nat) (f : Fld) (b : Bool) : (s.setB k f b).cross = s.cross := rfl
@[simp] theorem State.setB_raised (s : State) (k : Nat) (f : Fld) (b : Bool) : (s.setB k f b).raised = s.raised := rfl
@[simp] theorem State.setB_applied (s : State) (k : Nat) (f : Fld) (b : Bool) : (s.setB k f b).applied = s.applied := rfl
@[simp] theorem State.setB_own (s : State) (k : Nat) (f : Fld) (b : Bool) : (s.setB k f b).own = s.own := rfl
@[simp] theorem State.setB_rcd (s : State) (k : Nat) (f : Fld) (b : Bool) : (s.setB k f b).rcd = s.rcd := rfl
@[simp] theorem State.setB_sess (s : State) (k : Nat) (f : Fld) (b : Bool) : (s.setB k f b).sess = s.sess := rfl
@[simp] theorem State.setB_drains (s : State) (k : Nat) (f : Fld) (b : Bool) : (s.setB k f b).drains = s.drains := rfl
@[simp] theorem State.setB_journal (s : State) (k : Nat) (f : Fld) (b : Bool) : (s.setB k f b).journal = s.journal := rfl
@[simp] theorem State.setB_jpend (s : State) (k : Nat) (f : Fld) (b : Bool) : (s.setB k f b).jpend = s.jpend := rfl
@[simp] theorem State.setB_jwait (s : State) (k : Nat) (f : Fld) (b : Bool) : (s.setB k f b).jwait = s.jwait := rfl
@[simp] theorem State.setB_jseq (s : State) (k : Nat) (f : Fld) (b : Bool) : (s.setB k f b).jseq = s.jseq := rfl
@[simp] theorem State.setB_flash (s : State) (k : Nat) (f : Fld) (b : Bool) : (s.setB k f b).flash = s.flash := rfl
@[simp] theorem State.setB_dirA (s : State) (k : Nat) (f : Fld) (b : Bool) : (s.setB k f b).dirA = s.dirA := rfl
@[simp] theorem State.setB_dirB (s : State) (k : Nat) (f : Fld) (b : Bool) : (s.setB k f b).dirB = s.dirB := rfl
@[simp] theorem State.setB_dirDue (s : State) (k : Nat) (f : Fld) (b : Bool) : (s.setB k f b).dirDue = s.dirDue := rfl
@[simp] theorem State.setB_staging (s : State) (k : Nat) (f : Fld) (b : Bool) : (s.setB k f b).staging = s.staging := rfl
@[simp] theorem State.setB_loader (s : State) (k : Nat) (f : Fld) (b : Bool) : (s.setB k f b).loader = s.loader := rfl
@[simp] theorem State.setB_jq (s : State) (k : Nat) (f : Fld) (b : Bool) : (s.setB k f b).jq = s.jq := rfl
@[simp] theorem State.setB_jqLeft (s : State) (k : Nat) (f : Fld) (b : Bool) : (s.setB k f b).jqLeft = s.jqLeft := rfl
@[simp] theorem State.setB_hed (s : State) (k : Nat) (f : Fld) (b : Bool) : (s.setB k f b).hed = s.hed := rfl
@[simp] theorem State.setB_hbm (s : State) (k : Nat) (f : Fld) (b : Bool) : (s.setB k f b).hbm = s.hbm := rfl
@[simp] theorem State.setB_creel (s : State) (k : Nat) (f : Fld) (b : Bool) : (s.setB k f b).creel = s.creel := rfl
@[simp] theorem State.setB_shu (s : State) (k : Nat) (f : Fld) (b : Bool) : (s.setB k f b).shu = s.shu := rfl
@[simp] theorem State.setB_cip (s : State) (k : Nat) (f : Fld) (b : Bool) : (s.setB k f b).cip = s.cip := rfl
@[simp] theorem State.setB_zones (s : State) (k : Nat) (f : Fld) (b : Bool) : (s.setB k f b).zones = s.zones := rfl
@[simp] theorem State.setB_intake (s : State) (k : Nat) (f : Fld) (b : Bool) : (s.setB k f b).intake = s.intake := rfl
@[simp] theorem State.setB_sch (s : State) (k : Nat) (f : Fld) (b : Bool) : (s.setB k f b).sch = s.sch := rfl
@[simp] theorem State.setB_cal (s : State) (k : Nat) (f : Fld) (b : Bool) : (s.setB k f b).cal = s.cal := rfl
@[simp] theorem State.setB_calRef (s : State) (k : Nat) (f : Fld) (b : Bool) : (s.setB k f b).calRef = s.calRef := rfl
@[simp] theorem State.setB_mgmt (s : State) (k : Nat) (f : Fld) (b : Bool) : (s.setB k f b).mgmt = s.mgmt := rfl
@[simp] theorem State.setB_img (s : State) (k : Nat) (f : Fld) (b : Bool) : (s.setB k f b).img = s.img := rfl
@[simp] theorem State.setB_cand (s : State) (k : Nat) (f : Fld) (b : Bool) : (s.setB k f b).cand = s.cand := rfl

/-! ### State.addF -/

@[simp] theorem State.addF_pending (s : State) (k : Nat) (f : Fld) (n : Nat) : (s.addF k f n).pending = s.pending := rfl
@[simp] theorem State.addF_now (s : State) (k : Nat) (f : Fld) (n : Nat) : (s.addF k f n).now = s.now := rfl
@[simp] theorem State.addF_free (s : State) (k : Nat) (f : Fld) (n : Nat) : (s.addF k f n).free = s.free := rfl
@[simp] theorem State.addF_power (s : State) (k : Nat) (f : Fld) (n : Nat) : (s.addF k f n).power = s.power := rfl
@[simp] theorem State.addF_cfg (s : State) (k : Nat) (f : Fld) (n : Nat) : (s.addF k f n).cfg = s.cfg := rfl
@[simp] theorem State.addF_chan (s : State) (k : Nat) (f : Fld) (n : Nat) : (s.addF k f n).chan = s.chan := rfl
@[simp] theorem State.addF_retry (s : State) (k : Nat) (f : Fld) (n : Nat) : (s.addF k f n).retry = s.retry := rfl
@[simp] theorem State.addF_retryTurn (s : State) (k : Nat) (f : Fld) (n : Nat) : (s.addF k f n).retryTurn = s.retryTurn := rfl
@[simp] theorem State.addF_acu (s : State) (k : Nat) (f : Fld) (n : Nat) : (s.addF k f n).acu = s.acu := rfl
@[simp] theorem State.addF_scu (s : State) (k : Nat) (f : Fld) (n : Nat) : (s.addF k f n).scu = s.scu := rfl
@[simp] theorem State.addF_cross (s : State) (k : Nat) (f : Fld) (n : Nat) : (s.addF k f n).cross = s.cross := rfl
@[simp] theorem State.addF_raised (s : State) (k : Nat) (f : Fld) (n : Nat) : (s.addF k f n).raised = s.raised := rfl
@[simp] theorem State.addF_applied (s : State) (k : Nat) (f : Fld) (n : Nat) : (s.addF k f n).applied = s.applied := rfl
@[simp] theorem State.addF_own (s : State) (k : Nat) (f : Fld) (n : Nat) : (s.addF k f n).own = s.own := rfl
@[simp] theorem State.addF_rcd (s : State) (k : Nat) (f : Fld) (n : Nat) : (s.addF k f n).rcd = s.rcd := rfl
@[simp] theorem State.addF_sess (s : State) (k : Nat) (f : Fld) (n : Nat) : (s.addF k f n).sess = s.sess := rfl
@[simp] theorem State.addF_drains (s : State) (k : Nat) (f : Fld) (n : Nat) : (s.addF k f n).drains = s.drains := rfl
@[simp] theorem State.addF_journal (s : State) (k : Nat) (f : Fld) (n : Nat) : (s.addF k f n).journal = s.journal := rfl
@[simp] theorem State.addF_jpend (s : State) (k : Nat) (f : Fld) (n : Nat) : (s.addF k f n).jpend = s.jpend := rfl
@[simp] theorem State.addF_jwait (s : State) (k : Nat) (f : Fld) (n : Nat) : (s.addF k f n).jwait = s.jwait := rfl
@[simp] theorem State.addF_jseq (s : State) (k : Nat) (f : Fld) (n : Nat) : (s.addF k f n).jseq = s.jseq := rfl
@[simp] theorem State.addF_flash (s : State) (k : Nat) (f : Fld) (n : Nat) : (s.addF k f n).flash = s.flash := rfl
@[simp] theorem State.addF_dirA (s : State) (k : Nat) (f : Fld) (n : Nat) : (s.addF k f n).dirA = s.dirA := rfl
@[simp] theorem State.addF_dirB (s : State) (k : Nat) (f : Fld) (n : Nat) : (s.addF k f n).dirB = s.dirB := rfl
@[simp] theorem State.addF_dirDue (s : State) (k : Nat) (f : Fld) (n : Nat) : (s.addF k f n).dirDue = s.dirDue := rfl
@[simp] theorem State.addF_staging (s : State) (k : Nat) (f : Fld) (n : Nat) : (s.addF k f n).staging = s.staging := rfl
@[simp] theorem State.addF_loader (s : State) (k : Nat) (f : Fld) (n : Nat) : (s.addF k f n).loader = s.loader := rfl
@[simp] theorem State.addF_jq (s : State) (k : Nat) (f : Fld) (n : Nat) : (s.addF k f n).jq = s.jq := rfl
@[simp] theorem State.addF_jqLeft (s : State) (k : Nat) (f : Fld) (n : Nat) : (s.addF k f n).jqLeft = s.jqLeft := rfl
@[simp] theorem State.addF_hed (s : State) (k : Nat) (f : Fld) (n : Nat) : (s.addF k f n).hed = s.hed := rfl
@[simp] theorem State.addF_hbm (s : State) (k : Nat) (f : Fld) (n : Nat) : (s.addF k f n).hbm = s.hbm := rfl
@[simp] theorem State.addF_creel (s : State) (k : Nat) (f : Fld) (n : Nat) : (s.addF k f n).creel = s.creel := rfl
@[simp] theorem State.addF_shu (s : State) (k : Nat) (f : Fld) (n : Nat) : (s.addF k f n).shu = s.shu := rfl
@[simp] theorem State.addF_cip (s : State) (k : Nat) (f : Fld) (n : Nat) : (s.addF k f n).cip = s.cip := rfl
@[simp] theorem State.addF_zones (s : State) (k : Nat) (f : Fld) (n : Nat) : (s.addF k f n).zones = s.zones := rfl
@[simp] theorem State.addF_intake (s : State) (k : Nat) (f : Fld) (n : Nat) : (s.addF k f n).intake = s.intake := rfl
@[simp] theorem State.addF_sch (s : State) (k : Nat) (f : Fld) (n : Nat) : (s.addF k f n).sch = s.sch := rfl
@[simp] theorem State.addF_cal (s : State) (k : Nat) (f : Fld) (n : Nat) : (s.addF k f n).cal = s.cal := rfl
@[simp] theorem State.addF_calRef (s : State) (k : Nat) (f : Fld) (n : Nat) : (s.addF k f n).calRef = s.calRef := rfl
@[simp] theorem State.addF_mgmt (s : State) (k : Nat) (f : Fld) (n : Nat) : (s.addF k f n).mgmt = s.mgmt := rfl
@[simp] theorem State.addF_img (s : State) (k : Nat) (f : Fld) (n : Nat) : (s.addF k f n).img = s.img := rfl
@[simp] theorem State.addF_cand (s : State) (k : Nat) (f : Fld) (n : Nat) : (s.addF k f n).cand = s.cand := rfl

/-! ### State.incF -/

@[simp] theorem State.incF_pending (s : State) (k : Nat) (f : Fld) : (s.incF k f).pending = s.pending := rfl
@[simp] theorem State.incF_now (s : State) (k : Nat) (f : Fld) : (s.incF k f).now = s.now := rfl
@[simp] theorem State.incF_free (s : State) (k : Nat) (f : Fld) : (s.incF k f).free = s.free := rfl
@[simp] theorem State.incF_power (s : State) (k : Nat) (f : Fld) : (s.incF k f).power = s.power := rfl
@[simp] theorem State.incF_cfg (s : State) (k : Nat) (f : Fld) : (s.incF k f).cfg = s.cfg := rfl
@[simp] theorem State.incF_chan (s : State) (k : Nat) (f : Fld) : (s.incF k f).chan = s.chan := rfl
@[simp] theorem State.incF_retry (s : State) (k : Nat) (f : Fld) : (s.incF k f).retry = s.retry := rfl
@[simp] theorem State.incF_retryTurn (s : State) (k : Nat) (f : Fld) : (s.incF k f).retryTurn = s.retryTurn := rfl
@[simp] theorem State.incF_acu (s : State) (k : Nat) (f : Fld) : (s.incF k f).acu = s.acu := rfl
@[simp] theorem State.incF_scu (s : State) (k : Nat) (f : Fld) : (s.incF k f).scu = s.scu := rfl
@[simp] theorem State.incF_cross (s : State) (k : Nat) (f : Fld) : (s.incF k f).cross = s.cross := rfl
@[simp] theorem State.incF_raised (s : State) (k : Nat) (f : Fld) : (s.incF k f).raised = s.raised := rfl
@[simp] theorem State.incF_applied (s : State) (k : Nat) (f : Fld) : (s.incF k f).applied = s.applied := rfl
@[simp] theorem State.incF_own (s : State) (k : Nat) (f : Fld) : (s.incF k f).own = s.own := rfl
@[simp] theorem State.incF_rcd (s : State) (k : Nat) (f : Fld) : (s.incF k f).rcd = s.rcd := rfl
@[simp] theorem State.incF_sess (s : State) (k : Nat) (f : Fld) : (s.incF k f).sess = s.sess := rfl
@[simp] theorem State.incF_drains (s : State) (k : Nat) (f : Fld) : (s.incF k f).drains = s.drains := rfl
@[simp] theorem State.incF_journal (s : State) (k : Nat) (f : Fld) : (s.incF k f).journal = s.journal := rfl
@[simp] theorem State.incF_jpend (s : State) (k : Nat) (f : Fld) : (s.incF k f).jpend = s.jpend := rfl
@[simp] theorem State.incF_jwait (s : State) (k : Nat) (f : Fld) : (s.incF k f).jwait = s.jwait := rfl
@[simp] theorem State.incF_jseq (s : State) (k : Nat) (f : Fld) : (s.incF k f).jseq = s.jseq := rfl
@[simp] theorem State.incF_flash (s : State) (k : Nat) (f : Fld) : (s.incF k f).flash = s.flash := rfl
@[simp] theorem State.incF_dirA (s : State) (k : Nat) (f : Fld) : (s.incF k f).dirA = s.dirA := rfl
@[simp] theorem State.incF_dirB (s : State) (k : Nat) (f : Fld) : (s.incF k f).dirB = s.dirB := rfl
@[simp] theorem State.incF_dirDue (s : State) (k : Nat) (f : Fld) : (s.incF k f).dirDue = s.dirDue := rfl
@[simp] theorem State.incF_staging (s : State) (k : Nat) (f : Fld) : (s.incF k f).staging = s.staging := rfl
@[simp] theorem State.incF_loader (s : State) (k : Nat) (f : Fld) : (s.incF k f).loader = s.loader := rfl
@[simp] theorem State.incF_jq (s : State) (k : Nat) (f : Fld) : (s.incF k f).jq = s.jq := rfl
@[simp] theorem State.incF_jqLeft (s : State) (k : Nat) (f : Fld) : (s.incF k f).jqLeft = s.jqLeft := rfl
@[simp] theorem State.incF_hed (s : State) (k : Nat) (f : Fld) : (s.incF k f).hed = s.hed := rfl
@[simp] theorem State.incF_hbm (s : State) (k : Nat) (f : Fld) : (s.incF k f).hbm = s.hbm := rfl
@[simp] theorem State.incF_creel (s : State) (k : Nat) (f : Fld) : (s.incF k f).creel = s.creel := rfl
@[simp] theorem State.incF_shu (s : State) (k : Nat) (f : Fld) : (s.incF k f).shu = s.shu := rfl
@[simp] theorem State.incF_cip (s : State) (k : Nat) (f : Fld) : (s.incF k f).cip = s.cip := rfl
@[simp] theorem State.incF_zones (s : State) (k : Nat) (f : Fld) : (s.incF k f).zones = s.zones := rfl
@[simp] theorem State.incF_intake (s : State) (k : Nat) (f : Fld) : (s.incF k f).intake = s.intake := rfl
@[simp] theorem State.incF_sch (s : State) (k : Nat) (f : Fld) : (s.incF k f).sch = s.sch := rfl
@[simp] theorem State.incF_cal (s : State) (k : Nat) (f : Fld) : (s.incF k f).cal = s.cal := rfl
@[simp] theorem State.incF_calRef (s : State) (k : Nat) (f : Fld) : (s.incF k f).calRef = s.calRef := rfl
@[simp] theorem State.incF_mgmt (s : State) (k : Nat) (f : Fld) : (s.incF k f).mgmt = s.mgmt := rfl
@[simp] theorem State.incF_img (s : State) (k : Nat) (f : Fld) : (s.incF k f).img = s.img := rfl
@[simp] theorem State.incF_cand (s : State) (k : Nat) (f : Fld) : (s.incF k f).cand = s.cand := rfl

/-! ### State.setBit -/

@[simp] theorem State.setBit_pending (s : State) (k i : Nat) (b : Bool) : (s.setBit k i b).pending = s.pending := rfl
@[simp] theorem State.setBit_now (s : State) (k i : Nat) (b : Bool) : (s.setBit k i b).now = s.now := rfl
@[simp] theorem State.setBit_free (s : State) (k i : Nat) (b : Bool) : (s.setBit k i b).free = s.free := rfl
@[simp] theorem State.setBit_power (s : State) (k i : Nat) (b : Bool) : (s.setBit k i b).power = s.power := rfl
@[simp] theorem State.setBit_cfg (s : State) (k i : Nat) (b : Bool) : (s.setBit k i b).cfg = s.cfg := rfl
@[simp] theorem State.setBit_chan (s : State) (k i : Nat) (b : Bool) : (s.setBit k i b).chan = s.chan := rfl
@[simp] theorem State.setBit_retry (s : State) (k i : Nat) (b : Bool) : (s.setBit k i b).retry = s.retry := rfl
@[simp] theorem State.setBit_retryTurn (s : State) (k i : Nat) (b : Bool) : (s.setBit k i b).retryTurn = s.retryTurn := rfl
@[simp] theorem State.setBit_acu (s : State) (k i : Nat) (b : Bool) : (s.setBit k i b).acu = s.acu := rfl
@[simp] theorem State.setBit_scu (s : State) (k i : Nat) (b : Bool) : (s.setBit k i b).scu = s.scu := rfl
@[simp] theorem State.setBit_cross (s : State) (k i : Nat) (b : Bool) : (s.setBit k i b).cross = s.cross := rfl
@[simp] theorem State.setBit_raised (s : State) (k i : Nat) (b : Bool) : (s.setBit k i b).raised = s.raised := rfl
@[simp] theorem State.setBit_applied (s : State) (k i : Nat) (b : Bool) : (s.setBit k i b).applied = s.applied := rfl
@[simp] theorem State.setBit_own (s : State) (k i : Nat) (b : Bool) : (s.setBit k i b).own = s.own := rfl
@[simp] theorem State.setBit_rcd (s : State) (k i : Nat) (b : Bool) : (s.setBit k i b).rcd = s.rcd := rfl
@[simp] theorem State.setBit_sess (s : State) (k i : Nat) (b : Bool) : (s.setBit k i b).sess = s.sess := rfl
@[simp] theorem State.setBit_drains (s : State) (k i : Nat) (b : Bool) : (s.setBit k i b).drains = s.drains := rfl
@[simp] theorem State.setBit_journal (s : State) (k i : Nat) (b : Bool) : (s.setBit k i b).journal = s.journal := rfl
@[simp] theorem State.setBit_jpend (s : State) (k i : Nat) (b : Bool) : (s.setBit k i b).jpend = s.jpend := rfl
@[simp] theorem State.setBit_jwait (s : State) (k i : Nat) (b : Bool) : (s.setBit k i b).jwait = s.jwait := rfl
@[simp] theorem State.setBit_jseq (s : State) (k i : Nat) (b : Bool) : (s.setBit k i b).jseq = s.jseq := rfl
@[simp] theorem State.setBit_flash (s : State) (k i : Nat) (b : Bool) : (s.setBit k i b).flash = s.flash := rfl
@[simp] theorem State.setBit_dirA (s : State) (k i : Nat) (b : Bool) : (s.setBit k i b).dirA = s.dirA := rfl
@[simp] theorem State.setBit_dirB (s : State) (k i : Nat) (b : Bool) : (s.setBit k i b).dirB = s.dirB := rfl
@[simp] theorem State.setBit_dirDue (s : State) (k i : Nat) (b : Bool) : (s.setBit k i b).dirDue = s.dirDue := rfl
@[simp] theorem State.setBit_staging (s : State) (k i : Nat) (b : Bool) : (s.setBit k i b).staging = s.staging := rfl
@[simp] theorem State.setBit_loader (s : State) (k i : Nat) (b : Bool) : (s.setBit k i b).loader = s.loader := rfl
@[simp] theorem State.setBit_jq (s : State) (k i : Nat) (b : Bool) : (s.setBit k i b).jq = s.jq := rfl
@[simp] theorem State.setBit_jqLeft (s : State) (k i : Nat) (b : Bool) : (s.setBit k i b).jqLeft = s.jqLeft := rfl
@[simp] theorem State.setBit_hed (s : State) (k i : Nat) (b : Bool) : (s.setBit k i b).hed = s.hed := rfl
@[simp] theorem State.setBit_hbm (s : State) (k i : Nat) (b : Bool) : (s.setBit k i b).hbm = s.hbm := rfl
@[simp] theorem State.setBit_creel (s : State) (k i : Nat) (b : Bool) : (s.setBit k i b).creel = s.creel := rfl
@[simp] theorem State.setBit_shu (s : State) (k i : Nat) (b : Bool) : (s.setBit k i b).shu = s.shu := rfl
@[simp] theorem State.setBit_cip (s : State) (k i : Nat) (b : Bool) : (s.setBit k i b).cip = s.cip := rfl
@[simp] theorem State.setBit_zones (s : State) (k i : Nat) (b : Bool) : (s.setBit k i b).zones = s.zones := rfl
@[simp] theorem State.setBit_intake (s : State) (k i : Nat) (b : Bool) : (s.setBit k i b).intake = s.intake := rfl
@[simp] theorem State.setBit_sch (s : State) (k i : Nat) (b : Bool) : (s.setBit k i b).sch = s.sch := rfl
@[simp] theorem State.setBit_cal (s : State) (k i : Nat) (b : Bool) : (s.setBit k i b).cal = s.cal := rfl
@[simp] theorem State.setBit_calRef (s : State) (k i : Nat) (b : Bool) : (s.setBit k i b).calRef = s.calRef := rfl
@[simp] theorem State.setBit_mgmt (s : State) (k i : Nat) (b : Bool) : (s.setBit k i b).mgmt = s.mgmt := rfl
@[simp] theorem State.setBit_img (s : State) (k i : Nat) (b : Bool) : (s.setBit k i b).img = s.img := rfl
@[simp] theorem State.setBit_cand (s : State) (k i : Nat) (b : Bool) : (s.setBit k i b).cand = s.cand := rfl

/-! ### State.modChan -/

@[simp] theorem State.modChan_pending (s : State) (a : Act) (f : Chan → Chan) : (s.modChan a f).pending = s.pending := rfl
@[simp] theorem State.modChan_now (s : State) (a : Act) (f : Chan → Chan) : (s.modChan a f).now = s.now := rfl
@[simp] theorem State.modChan_free (s : State) (a : Act) (f : Chan → Chan) : (s.modChan a f).free = s.free := rfl
@[simp] theorem State.modChan_regs (s : State) (a : Act) (f : Chan → Chan) : (s.modChan a f).regs = s.regs := rfl
@[simp] theorem State.modChan_power (s : State) (a : Act) (f : Chan → Chan) : (s.modChan a f).power = s.power := rfl
@[simp] theorem State.modChan_cfg (s : State) (a : Act) (f : Chan → Chan) : (s.modChan a f).cfg = s.cfg := rfl
@[simp] theorem State.modChan_retry (s : State) (a : Act) (f : Chan → Chan) : (s.modChan a f).retry = s.retry := rfl
@[simp] theorem State.modChan_retryTurn (s : State) (a : Act) (f : Chan → Chan) : (s.modChan a f).retryTurn = s.retryTurn := rfl
@[simp] theorem State.modChan_acu (s : State) (a : Act) (f : Chan → Chan) : (s.modChan a f).acu = s.acu := rfl
@[simp] theorem State.modChan_scu (s : State) (a : Act) (f : Chan → Chan) : (s.modChan a f).scu = s.scu := rfl
@[simp] theorem State.modChan_cross (s : State) (a : Act) (f : Chan → Chan) : (s.modChan a f).cross = s.cross := rfl
@[simp] theorem State.modChan_raised (s : State) (a : Act) (f : Chan → Chan) : (s.modChan a f).raised = s.raised := rfl
@[simp] theorem State.modChan_applied (s : State) (a : Act) (f : Chan → Chan) : (s.modChan a f).applied = s.applied := rfl
@[simp] theorem State.modChan_own (s : State) (a : Act) (f : Chan → Chan) : (s.modChan a f).own = s.own := rfl
@[simp] theorem State.modChan_rcd (s : State) (a : Act) (f : Chan → Chan) : (s.modChan a f).rcd = s.rcd := rfl
@[simp] theorem State.modChan_sess (s : State) (a : Act) (f : Chan → Chan) : (s.modChan a f).sess = s.sess := rfl
@[simp] theorem State.modChan_drains (s : State) (a : Act) (f : Chan → Chan) : (s.modChan a f).drains = s.drains := rfl
@[simp] theorem State.modChan_journal (s : State) (a : Act) (f : Chan → Chan) : (s.modChan a f).journal = s.journal := rfl
@[simp] theorem State.modChan_jpend (s : State) (a : Act) (f : Chan → Chan) : (s.modChan a f).jpend = s.jpend := rfl
@[simp] theorem State.modChan_jwait (s : State) (a : Act) (f : Chan → Chan) : (s.modChan a f).jwait = s.jwait := rfl
@[simp] theorem State.modChan_jseq (s : State) (a : Act) (f : Chan → Chan) : (s.modChan a f).jseq = s.jseq := rfl
@[simp] theorem State.modChan_flash (s : State) (a : Act) (f : Chan → Chan) : (s.modChan a f).flash = s.flash := rfl
@[simp] theorem State.modChan_dirA (s : State) (a : Act) (f : Chan → Chan) : (s.modChan a f).dirA = s.dirA := rfl
@[simp] theorem State.modChan_dirB (s : State) (a : Act) (f : Chan → Chan) : (s.modChan a f).dirB = s.dirB := rfl
@[simp] theorem State.modChan_dirDue (s : State) (a : Act) (f : Chan → Chan) : (s.modChan a f).dirDue = s.dirDue := rfl
@[simp] theorem State.modChan_staging (s : State) (a : Act) (f : Chan → Chan) : (s.modChan a f).staging = s.staging := rfl
@[simp] theorem State.modChan_loader (s : State) (a : Act) (f : Chan → Chan) : (s.modChan a f).loader = s.loader := rfl
@[simp] theorem State.modChan_jq (s : State) (a : Act) (f : Chan → Chan) : (s.modChan a f).jq = s.jq := rfl
@[simp] theorem State.modChan_jqLeft (s : State) (a : Act) (f : Chan → Chan) : (s.modChan a f).jqLeft = s.jqLeft := rfl
@[simp] theorem State.modChan_hed (s : State) (a : Act) (f : Chan → Chan) : (s.modChan a f).hed = s.hed := rfl
@[simp] theorem State.modChan_hbm (s : State) (a : Act) (f : Chan → Chan) : (s.modChan a f).hbm = s.hbm := rfl
@[simp] theorem State.modChan_creel (s : State) (a : Act) (f : Chan → Chan) : (s.modChan a f).creel = s.creel := rfl
@[simp] theorem State.modChan_shu (s : State) (a : Act) (f : Chan → Chan) : (s.modChan a f).shu = s.shu := rfl
@[simp] theorem State.modChan_cip (s : State) (a : Act) (f : Chan → Chan) : (s.modChan a f).cip = s.cip := rfl
@[simp] theorem State.modChan_zones (s : State) (a : Act) (f : Chan → Chan) : (s.modChan a f).zones = s.zones := rfl
@[simp] theorem State.modChan_intake (s : State) (a : Act) (f : Chan → Chan) : (s.modChan a f).intake = s.intake := rfl
@[simp] theorem State.modChan_sch (s : State) (a : Act) (f : Chan → Chan) : (s.modChan a f).sch = s.sch := rfl
@[simp] theorem State.modChan_cal (s : State) (a : Act) (f : Chan → Chan) : (s.modChan a f).cal = s.cal := rfl
@[simp] theorem State.modChan_calRef (s : State) (a : Act) (f : Chan → Chan) : (s.modChan a f).calRef = s.calRef := rfl
@[simp] theorem State.modChan_mgmt (s : State) (a : Act) (f : Chan → Chan) : (s.modChan a f).mgmt = s.mgmt := rfl
@[simp] theorem State.modChan_img (s : State) (a : Act) (f : Chan → Chan) : (s.modChan a f).img = s.img := rfl
@[simp] theorem State.modChan_cand (s : State) (a : Act) (f : Chan → Chan) : (s.modChan a f).cand = s.cand := rfl

/-! ### State.modAcu -/

@[simp] theorem State.modAcu_pending (s : State) (a : Act) (f : Acu → Acu) : (s.modAcu a f).pending = s.pending := rfl
@[simp] theorem State.modAcu_now (s : State) (a : Act) (f : Acu → Acu) : (s.modAcu a f).now = s.now := rfl
@[simp] theorem State.modAcu_free (s : State) (a : Act) (f : Acu → Acu) : (s.modAcu a f).free = s.free := rfl
@[simp] theorem State.modAcu_regs (s : State) (a : Act) (f : Acu → Acu) : (s.modAcu a f).regs = s.regs := rfl
@[simp] theorem State.modAcu_power (s : State) (a : Act) (f : Acu → Acu) : (s.modAcu a f).power = s.power := rfl
@[simp] theorem State.modAcu_cfg (s : State) (a : Act) (f : Acu → Acu) : (s.modAcu a f).cfg = s.cfg := rfl
@[simp] theorem State.modAcu_chan (s : State) (a : Act) (f : Acu → Acu) : (s.modAcu a f).chan = s.chan := rfl
@[simp] theorem State.modAcu_retry (s : State) (a : Act) (f : Acu → Acu) : (s.modAcu a f).retry = s.retry := rfl
@[simp] theorem State.modAcu_retryTurn (s : State) (a : Act) (f : Acu → Acu) : (s.modAcu a f).retryTurn = s.retryTurn := rfl
@[simp] theorem State.modAcu_scu (s : State) (a : Act) (f : Acu → Acu) : (s.modAcu a f).scu = s.scu := rfl
@[simp] theorem State.modAcu_cross (s : State) (a : Act) (f : Acu → Acu) : (s.modAcu a f).cross = s.cross := rfl
@[simp] theorem State.modAcu_raised (s : State) (a : Act) (f : Acu → Acu) : (s.modAcu a f).raised = s.raised := rfl
@[simp] theorem State.modAcu_applied (s : State) (a : Act) (f : Acu → Acu) : (s.modAcu a f).applied = s.applied := rfl
@[simp] theorem State.modAcu_own (s : State) (a : Act) (f : Acu → Acu) : (s.modAcu a f).own = s.own := rfl
@[simp] theorem State.modAcu_rcd (s : State) (a : Act) (f : Acu → Acu) : (s.modAcu a f).rcd = s.rcd := rfl
@[simp] theorem State.modAcu_sess (s : State) (a : Act) (f : Acu → Acu) : (s.modAcu a f).sess = s.sess := rfl
@[simp] theorem State.modAcu_drains (s : State) (a : Act) (f : Acu → Acu) : (s.modAcu a f).drains = s.drains := rfl
@[simp] theorem State.modAcu_journal (s : State) (a : Act) (f : Acu → Acu) : (s.modAcu a f).journal = s.journal := rfl
@[simp] theorem State.modAcu_jpend (s : State) (a : Act) (f : Acu → Acu) : (s.modAcu a f).jpend = s.jpend := rfl
@[simp] theorem State.modAcu_jwait (s : State) (a : Act) (f : Acu → Acu) : (s.modAcu a f).jwait = s.jwait := rfl
@[simp] theorem State.modAcu_jseq (s : State) (a : Act) (f : Acu → Acu) : (s.modAcu a f).jseq = s.jseq := rfl
@[simp] theorem State.modAcu_flash (s : State) (a : Act) (f : Acu → Acu) : (s.modAcu a f).flash = s.flash := rfl
@[simp] theorem State.modAcu_dirA (s : State) (a : Act) (f : Acu → Acu) : (s.modAcu a f).dirA = s.dirA := rfl
@[simp] theorem State.modAcu_dirB (s : State) (a : Act) (f : Acu → Acu) : (s.modAcu a f).dirB = s.dirB := rfl
@[simp] theorem State.modAcu_dirDue (s : State) (a : Act) (f : Acu → Acu) : (s.modAcu a f).dirDue = s.dirDue := rfl
@[simp] theorem State.modAcu_staging (s : State) (a : Act) (f : Acu → Acu) : (s.modAcu a f).staging = s.staging := rfl
@[simp] theorem State.modAcu_loader (s : State) (a : Act) (f : Acu → Acu) : (s.modAcu a f).loader = s.loader := rfl
@[simp] theorem State.modAcu_jq (s : State) (a : Act) (f : Acu → Acu) : (s.modAcu a f).jq = s.jq := rfl
@[simp] theorem State.modAcu_jqLeft (s : State) (a : Act) (f : Acu → Acu) : (s.modAcu a f).jqLeft = s.jqLeft := rfl
@[simp] theorem State.modAcu_hed (s : State) (a : Act) (f : Acu → Acu) : (s.modAcu a f).hed = s.hed := rfl
@[simp] theorem State.modAcu_hbm (s : State) (a : Act) (f : Acu → Acu) : (s.modAcu a f).hbm = s.hbm := rfl
@[simp] theorem State.modAcu_creel (s : State) (a : Act) (f : Acu → Acu) : (s.modAcu a f).creel = s.creel := rfl
@[simp] theorem State.modAcu_shu (s : State) (a : Act) (f : Acu → Acu) : (s.modAcu a f).shu = s.shu := rfl
@[simp] theorem State.modAcu_cip (s : State) (a : Act) (f : Acu → Acu) : (s.modAcu a f).cip = s.cip := rfl
@[simp] theorem State.modAcu_zones (s : State) (a : Act) (f : Acu → Acu) : (s.modAcu a f).zones = s.zones := rfl
@[simp] theorem State.modAcu_intake (s : State) (a : Act) (f : Acu → Acu) : (s.modAcu a f).intake = s.intake := rfl
@[simp] theorem State.modAcu_sch (s : State) (a : Act) (f : Acu → Acu) : (s.modAcu a f).sch = s.sch := rfl
@[simp] theorem State.modAcu_cal (s : State) (a : Act) (f : Acu → Acu) : (s.modAcu a f).cal = s.cal := rfl
@[simp] theorem State.modAcu_calRef (s : State) (a : Act) (f : Acu → Acu) : (s.modAcu a f).calRef = s.calRef := rfl
@[simp] theorem State.modAcu_mgmt (s : State) (a : Act) (f : Acu → Acu) : (s.modAcu a f).mgmt = s.mgmt := rfl
@[simp] theorem State.modAcu_img (s : State) (a : Act) (f : Acu → Acu) : (s.modAcu a f).img = s.img := rfl
@[simp] theorem State.modAcu_cand (s : State) (a : Act) (f : Acu → Acu) : (s.modAcu a f).cand = s.cand := rfl

/-! ### State.modScu -/

@[simp] theorem State.modScu_pending (s : State) (h : Hda) (f : Scu → Scu) : (s.modScu h f).pending = s.pending := rfl
@[simp] theorem State.modScu_now (s : State) (h : Hda) (f : Scu → Scu) : (s.modScu h f).now = s.now := rfl
@[simp] theorem State.modScu_free (s : State) (h : Hda) (f : Scu → Scu) : (s.modScu h f).free = s.free := rfl
@[simp] theorem State.modScu_regs (s : State) (h : Hda) (f : Scu → Scu) : (s.modScu h f).regs = s.regs := rfl
@[simp] theorem State.modScu_power (s : State) (h : Hda) (f : Scu → Scu) : (s.modScu h f).power = s.power := rfl
@[simp] theorem State.modScu_cfg (s : State) (h : Hda) (f : Scu → Scu) : (s.modScu h f).cfg = s.cfg := rfl
@[simp] theorem State.modScu_chan (s : State) (h : Hda) (f : Scu → Scu) : (s.modScu h f).chan = s.chan := rfl
@[simp] theorem State.modScu_retry (s : State) (h : Hda) (f : Scu → Scu) : (s.modScu h f).retry = s.retry := rfl
@[simp] theorem State.modScu_retryTurn (s : State) (h : Hda) (f : Scu → Scu) : (s.modScu h f).retryTurn = s.retryTurn := rfl
@[simp] theorem State.modScu_acu (s : State) (h : Hda) (f : Scu → Scu) : (s.modScu h f).acu = s.acu := rfl
@[simp] theorem State.modScu_cross (s : State) (h : Hda) (f : Scu → Scu) : (s.modScu h f).cross = s.cross := rfl
@[simp] theorem State.modScu_raised (s : State) (h : Hda) (f : Scu → Scu) : (s.modScu h f).raised = s.raised := rfl
@[simp] theorem State.modScu_applied (s : State) (h : Hda) (f : Scu → Scu) : (s.modScu h f).applied = s.applied := rfl
@[simp] theorem State.modScu_own (s : State) (h : Hda) (f : Scu → Scu) : (s.modScu h f).own = s.own := rfl
@[simp] theorem State.modScu_rcd (s : State) (h : Hda) (f : Scu → Scu) : (s.modScu h f).rcd = s.rcd := rfl
@[simp] theorem State.modScu_sess (s : State) (h : Hda) (f : Scu → Scu) : (s.modScu h f).sess = s.sess := rfl
@[simp] theorem State.modScu_drains (s : State) (h : Hda) (f : Scu → Scu) : (s.modScu h f).drains = s.drains := rfl
@[simp] theorem State.modScu_journal (s : State) (h : Hda) (f : Scu → Scu) : (s.modScu h f).journal = s.journal := rfl
@[simp] theorem State.modScu_jpend (s : State) (h : Hda) (f : Scu → Scu) : (s.modScu h f).jpend = s.jpend := rfl
@[simp] theorem State.modScu_jwait (s : State) (h : Hda) (f : Scu → Scu) : (s.modScu h f).jwait = s.jwait := rfl
@[simp] theorem State.modScu_jseq (s : State) (h : Hda) (f : Scu → Scu) : (s.modScu h f).jseq = s.jseq := rfl
@[simp] theorem State.modScu_flash (s : State) (h : Hda) (f : Scu → Scu) : (s.modScu h f).flash = s.flash := rfl
@[simp] theorem State.modScu_dirA (s : State) (h : Hda) (f : Scu → Scu) : (s.modScu h f).dirA = s.dirA := rfl
@[simp] theorem State.modScu_dirB (s : State) (h : Hda) (f : Scu → Scu) : (s.modScu h f).dirB = s.dirB := rfl
@[simp] theorem State.modScu_dirDue (s : State) (h : Hda) (f : Scu → Scu) : (s.modScu h f).dirDue = s.dirDue := rfl
@[simp] theorem State.modScu_staging (s : State) (h : Hda) (f : Scu → Scu) : (s.modScu h f).staging = s.staging := rfl
@[simp] theorem State.modScu_loader (s : State) (h : Hda) (f : Scu → Scu) : (s.modScu h f).loader = s.loader := rfl
@[simp] theorem State.modScu_jq (s : State) (h : Hda) (f : Scu → Scu) : (s.modScu h f).jq = s.jq := rfl
@[simp] theorem State.modScu_jqLeft (s : State) (h : Hda) (f : Scu → Scu) : (s.modScu h f).jqLeft = s.jqLeft := rfl
@[simp] theorem State.modScu_hed (s : State) (h : Hda) (f : Scu → Scu) : (s.modScu h f).hed = s.hed := rfl
@[simp] theorem State.modScu_hbm (s : State) (h : Hda) (f : Scu → Scu) : (s.modScu h f).hbm = s.hbm := rfl
@[simp] theorem State.modScu_creel (s : State) (h : Hda) (f : Scu → Scu) : (s.modScu h f).creel = s.creel := rfl
@[simp] theorem State.modScu_shu (s : State) (h : Hda) (f : Scu → Scu) : (s.modScu h f).shu = s.shu := rfl
@[simp] theorem State.modScu_cip (s : State) (h : Hda) (f : Scu → Scu) : (s.modScu h f).cip = s.cip := rfl
@[simp] theorem State.modScu_zones (s : State) (h : Hda) (f : Scu → Scu) : (s.modScu h f).zones = s.zones := rfl
@[simp] theorem State.modScu_intake (s : State) (h : Hda) (f : Scu → Scu) : (s.modScu h f).intake = s.intake := rfl
@[simp] theorem State.modScu_sch (s : State) (h : Hda) (f : Scu → Scu) : (s.modScu h f).sch = s.sch := rfl
@[simp] theorem State.modScu_cal (s : State) (h : Hda) (f : Scu → Scu) : (s.modScu h f).cal = s.cal := rfl
@[simp] theorem State.modScu_calRef (s : State) (h : Hda) (f : Scu → Scu) : (s.modScu h f).calRef = s.calRef := rfl
@[simp] theorem State.modScu_mgmt (s : State) (h : Hda) (f : Scu → Scu) : (s.modScu h f).mgmt = s.mgmt := rfl
@[simp] theorem State.modScu_img (s : State) (h : Hda) (f : Scu → Scu) : (s.modScu h f).img = s.img := rfl
@[simp] theorem State.modScu_cand (s : State) (h : Hda) (f : Scu → Scu) : (s.modScu h f).cand = s.cand := rfl

/-! ### State.modPower -/

@[simp] theorem State.modPower_pending (s : State) (f : Power → Power) : (s.modPower f).pending = s.pending := rfl
@[simp] theorem State.modPower_now (s : State) (f : Power → Power) : (s.modPower f).now = s.now := rfl
@[simp] theorem State.modPower_free (s : State) (f : Power → Power) : (s.modPower f).free = s.free := rfl
@[simp] theorem State.modPower_regs (s : State) (f : Power → Power) : (s.modPower f).regs = s.regs := rfl
@[simp] theorem State.modPower_cfg (s : State) (f : Power → Power) : (s.modPower f).cfg = s.cfg := rfl
@[simp] theorem State.modPower_chan (s : State) (f : Power → Power) : (s.modPower f).chan = s.chan := rfl
@[simp] theorem State.modPower_retry (s : State) (f : Power → Power) : (s.modPower f).retry = s.retry := rfl
@[simp] theorem State.modPower_retryTurn (s : State) (f : Power → Power) : (s.modPower f).retryTurn = s.retryTurn := rfl
@[simp] theorem State.modPower_acu (s : State) (f : Power → Power) : (s.modPower f).acu = s.acu := rfl
@[simp] theorem State.modPower_scu (s : State) (f : Power → Power) : (s.modPower f).scu = s.scu := rfl
@[simp] theorem State.modPower_cross (s : State) (f : Power → Power) : (s.modPower f).cross = s.cross := rfl
@[simp] theorem State.modPower_raised (s : State) (f : Power → Power) : (s.modPower f).raised = s.raised := rfl
@[simp] theorem State.modPower_applied (s : State) (f : Power → Power) : (s.modPower f).applied = s.applied := rfl
@[simp] theorem State.modPower_own (s : State) (f : Power → Power) : (s.modPower f).own = s.own := rfl
@[simp] theorem State.modPower_rcd (s : State) (f : Power → Power) : (s.modPower f).rcd = s.rcd := rfl
@[simp] theorem State.modPower_sess (s : State) (f : Power → Power) : (s.modPower f).sess = s.sess := rfl
@[simp] theorem State.modPower_drains (s : State) (f : Power → Power) : (s.modPower f).drains = s.drains := rfl
@[simp] theorem State.modPower_journal (s : State) (f : Power → Power) : (s.modPower f).journal = s.journal := rfl
@[simp] theorem State.modPower_jpend (s : State) (f : Power → Power) : (s.modPower f).jpend = s.jpend := rfl
@[simp] theorem State.modPower_jwait (s : State) (f : Power → Power) : (s.modPower f).jwait = s.jwait := rfl
@[simp] theorem State.modPower_jseq (s : State) (f : Power → Power) : (s.modPower f).jseq = s.jseq := rfl
@[simp] theorem State.modPower_flash (s : State) (f : Power → Power) : (s.modPower f).flash = s.flash := rfl
@[simp] theorem State.modPower_dirA (s : State) (f : Power → Power) : (s.modPower f).dirA = s.dirA := rfl
@[simp] theorem State.modPower_dirB (s : State) (f : Power → Power) : (s.modPower f).dirB = s.dirB := rfl
@[simp] theorem State.modPower_dirDue (s : State) (f : Power → Power) : (s.modPower f).dirDue = s.dirDue := rfl
@[simp] theorem State.modPower_staging (s : State) (f : Power → Power) : (s.modPower f).staging = s.staging := rfl
@[simp] theorem State.modPower_loader (s : State) (f : Power → Power) : (s.modPower f).loader = s.loader := rfl
@[simp] theorem State.modPower_jq (s : State) (f : Power → Power) : (s.modPower f).jq = s.jq := rfl
@[simp] theorem State.modPower_jqLeft (s : State) (f : Power → Power) : (s.modPower f).jqLeft = s.jqLeft := rfl
@[simp] theorem State.modPower_hed (s : State) (f : Power → Power) : (s.modPower f).hed = s.hed := rfl
@[simp] theorem State.modPower_hbm (s : State) (f : Power → Power) : (s.modPower f).hbm = s.hbm := rfl
@[simp] theorem State.modPower_creel (s : State) (f : Power → Power) : (s.modPower f).creel = s.creel := rfl
@[simp] theorem State.modPower_shu (s : State) (f : Power → Power) : (s.modPower f).shu = s.shu := rfl
@[simp] theorem State.modPower_cip (s : State) (f : Power → Power) : (s.modPower f).cip = s.cip := rfl
@[simp] theorem State.modPower_zones (s : State) (f : Power → Power) : (s.modPower f).zones = s.zones := rfl
@[simp] theorem State.modPower_intake (s : State) (f : Power → Power) : (s.modPower f).intake = s.intake := rfl
@[simp] theorem State.modPower_sch (s : State) (f : Power → Power) : (s.modPower f).sch = s.sch := rfl
@[simp] theorem State.modPower_cal (s : State) (f : Power → Power) : (s.modPower f).cal = s.cal := rfl
@[simp] theorem State.modPower_calRef (s : State) (f : Power → Power) : (s.modPower f).calRef = s.calRef := rfl
@[simp] theorem State.modPower_mgmt (s : State) (f : Power → Power) : (s.modPower f).mgmt = s.mgmt := rfl
@[simp] theorem State.modPower_img (s : State) (f : Power → Power) : (s.modPower f).img = s.img := rfl
@[simp] theorem State.modPower_cand (s : State) (f : Power → Power) : (s.modPower f).cand = s.cand := rfl

/-! ### State.modRcd -/

@[simp] theorem State.modRcd_pending (s : State) (f : Recorder → Recorder) : (s.modRcd f).pending = s.pending := rfl
@[simp] theorem State.modRcd_now (s : State) (f : Recorder → Recorder) : (s.modRcd f).now = s.now := rfl
@[simp] theorem State.modRcd_free (s : State) (f : Recorder → Recorder) : (s.modRcd f).free = s.free := rfl
@[simp] theorem State.modRcd_regs (s : State) (f : Recorder → Recorder) : (s.modRcd f).regs = s.regs := rfl
@[simp] theorem State.modRcd_power (s : State) (f : Recorder → Recorder) : (s.modRcd f).power = s.power := rfl
@[simp] theorem State.modRcd_cfg (s : State) (f : Recorder → Recorder) : (s.modRcd f).cfg = s.cfg := rfl
@[simp] theorem State.modRcd_chan (s : State) (f : Recorder → Recorder) : (s.modRcd f).chan = s.chan := rfl
@[simp] theorem State.modRcd_retry (s : State) (f : Recorder → Recorder) : (s.modRcd f).retry = s.retry := rfl
@[simp] theorem State.modRcd_retryTurn (s : State) (f : Recorder → Recorder) : (s.modRcd f).retryTurn = s.retryTurn := rfl
@[simp] theorem State.modRcd_acu (s : State) (f : Recorder → Recorder) : (s.modRcd f).acu = s.acu := rfl
@[simp] theorem State.modRcd_scu (s : State) (f : Recorder → Recorder) : (s.modRcd f).scu = s.scu := rfl
@[simp] theorem State.modRcd_cross (s : State) (f : Recorder → Recorder) : (s.modRcd f).cross = s.cross := rfl
@[simp] theorem State.modRcd_raised (s : State) (f : Recorder → Recorder) : (s.modRcd f).raised = s.raised := rfl
@[simp] theorem State.modRcd_applied (s : State) (f : Recorder → Recorder) : (s.modRcd f).applied = s.applied := rfl
@[simp] theorem State.modRcd_own (s : State) (f : Recorder → Recorder) : (s.modRcd f).own = s.own := rfl
@[simp] theorem State.modRcd_sess (s : State) (f : Recorder → Recorder) : (s.modRcd f).sess = s.sess := rfl
@[simp] theorem State.modRcd_drains (s : State) (f : Recorder → Recorder) : (s.modRcd f).drains = s.drains := rfl
@[simp] theorem State.modRcd_journal (s : State) (f : Recorder → Recorder) : (s.modRcd f).journal = s.journal := rfl
@[simp] theorem State.modRcd_jpend (s : State) (f : Recorder → Recorder) : (s.modRcd f).jpend = s.jpend := rfl
@[simp] theorem State.modRcd_jwait (s : State) (f : Recorder → Recorder) : (s.modRcd f).jwait = s.jwait := rfl
@[simp] theorem State.modRcd_jseq (s : State) (f : Recorder → Recorder) : (s.modRcd f).jseq = s.jseq := rfl
@[simp] theorem State.modRcd_flash (s : State) (f : Recorder → Recorder) : (s.modRcd f).flash = s.flash := rfl
@[simp] theorem State.modRcd_dirA (s : State) (f : Recorder → Recorder) : (s.modRcd f).dirA = s.dirA := rfl
@[simp] theorem State.modRcd_dirB (s : State) (f : Recorder → Recorder) : (s.modRcd f).dirB = s.dirB := rfl
@[simp] theorem State.modRcd_dirDue (s : State) (f : Recorder → Recorder) : (s.modRcd f).dirDue = s.dirDue := rfl
@[simp] theorem State.modRcd_staging (s : State) (f : Recorder → Recorder) : (s.modRcd f).staging = s.staging := rfl
@[simp] theorem State.modRcd_loader (s : State) (f : Recorder → Recorder) : (s.modRcd f).loader = s.loader := rfl
@[simp] theorem State.modRcd_jq (s : State) (f : Recorder → Recorder) : (s.modRcd f).jq = s.jq := rfl
@[simp] theorem State.modRcd_jqLeft (s : State) (f : Recorder → Recorder) : (s.modRcd f).jqLeft = s.jqLeft := rfl
@[simp] theorem State.modRcd_hed (s : State) (f : Recorder → Recorder) : (s.modRcd f).hed = s.hed := rfl
@[simp] theorem State.modRcd_hbm (s : State) (f : Recorder → Recorder) : (s.modRcd f).hbm = s.hbm := rfl
@[simp] theorem State.modRcd_creel (s : State) (f : Recorder → Recorder) : (s.modRcd f).creel = s.creel := rfl
@[simp] theorem State.modRcd_shu (s : State) (f : Recorder → Recorder) : (s.modRcd f).shu = s.shu := rfl
@[simp] theorem State.modRcd_cip (s : State) (f : Recorder → Recorder) : (s.modRcd f).cip = s.cip := rfl
@[simp] theorem State.modRcd_zones (s : State) (f : Recorder → Recorder) : (s.modRcd f).zones = s.zones := rfl
@[simp] theorem State.modRcd_intake (s : State) (f : Recorder → Recorder) : (s.modRcd f).intake = s.intake := rfl
@[simp] theorem State.modRcd_sch (s : State) (f : Recorder → Recorder) : (s.modRcd f).sch = s.sch := rfl
@[simp] theorem State.modRcd_cal (s : State) (f : Recorder → Recorder) : (s.modRcd f).cal = s.cal := rfl
@[simp] theorem State.modRcd_calRef (s : State) (f : Recorder → Recorder) : (s.modRcd f).calRef = s.calRef := rfl
@[simp] theorem State.modRcd_mgmt (s : State) (f : Recorder → Recorder) : (s.modRcd f).mgmt = s.mgmt := rfl
@[simp] theorem State.modRcd_img (s : State) (f : Recorder → Recorder) : (s.modRcd f).img = s.img := rfl
@[simp] theorem State.modRcd_cand (s : State) (f : Recorder → Recorder) : (s.modRcd f).cand = s.cand := rfl

/-! ### The unit an update concerns -/

@[simp] theorem State.modChan_same (s : State) (a : Act) (f : Chan → Chan) : (s.modChan a f).chan[a] = f s.chan[a] := by
  simp [State.modChan]
theorem State.modChan_ne (s : State) {a b : Act} (f : Chan → Chan) (h : a ≠ b) : (s.modChan a f).chan[b] = s.chan[b] := by
  simp only [State.modChan, Fin.getElem_fin]; exact Vector.getElem_set_ne _ _ (fun e => h (Fin.ext e))
@[simp] theorem State.modAcu_same (s : State) (a : Act) (f : Acu → Acu) : (s.modAcu a f).acu[a] = f s.acu[a] := by
  simp [State.modAcu]
theorem State.modAcu_ne (s : State) {a b : Act} (f : Acu → Acu) (h : a ≠ b) : (s.modAcu a f).acu[b] = s.acu[b] := by
  simp only [State.modAcu, Fin.getElem_fin]; exact Vector.getElem_set_ne _ _ (fun e => h (Fin.ext e))
@[simp] theorem State.modScu_same (s : State) (h : Hda) (f : Scu → Scu) : (s.modScu h f).scu[h] = f s.scu[h] := by
  simp [State.modScu]
theorem State.modScu_ne (s : State) {h g : Hda} (f : Scu → Scu) (e : h ≠ g) : (s.modScu h f).scu[g] = s.scu[g] := by
  simp only [State.modScu, Fin.getElem_fin]; exact Vector.getElem_set_ne _ _ (fun x => e (Fin.ext x))
@[simp] theorem State.modChan_at (s : State) (a : Act) (f : Chan → Chan) : (s.modChan a f).chan[(a : Nat)] = f s.chan[a] := by
  simp [State.modChan]
@[simp] theorem State.modAcu_at (s : State) (a : Act) (f : Acu → Acu) : (s.modAcu a f).acu[(a : Nat)] = f s.acu[a] := by
  simp [State.modAcu]
@[simp] theorem State.modScu_at (s : State) (h : Hda) (f : Scu → Scu) : (s.modScu h f).scu[(h : Nat)] = f s.scu[h] := by
  simp [State.modScu]
@[simp] theorem State.modPower_power (s : State) (f : Power → Power) : (s.modPower f).power = f s.power := rfl
@[simp] theorem State.modRcd_rcd (s : State) (f : Recorder → Recorder) : (s.modRcd f).rcd = f s.rcd := rfl

/-! ### The register read of a state in which other state changed -/

@[simp] theorem State.modChan_reg (s : State) (a : Act) (f : Chan → Chan) (j : Nat) : (s.modChan a f).reg j = s.reg j := rfl
@[simp] theorem State.modChan_getF (s : State) (a : Act) (f : Chan → Chan) (j : Nat) (g : Fld) : (s.modChan a f).getF j g = s.getF j g := rfl
@[simp] theorem State.modAcu_reg (s : State) (a : Act) (f : Acu → Acu) (j : Nat) : (s.modAcu a f).reg j = s.reg j := rfl
@[simp] theorem State.modAcu_getF (s : State) (a : Act) (f : Acu → Acu) (j : Nat) (g : Fld) : (s.modAcu a f).getF j g = s.getF j g := rfl
@[simp] theorem State.modScu_reg (s : State) (h : Hda) (f : Scu → Scu) (j : Nat) : (s.modScu h f).reg j = s.reg j := rfl
@[simp] theorem State.modScu_getF (s : State) (h : Hda) (f : Scu → Scu) (j : Nat) (g : Fld) : (s.modScu h f).getF j g = s.getF j g := rfl
@[simp] theorem State.modPower_reg (s : State) (f : Power → Power) (j : Nat) : (s.modPower f).reg j = s.reg j := rfl
@[simp] theorem State.modPower_getF (s : State) (f : Power → Power) (j : Nat) (g : Fld) : (s.modPower f).getF j g = s.getF j g := rfl
@[simp] theorem State.modRcd_reg (s : State) (f : Recorder → Recorder) (j : Nat) : (s.modRcd f).reg j = s.reg j := rfl
@[simp] theorem State.modRcd_getF (s : State) (f : Recorder → Recorder) (j : Nat) (g : Fld) : (s.modRcd f).getF j g = s.getF j g := rfl

end Sys2Proof.Machine
end

