-- ==== Sys2Proof/Laws/Regs.lean ====
section
/-! SUPPORT. Laws of registers and their fields in a state: a read after a write, and that every write keeps the canonical form. -/

namespace Sys2Proof.Machine

/-! ### The canonical form -/

theorem State.canonical_regs {s : State} (h : s.canonical = true) : swf 0#32 s.regs = true := by
  simp only [State.canonical, Bool.and_eq_true] at h; exact h.1.1

/-- A state whose tables are those of a canonical state is canonical. -/
theorem State.canonical_of_eq {s t : State} (h : s.canonical = true) (h1 : t.regs = s.regs) (h2 : t.hbm = s.hbm) (h3 : t.flash = s.flash) :
    t.canonical = true := by
  unfold State.canonical at *; rw [h1, h2, h3]; exact h

@[simp] theorem State.canonical_setReg {s : State} (h : s.canonical = true) (k : Nat) (w : Word) : (s.setReg k w).canonical = true := by
  simp only [State.canonical, Bool.and_eq_true] at h ⊢
  exact ⟨⟨swf_sset h.1.1 k w, h.1.2⟩, h.2⟩

@[simp] theorem State.canonical_setF {s : State} (h : s.canonical = true) (k : Nat) (f : Fld) (v : Nat) : (s.setF k f v).canonical = true :=
  State.canonical_setReg h _ _
@[simp] theorem State.canonical_setB {s : State} (h : s.canonical = true) (k : Nat) (f : Fld) (b : Bool) : (s.setB k f b).canonical = true :=
  State.canonical_setReg h _ _
@[simp] theorem State.canonical_addF {s : State} (h : s.canonical = true) (k : Nat) (f : Fld) (n : Nat) : (s.addF k f n).canonical = true :=
  State.canonical_setReg h _ _
@[simp] theorem State.canonical_incF {s : State} (h : s.canonical = true) (k : Nat) (f : Fld) : (s.incF k f).canonical = true :=
  State.canonical_setReg h _ _
@[simp] theorem State.canonical_setBit {s : State} (h : s.canonical = true) (k i : Nat) (b : Bool) : (s.setBit k i b).canonical = true :=
  State.canonical_setReg h _ _
@[simp] theorem State.canonical_modChan {s : State} (h : s.canonical = true) (a : Act) (f : Chan → Chan) : (s.modChan a f).canonical = true := h
@[simp] theorem State.canonical_modAcu {s : State} (h : s.canonical = true) (a : Act) (f : Acu → Acu) : (s.modAcu a f).canonical = true := h
@[simp] theorem State.canonical_modScu {s : State} (h : s.canonical = true) (g : Hda) (f : Scu → Scu) : (s.modScu g f).canonical = true := h
@[simp] theorem State.canonical_modPower {s : State} (h : s.canonical = true) (f : Power → Power) : (s.modPower f).canonical = true := h
@[simp] theorem State.canonical_modRcd {s : State} (h : s.canonical = true) (f : Recorder → Recorder) : (s.modRcd f).canonical = true := h

/-! ### A register after a write -/

theorem State.reg_setReg_same {s : State} (h : s.canonical = true) (k : Nat) (w : Word) : (s.setReg k w).reg k = w :=
  sget_sset_same (State.canonical_regs h) k w

theorem State.reg_setReg_ne (s : State) {j k : Nat} (h : j ≠ k) (w : Word) : (s.setReg k w).reg j = s.reg j :=
  sget_sset_ne _ _ h

theorem State.reg_setF_ne (s : State) {j k : Nat} (h : j ≠ k) (f : Fld) (v : Nat) : (s.setF k f v).reg j = s.reg j :=
  State.reg_setReg_ne s h _

theorem State.reg_setB_ne (s : State) {j k : Nat} (h : j ≠ k) (f : Fld) (b : Bool) : (s.setB k f b).reg j = s.reg j :=
  State.reg_setReg_ne s h _

theorem State.reg_addF_ne (s : State) {j k : Nat} (h : j ≠ k) (f : Fld) (n : Nat) : (s.addF k f n).reg j = s.reg j :=
  State.reg_setReg_ne s h _

theorem State.reg_incF_ne (s : State) {j k : Nat} (h : j ≠ k) (f : Fld) : (s.incF k f).reg j = s.reg j :=
  State.reg_setReg_ne s h _

theorem State.reg_setBit_ne (s : State) {j k : Nat} (h : j ≠ k) (i : Nat) (b : Bool) : (s.setBit k i b).reg j = s.reg j :=
  State.reg_setReg_ne s h _

/-! ### A field after a write -/

/-- A field that lies in the 32 bits of a register. -/
abbrev Fld.ok (f : Fld) : Prop := f.lo ≤ f.hi ∧ f.hi < 32

/-- Two fields that share no bit. -/
abbrev Fld.apart (f g : Fld) : Prop := g.hi < f.lo ∨ f.hi < g.lo

theorem State.getF_setF_same {s : State} (h : s.canonical = true) (k : Nat) {f : Fld} (hf : f.ok) (v : Nat) :
    (s.setF k f v).getF k f = v % 2 ^ (f.hi + 1 - f.lo) := by
  simp only [State.getF, State.setF, State.reg_setReg_same h]; exact Fld.get_set f _ v hf.1 hf.2

theorem State.getF_setF_apart {s : State} (h : s.canonical = true) (k : Nat) {f g : Fld} (hf : f.ok) (hd : f.apart g) (v : Nat) :
    (s.setF k f v).getF k g = s.getF k g := by
  simp only [State.getF, State.setF, State.reg_setReg_same h]; exact Fld.get_set_ne f g _ v hf.1 hf.2 hd

theorem State.getF_setReg_ne (s : State) {j k : Nat} (h : j ≠ k) (g : Fld) (w : Word) : (s.setReg k w).getF j g = s.getF j g := by
  simp only [State.getF, State.reg_setReg_ne s h]

theorem State.getF_setF_ne (s : State) {j k : Nat} (h : j ≠ k) (f g : Fld) (v : Nat) : (s.setF k f v).getF j g = s.getF j g := by
  simp only [State.getF, State.reg_setF_ne s h]

theorem State.getF_setB_ne (s : State) {j k : Nat} (h : j ≠ k) (f g : Fld) (b : Bool) : (s.setB k f b).getF j g = s.getF j g := by
  simp only [State.getF, State.reg_setB_ne s h]

theorem State.getF_incF_ne (s : State) {j k : Nat} (h : j ≠ k) (f g : Fld) : (s.incF k f).getF j g = s.getF j g := by
  simp only [State.getF, State.reg_incF_ne s h]

/-- A one-bit field reads as it was set. -/
theorem State.bitF_setB_same {s : State} (h : s.canonical = true) (k : Nat) {f : Fld} (hf : f.ok) (h1 : f.hi = f.lo) (b : Bool) :
    (s.setB k f b).bitF k f = b := by
  simp only [State.bitF, State.setB, State.getF_setF_same h k hf]
  have : f.hi + 1 - f.lo = 1 := by omega
  cases b <;> simp [b2n, this]

theorem State.bit_setBit_same {s : State} (h : s.canonical = true) (k : Nat) {i : Nat} (hi : i < 32) (b : Bool) :
    (s.setBit k i b).bit k i = b := by
  have e := State.bitF_setB_same h k (f := ⟨i, i⟩) ⟨Nat.le_refl _, hi⟩ rfl b
  exact e

theorem State.bit_setBit_ne {s : State} (h : s.canonical = true) (k : Nat) {i j : Nat} (hi : i < 32) (hij : i ≠ j) (b : Bool) :
    (s.setBit k i b).bit k j = s.bit k j := by
  simp only [State.bit, State.setBit]
  rw [State.getF_setF_apart h k (f := ⟨i, i⟩) ⟨Nat.le_refl _, hi⟩ (by simp only [Fld.apart]; omega)]

/-- A counter that is counted goes up by one and stays at its maximum (R4). -/
theorem State.getF_incF_same {s : State} (h : s.canonical = true) (k : Nat) {f : Fld} (hf : f.ok) :
    (s.incF k f).getF k f = min f.max (s.getF k f + 1) := by
  simp only [State.incF, State.addF, State.getF_setF_same h k hf]
  apply Nat.mod_eq_of_lt
  have : 0 < 2 ^ (f.hi + 1 - f.lo) := Nat.two_pow_pos _
  simp only [Fld.max]; omega

end Sys2Proof.Machine
end

