-- ==== Sys2Proof/Laws/Ops.lean ====
section
/-! SUPPORT. What the shared operations of the meanings do, said once each. -/

namespace Sys2Proof.Machine

/-- A raise at Notice or Degrade is kept for the collector and changes nothing else but the severity noted with it (R331). -/
theorem raiseAt_quiet (src : Nat) (u : FUnit) {sev : Nat} (s : State) (h : sev < 2) :
    ∃ r m, raiseAt src u sev s = { s with raised := s.raised ++ [r], applied := m } ∧ r.src = src ∧ r.unit = u ∧ r.sev = sev := by
  unfold raiseAt
  dsimp only
  split
  · exact ⟨_, _, rfl, rfl, rfl, rfl⟩
  · unfold react
    rw [if_pos h]
    split <;> exact ⟨_, _, rfl, rfl, rfl, rfl⟩

theorem raise_quiet (src : Nat) (u : FUnit) (s : State) (h : s.sevOf src < 2) :
    ∃ r m, raise src u s = { s with raised := s.raised ++ [r], applied := m } ∧ r.src = src ∧ r.unit = u ∧ r.sev = s.sevOf src :=
  raiseAt_quiet src u s h

/-- What the release of a write gate leaves: the gate of that channel open no longer, and every other unit but the decision engine and the
contexts as it was. -/
theorem releaseGate_frame (a : Act) (s : State) :
    (releaseGate a s).acu = s.acu ∧ (releaseGate a s).scu = s.scu ∧ (releaseGate a s).power = s.power ∧ (releaseGate a s).cfg = s.cfg ∧
      (releaseGate a s).raised = s.raised ∧ (releaseGate a s).applied = s.applied ∧ (releaseGate a s).now = s.now ∧
      (releaseGate a s).hbm = s.hbm ∧ (releaseGate a s).flash = s.flash := by
  simp only [releaseGate]
  split
  · split
    · simp only [noteEnd]; split <;> exact ⟨rfl, rfl, rfl, rfl, rfl, rfl, rfl, rfl, rfl⟩
    · exact ⟨rfl, rfl, rfl, rfl, rfl, rfl, rfl, rfl, rfl⟩
  · exact ⟨rfl, rfl, rfl, rfl, rfl, rfl, rfl, rfl, rfl⟩

theorem noteEnd_frame (a : Act) (tag : Nat) (cut : Bool) (s : State) :
    (noteEnd a tag cut s).chan = s.chan ∧ (noteEnd a tag cut s).regs = s.regs := by
  simp only [noteEnd]; split <;> exact ⟨rfl, rfl⟩

theorem Chan.gate_off (c : Chan) (h : c.gate = false) :
    c = { c with gate := false, cur := c.cur, pass := c.pass, lastGate := c.lastGate } := by
  cases c; simp_all

/-- The write gate is released; the channel's clock, lock, head and zone stay. -/
theorem releaseGate_chan (a : Act) (s : State) :
    ∃ cur pass lg, (releaseGate a s).chan[a] = { s.chan[a] with gate := false, cur := cur, pass := pass, lastGate := lg } := by
  unfold releaseGate
  dsimp only
  split
  · split
    · simp only [State.incF_chan, State.modChan_same, noteEnd_frame]; exact ⟨_, _, _, rfl⟩
    · simp only [State.incF_chan, State.modChan_same]; exact ⟨_, _, _, rfl⟩
  · rename_i h
    exact ⟨_, _, _, Chan.gate_off _ (by simpa using h)⟩

/-- The other channels are not concerned. -/
theorem releaseGate_chan_ne {a b : Act} (h : b ≠ a) (s : State) : (releaseGate a s).chan[b] = s.chan[b] := by
  unfold releaseGate
  dsimp only
  split
  · simp only [State.incF_chan]
    rw [State.modChan_ne _ _ (Ne.symm h)]
    split
    · simp only [noteEnd_frame]
    · rfl
  · rfl

/-- The release counts in CNT_WI of its actuator and writes no other register (R111). -/
theorem releaseGate_regs (a : Act) (s : State) : regsBut [Reg.ACU_CNT_WI a] s (releaseGate a s) := by
  intro k hk
  simp only [List.mem_singleton] at hk
  unfold releaseGate
  dsimp only
  split
  · rw [State.reg_incF_ne _ hk, State.modChan_reg]
    split
    · unfold State.reg; rw [(noteEnd_frame ..).2]
    · rfl
  · rfl

theorem canonical_releaseGate {s : State} (h : s.canonical = true) (a : Act) : (releaseGate a s).canonical = true := by
  unfold releaseGate
  dsimp only
  split
  · apply State.canonical_incF
    apply State.canonical_modChan
    split
    · unfold noteEnd; dsimp only; split <;> exact h
    · exact h
  · exact h

/-! ### Microcode stores -/

@[simp] theorem State.modStore_same (s : State) (q : Fin 64) (f : Store → Store) : (s.modStore q f).jq[q] = f s.jq[q] := by
  simp [State.modStore]
theorem State.modStore_ne (s : State) {p q : Fin 64} (f : Store → Store) (h : q ≠ p) : (s.modStore q f).jq[p] = s.jq[p] := by
  simp only [State.modStore, Fin.getElem_fin]; exact Vector.getElem_set_ne _ _ (fun e => h (Fin.ext e))
@[simp] theorem State.modStore_regs (s : State) (q : Fin 64) (f : Store → Store) : (s.modStore q f).regs = s.regs := rfl

end Sys2Proof.Machine
end

