-- ==== Sys2Proof/Laws/Motion.lean ====
section
/-! SUPPORT. What the shared operations of the motion domain do: a recomputation of the write-inhibit causes, entering a motion state, starting a seek. -/

namespace Sys2Proof.Machine

theorem vec_set_self {α : Type} {n : Nat} (v : Vector α n) (i : Nat) (h : i < n) : v.set i v[i] h = v := by
  ext j hj; by_cases e : i = j
  · subst e; simp
  · rw [Vector.getElem_set_ne _ _ e]

/-- A recomputation of the causes withdraws the permit where one is present (R109). -/
theorem refreshWi_acu (a : Act) (s : State) :
    (refreshWi a s).acu = (s.modAcu a (fun u => { u with wrOk := u.wrOk && decide (s.wiLive a = 0) })).acu := by
  simp only [refreshWi]
  split
  · rename_i h
    simp only [State.setF_acu, State.modAcu, h, decide_true, Bool.and_true, Fin.getElem_fin]
    exact (vec_set_self _ _ _).symm
  · rename_i h
    rw [(releaseGate_frame a _).1]
    simp [State.modAcu, h]

theorem refreshWi_frame (a : Act) (s : State) :
    (refreshWi a s).scu = s.scu ∧ (refreshWi a s).power = s.power ∧
    (refreshWi a s).cfg = s.cfg ∧ (refreshWi a s).raised = s.raised ∧ (refreshWi a s).applied = s.applied := by
  simp only [refreshWi]
  split
  · exact ⟨rfl, rfl, rfl, rfl, rfl⟩
  · have f := releaseGate_frame a ((((s.setF (Reg.ACU_WI_STAT a) Fld.ACU_WI_STAT_LIVE (s.wiLive a)).setF (Reg.ACU_WI_STAT a) Fld.ACU_WI_STAT_LATCHED
      ((s.setF (Reg.ACU_WI_STAT a) Fld.ACU_WI_STAT_LIVE (s.wiLive a)).getF (Reg.ACU_WI_STAT a) Fld.ACU_WI_STAT_LATCHED ||| s.wiLive a))).modAcu a
        (fun u => { u with wrOk := false }))
    exact ⟨f.2.1, f.2.2.1, f.2.2.2.1, f.2.2.2.2.1, f.2.2.2.2.2.1⟩

/-- A recomputation leaves the scripts due on the channel as they were. -/
theorem releaseGate_due (a : Act) (s : State) : (releaseGate a s).chan[a].due = s.chan[a].due := by
  obtain ⟨c, p, g, h⟩ := releaseGate_chan a s; rw [h]

theorem refreshWi_due (a : Act) (s : State) : (refreshWi a s).chan[a].due = s.chan[a].due := by
  simp only [refreshWi]
  split
  · simp
  · rw [releaseGate_due]; simp

/-- What entering a motion state leaves: the state itself; the commands, the reference and the head stay. -/
theorem setAcuState_acu (a : Act) (st : AcuState) (s : State) :
    ∃ u : Acu, (setAcuState a st s).acu = s.acu.set a u ∧ u.state = st ∧ u.seek = s.acu[a].seek ∧ u.head = s.acu[a].head ∧ u.lastCmd = s.acu[a].lastCmd ∧
      u.report = s.acu[a].report ∧ (st = .settle ∨ st = .follow → u.rdOk = s.acu[a].rdOk) := by
  have key : ∀ t : State, (∃ u : Acu, t.acu = s.acu.set a u ∧ u.state = st ∧ u.seek = s.acu[a].seek ∧ u.head = s.acu[a].head ∧ u.lastCmd = s.acu[a].lastCmd ∧
      u.report = s.acu[a].report ∧ (st = .settle ∨ st = .follow → u.rdOk = s.acu[a].rdOk)) → ∀ f : Acu → Acu,
      (∀ u, (f u).state = u.state ∧ (f u).seek = u.seek ∧ (f u).head = u.head ∧ (f u).lastCmd = u.lastCmd ∧ (f u).report = u.report ∧
        (st = .settle ∨ st = .follow → (f u).rdOk = u.rdOk)) →
      (∃ u : Acu, (t.modAcu a f).acu = s.acu.set a u ∧ u.state = st ∧ u.seek = s.acu[a].seek ∧ u.head = s.acu[a].head ∧ u.lastCmd = s.acu[a].lastCmd ∧
      u.report = s.acu[a].report ∧ (st = .settle ∨ st = .follow → u.rdOk = s.acu[a].rdOk)) := by
    rintro t ⟨u, h1, h2⟩ f hf
    have := hf u
    refine ⟨f u, ?_, ?_⟩
    · simp [State.modAcu, h1]
    · simp_all
  simp only [setAcuState]
  rw [refreshWi_acu]
  refine key _ ?_ _ (fun u => ⟨rfl, rfl, rfl, rfl, rfl, fun _ => rfl⟩)
  have h1 : ∃ u : Acu, (s.modAcu a (fun u => { u with state := st, folWedge := false })).acu = s.acu.set a u ∧ u.state = st ∧ u.seek = s.acu[a].seek ∧ u.head = s.acu[a].head ∧ u.lastCmd = s.acu[a].lastCmd ∧
      u.report = s.acu[a].report ∧ (st = .settle ∨ st = .follow → u.rdOk = s.acu[a].rdOk) := ⟨_, rfl, rfl, rfl, rfl, rfl, rfl, fun _ => rfl⟩
  generalize s.modAcu a (fun u => { u with state := st, folWedge := false }) = s1 at h1 ⊢
  have h2 : (if s.acu[a].state = st then s1 else s1.send (.scuAcu a false) (.motion st)).acu = s1.acu := by split <;> rfl
  rw [← h2] at h1
  generalize (if s.acu[a].state = st then s1 else s1.send (.scuAcu a false) (.motion st)) = s2 at h1 ⊢
  have h3 : ∃ u : Acu, (if s.acu[a].state = .follow ∧ st ≠ .follow then discardCal a s2 else s2).acu = s.acu.set a u ∧ u.state = st ∧ u.seek = s.acu[a].seek ∧ u.head = s.acu[a].head ∧ u.lastCmd = s.acu[a].lastCmd ∧
      u.report = s.acu[a].report ∧ (st = .settle ∨ st = .follow → u.rdOk = s.acu[a].rdOk) := by
    split
    · unfold discardCal
      split
      · exact key _ h1 (fun u => { u with calWin := none }) (fun u => ⟨rfl, rfl, rfl, rfl, rfl, fun _ => rfl⟩)
      · exact h1
    · exact h1
  generalize (if s.acu[a].state = .follow ∧ st ≠ .follow then discardCal a s2 else s2) = s3 at h3 ⊢
  cases st <;> first
    | exact h3
    | exact key _ h3 _ (fun u => ⟨rfl, rfl, rfl, rfl, rfl, fun h => by cases h <;> contradiction⟩)

/-- `x` and `s` agree on all that entering a motion state leaves. -/
def motionAgrees (s x : State) : Prop :=
  x.scu = s.scu ∧ x.power = s.power ∧ x.cfg = s.cfg ∧ x.raised = s.raised ∧ x.applied = s.applied ∧ x.chan = s.chan
theorem motionAgrees.modAcu {s x : State} (h : motionAgrees s x) (a : Act) (f : Acu → Acu) : motionAgrees s (x.modAcu a f) := h
theorem motionAgrees.send {s x : State} (h : motionAgrees s x) (c : Crossing) (m : XMsg) : motionAgrees s (x.send c m) := h
theorem motionAgrees.ite {s x y : State} (p : Prop) [Decidable p] (h : motionAgrees s x) (h' : motionAgrees s y) : motionAgrees s (if p then x else y) := by
  split; exacts [h, h']
theorem motionAgrees.discardCal {s x : State} (h : motionAgrees s x) (a : Act) : motionAgrees s (discardCal a x) := by
  unfold Machine.discardCal; split; exacts [h, h]

/-- Entering a motion state moves no spindle, no power and no raise, and queues no script. -/
theorem setAcuState_frame (a : Act) (st : AcuState) (s : State) :
    (setAcuState a st s).scu = s.scu ∧ (setAcuState a st s).power = s.power ∧ (setAcuState a st s).cfg = s.cfg ∧
    (setAcuState a st s).raised = s.raised ∧ (setAcuState a st s).applied = s.applied ∧ (setAcuState a st s).chan[a].due = s.chan[a].due := by
  obtain ⟨x, e, h⟩ : ∃ x, setAcuState a st s = refreshWi a x ∧ motionAgrees s x := by
    refine ⟨_, rfl, ?_⟩
    have h0 : motionAgrees s s := ⟨rfl, rfl, rfl, rfl, rfl, rfl⟩
    have h1 := h0.modAcu a (fun u => { u with state := st, folWedge := false })
    have h2 := motionAgrees.ite (s.acu[a].state = st) h1 (h1.send (.scuAcu a false) (.motion st))
    have h3 := motionAgrees.ite (s.acu[a].state = .follow ∧ st ≠ .follow) (h2.discardCal a) h2
    cases st
    case settle => exact h3
    case follow => exact h3
    all_goals exact h3.modAcu a _
  have f := refreshWi_frame a x
  rw [e]
  refine ⟨f.1.trans h.1, f.2.1.trans h.2.1, f.2.2.1.trans h.2.2.1, f.2.2.2.1.trans h.2.2.2.1, f.2.2.2.2.trans h.2.2.2.2.1, ?_⟩
  rw [refreshWi_due]; simp only [h.2.2.2.2.2]

/-- A seek that starts is planned for its command, target and head, and queues the head's script where the head changes (R106, R108). -/
theorem startSeek_does (a : Act) (c : SeekCmd) (second : Bool) (s : State) :
    ∃ (u : Acu) (k : SeekRun), (startSeek a c second s).acu = s.acu.set a u ∧ u.state = .seek ∧ u.seek = some k ∧ k.cmd = c ∧ k.second = second ∧
      k.failed = false ∧ k.plan.target = ((c.cyl * 16384 : Nat) : Rat) ∧ u.head = some c.head ∧ u.lastCmd = some c ∧ u.report = none ∧
      (s.acu[a].head ≠ some c.head → (startSeek a c second s).chan[a].due = s.chan[a].due ++ [.headSelect c.head]) ∧
      (s.acu[a].head = some c.head → (startSeek a c second s).chan[a].due = s.chan[a].due) ∧
      (startSeek a c second s).scu = s.scu ∧ (startSeek a c second s).power = s.power := by
  obtain ⟨x, e0, hx⟩ : ∃ x, startSeek a c second s = setAcuState a .seek x ∧ x = (if decide (s.acu[a].head ≠ some c.head) = true then _ else _) :=
    ⟨_, rfl, rfl⟩
  rw [e0]
  obtain ⟨u, h1, h2, h3, h4, h5, h6, h7⟩ := setAcuState_acu a .seek x
  obtain ⟨g1, g2, g3, g4, g5, g6⟩ := setAcuState_frame a .seek x
  have e : ∃ v k, x.acu = s.acu.set a v ∧ v.seek = some k ∧ k.cmd = c ∧ k.second = second ∧ k.failed = false ∧
      k.plan.target = ((c.cyl * 16384 : Nat) : Rat) ∧ v.head = some c.head ∧ v.lastCmd = some c ∧ v.report = none := by
    subst hx
    split <;> exact ⟨_, _, rfl, rfl, rfl, rfl, rfl, rfl, rfl, rfl, rfl⟩
  obtain ⟨v, k, e1, e2, k1, k2, k3, k4, e3, e4, e5⟩ := e
  have ex : x.acu[a] = v := by simp [e1]
  refine ⟨u, k, ?_, h2, h3.trans ((congrArg Acu.seek ex).trans e2), k1, k2, k3, k4, ?_, ?_, ?_, ?_, ?_, ?_, ?_⟩
  · rw [h1, e1]; simp
  · rw [h4, ex, e3]
  · rw [h5, ex, e4]
  · rw [h6, ex, e5]
  · intro hn
    have hx2 := hx.trans (if_pos (by simpa using hn))
    rw [g6, hx2]; simp [queueScript]
  · intro hn
    have hx2 := hx.trans (if_neg (by simpa using hn))
    rw [g6, hx2]; simp
  · rw [g1]; subst hx; split <;> rfl
  · rw [g2]; subst hx; split <;> rfl

theorem histAdd_only (n : Nat) (v : Int) (s : State) : ∃ r, histAdd n v s = { s with regs := r } := by
  simp only [histAdd]; split <;> split <;> exact ⟨_, rfl⟩

/-- A sample for the histograms writes registers only (R419). -/
theorem sample_only (q sc : Nat) (v : Int) (s : State) : ∃ r, sample q sc v s = { s with regs := r } := by
  unfold sample
  generalize List.range 16 = l
  induction l generalizing s with
  | nil => exact ⟨_, rfl⟩
  | cons n l ih =>
    rw [List.foldl_cons]
    dsimp only
    split
    · obtain ⟨r, e⟩ := histAdd_only n v s
      rw [e]; exact ih _
    · exact ih _

theorem wrMet_eq (s : State) (a : Act) : s.wrMet a = decide (max 1 (Fld.ACU_SETTLE_CFG_WR_N.get s.acu[a].settleCfg) ≤ s.acu[a].wrRun) := by
  unfold State.wrMet atLeast1; congr 2; split <;> omega
theorem rdMet_eq (s : State) (a : Act) : s.rdMet a = decide (max 1 (Fld.ACU_SETTLE_CFG_RD_N.get s.acu[a].settleCfg) ≤ s.acu[a].rdRun) := by
  unfold State.rdMet atLeast1; congr 2; split <;> omega

end Sys2Proof.Machine
end

