-- ==== Sys2Proof/WellFormed.lean ====
section
/-! DEFINITION. Well-formed commands: operands whose size the spec fixes have that size. A command that is not well-formed stands for nothing that
can reach the part. -/

namespace Sys2Proof

/-- A COMMAND frame has eight LUN bytes and a CDB padded to 16 bytes. -/
def CmdFrame.wf (f : CmdFrame) : Bool := f.lun.length == 8 && f.cdb.length == 16

/-- A TASK frame has eight LUN bytes. -/
def TmfFrame.wf (t : TmfFrame) : Bool := t.lun.length == 8

/-- A DATA frame carries from 1 to 1,024 bytes (R180). -/
def DataFrame.wf (f : DataFrame) : Bool := decide (1 ≤ f.data.length) && decide (f.data.length ≤ 1024)

/-- A message of the register protocol fits the longest MCTP message (R380). -/
def RegMsg.wf (m : RegMsg) : Bool := decide (m.bytes.length ≤ 1088)

/-- The digest of a root certificate is a SHA-384 digest (R383). -/
def FinishMsg.wf (f : FinishMsg) : Bool := f.rootDigest.length == 48

/-- A sector has 37,008 samples (R68). -/
def SectorRead.wf (r : SectorRead) : Bool := r.samples.isEmpty || r.samples.length == 37008

/-- A sector has 37,008 bits (R73), and a detector's ratio saturates at ±15. -/
def llrsWf (l : List Int) : Bool := decide (l.length ≤ 37008) && l.all (fun x => decide (x.natAbs ≤ 15))

/-- Cylinders have 22 bits (R91). -/
def SeekCmd.wf (c : SeekCmd) : Bool := decide (c.cyl < 4194304)

/-- The digest of an image's signed bytes is a SHA-384 digest (R350); LEN of a record is the length of its payload (R351). -/
def ImageFile.wf (f : ImageFile) : Bool :=
  f.sha.length == 48 && f.header.length == 256 &&
    f.recs.all (fun r => match r.body with | .jacquard p => p.length == r.len | _ => true)

/-- A packet has a body. -/
def MctpPacket.wf (p : MctpPacket) : Bool := !p.body.isEmpty

/-- The commands whose operands are well-formed. -/
def Instr.wf (i : Instr) : Bool :=
  match i with
  | .acuSeek _ c => c.wf
  | .sectorBoundary _ _ r => r.wf
  | .framerMarkFirst _ l | .framerWindowClose _ l | .inlineDecodeDone _ l | .retryAttemptDone _ l => llrsWf l
  | .testUnitReady f | .requestSense f | .formatUnit f | .reassignBlocks f | .inquiry f | .modeSelect6 f | .modeSelect10 f | .modeSense6 f
  | .modeSense10 f | .receiveDiagnosticResults f | .sendDiagnostic f | .writeBufferDownload f | .writeBufferActivate f | .readBuffer f
  | .sanitize f | .logSense f | .read16 f | .write16 f | .verify16 f | .synchronizeCache16 f | .closeZone f | .finishZone f | .openZone f
  | .resetWritePointer f | .reportZones f | .readCapacity16 f | .reportLuns f | .unsupportedOpcode f => f.wf
  | .abortTask t | .abortTaskSet t | .clearTaskSet t | .logicalUnitReset t | .iTNexusReset t | .queryTask t | .queryTaskSet t
  | .tmfUnsupported t => t.wf
  | .dataFrameReceived f => f.wf
  | .templeUpdate _ off bytes _ => decide (off.val + bytes.length ≤ 28)
  | .imageCheckPassDone f => f.file.wf
  | .activationVerifyDone f _ => f.wf
  | .mctpPacket p => p.wf
  | .challenge _ nonce | .getMeasurements _ nonce => nonce.length == 32
  | .finish _ f => f.wf
  | .regRead _ m | .regWrite _ m | .regWriteMasked _ m => m.wf
  | .unitState _ m st => RegMsg.wf ⟨m.bytes ++ st⟩
  | .oemRaiseSvnMin _ v => decide (v < 2 ^ 32)
  | _ => true

end Sys2Proof
end

