-- ==== Sys2Proof/Tests/Slice0.lean ====
section
/-! SUPPORT. Tests: the well-formedness checks refuse what they should, hand-calculated results of single commands, and for every statement with
hypotheses a state and operands that meet them together. -/

namespace Sys2Proof.Machine

-- One test after the other: run together, their kernel evaluations ask for a thread each.
set_option Elab.async false


/-- The state after reset with every register at zero: a small state to build on. -/
def blank : State := { State.reset with regs := [] }

def withChan (f : Chan → Chan) : State := blank.modChan 0 f
def withAcu (f : Acu → Acu) : State := blank.modAcu 0 f
def withScu (f : Scu → Scu) : State := blank.modScu 0 f
/-- An open session 0 of a Keeper. -/
def keeperIn (s : State) : State := { s with sess := s.sess.set 0 ⟨.opened, .keeper, 0, true, 0⟩ }

/-- A protected field of class 1, all zero but for its Selvedge and its CRC. -/
def goodSelvedge : List Byte := (⟨List.replicate 16 0#8, 0, 0, 0, 0, false, 0, false, false, 1⟩ : Selvedge).head
def goodHead : List Byte := List.replicate 4096 0#8 ++ (List.replicate 16 0#8 ++ goodSelvedge)
def goodField : List Byte := goodHead ++ leBytes 4 (crc32c goodHead).toNat

theorem goodSelvedge_bytes : goodSelvedge = List.replicate 27 0#8 ++ [0x20#8] := by decide

theorem goodField_malformed (c : List Byte) : malformed (List.replicate 4096 0#8 ++ (List.replicate 16 0#8 ++ (goodSelvedge ++ c))) = false := by
  have e1 : (List.replicate 4096 0#8 ++ (List.replicate 16 0#8 ++ (goodSelvedge ++ c))).drop 4112 = goodSelvedge ++ c := by
    rw [← List.append_assoc, List.replicate_append_replicate]; exact List.drop_left' List.length_replicate
  have e2 : (List.replicate 4096 0#8 ++ (List.replicate 16 0#8 ++ (goodSelvedge ++ c))).drop 4096 = List.replicate 16 0#8 ++ (goodSelvedge ++ c) :=
    List.drop_left' List.length_replicate
  unfold malformed selvedgeOf
  rw [e1, e2, goodSelvedge_bytes]
  simp [List.replicate, leNat]

theorem test_good_field_decodes (l n : Nat) (hn : n ≤ l) : verdict l ⟨true, n, goodField⟩ = .decoded := by
  have h : fieldCrcOk goodField = true :=
    fieldCrcOk_append _ (by simp only [goodHead, goodSelvedge_bytes, List.length_append, List.length_replicate, List.length_singleton])
  have m : malformed goodField = false := by
    have e : goodField = List.replicate 4096 0#8 ++ (List.replicate 16 0#8 ++ (goodSelvedge ++ leBytes 4 (crc32c goodHead).toNat)) := by
      conv_lhs => rw [goodField, goodHead]
      simp only [List.append_assoc, goodHead]
    rw [e]; exact goodField_malformed _
  simp only [verdict, h, m, decide_eq_false (Nat.not_lt.mpr hn)]; rfl


/-! ### A part that serves one LU of one conventional zone -/

def aLu : LuCfg := ⟨0, 0, [⟨1, 0, 0, 0, false, 0⟩], 0, 0, 0, 0, 0, 0, 1, 0, 0, []⟩
/-- Port 0 with one link up and initiator 0 known; LU 0 is not Locked. -/
def served : State :=
  let s : State := { blank with cfg := { blank.cfg with lus := [aLu] }, cip := { blank.cip with keys := [(0, [])] }
                                power := { blank.power with phase := .run, portsOn := true, released := true, mainHi := true, motHi := true, mbusHi := true }
                                scu := blank.scu.set 0 { blank.scu[0] with state := .run }
                                intake := { blank.intake with initTab := [(0, ⟨0, 1⟩)] } }
  ((((s.setReg (Reg.SAS_PHY_STAT 0 0) 3#32).setReg Reg.INT_STAT 40960#32).setReg (bank 0 Reg.CREEL_POOL_SIZE) 100#32).setReg
    (bank 0 Reg.CREEL_POOL_FREE) 100#32)
/-- A COMMAND frame with a CDB of these bytes and then zeros. -/
def aFrame (cdb param : List Byte) : CmdFrame := ⟨0, 0, 7, zeros 8, .simple, 0, padTo 16 cdb, param⟩

/-! ### Channels -/

def aReading : SectorRun := ⟨9, 5, false, 1, 16, 64, 0, 0, 0, false, 8, 3, none, none, ⟨false, false, false⟩⟩
def aSlot : ReedSlot := ⟨9, 5, 1, 16, 64, frontNone, frontNone, [], 0, 1, ⟨[0], false, false⟩, ⟨false, false, false⟩⟩
def withRetry (copied : Bool) : State := { blank with retry := blank.retry.set 0 (some ⟨0, aSlot, [(0, 3)], copied, 0⟩) }
/-- Session 0 open and HDA 0 with its two actuators declared and clocked. -/
def chanUp (f : Chan → Chan) : State := (keeperIn (withChan (fun c => f { c with clocked := true }))).setReg Reg.GLB_GEOM 0x301#32

/-- Ratios of a sector that holds the mark at offset 3 after 67 bits of a 4T preamble, and nothing else. -/
def markLate : List Int := List.replicate 67 0 ++ markBits.map (fun b => if b then -9 else 9)

theorem test_meets_FramerFirstTakesLowestOffset :
    (let s := withChan (fun c => { c with cur := some aReading })
     s.chan[(0 : Act)].cur = some aReading ∧ aReading.write = false ∧ aReading.best = false ∧ aReading.selected = none ∧ aReading.record = none ∧
     7 < aReading.win ∧ markDist markLate (-((aReading.win / 2 : Nat) : Int) + (7 : Nat)) = some 0 ∧ 0 ≤ aReading.thr ∧
     (∀ j : Fin 7, ∀ e, markDist markLate (-((aReading.win / 2 : Nat) : Int) + (j.val : Int)) = some e → aReading.thr < e)) ∧
    (let r := { aReading with selected := some ((1 : Int), 2) }
     let s := withChan (fun c => { c with cur := some r })
     s.chan[(0 : Act)].cur = some r ∧ r.selected = some (1, 2) ∧ r.record = none) := by
  refine ⟨⟨rfl, rfl, rfl, rfl, rfl, by decide, by decide, by decide, fun j => ?_⟩, rfl, rfl, rfl⟩
  have h : ∀ j : Fin 7, (match markDist markLate (-((aReading.win / 2 : Nat) : Int) + (j.val : Int)) with | some e => decide (aReading.thr < e) | none => true) = true := by
    decide
  intro e he
  have := h j
  rw [he] at this
  exact of_decide_eq_true this

theorem test_meets_WindowCloseWritesRecord :
    let s := withChan (fun c => { c with cur := some aReading })
    s.canonical = true ∧ s.chan[(0 : Act)].cur = some aReading ∧ aReading.write = false ∧ aReading.record = none := ⟨rfl, rfl, rfl, rfl⟩

theorem test_meets_ReframeListFiveDistinct : [(-4 : Int), -3, 0, 3].length ≤ 4 ∧ [(-4 : Int), -3, 0, 3].Nodup := by decide

theorem goodField_length : goodField.length = 4144 := by
  simp only [goodField, goodHead, goodSelvedge_bytes, List.length_append, List.length_replicate, List.length_singleton, leBytes_length]

/-- The ratios of a good sector decode, at any scale. -/
theorem sure_decodes (l : Nat) (q : Rat) (hl : 0 < l) (hq : 0 < q) : verdict l (ldpcDecode l (cutAt 0 q (sureLlrs goodField))) = .decoded := by
  rw [ldpcDecode_codeword goodField l _ goodField_length hl (cutAt_sure goodField q hq)]
  exact test_good_field_decodes l 1 hl

/-- No ratios at all: the codeword is empty, and no limit left for an iteration. -/
theorem none_fails (p : Int) (q : Rat) : (ldpcDecode 0 (cutAt p q [])).checksOk = false := rfl

theorem test_meets_DecodersHandSectorsOn :
    (let s := withChan (fun c => { c with decoding := [aSlot] })
     s.chan[(0 : Act)].decoding = [aSlot] ∧
     verdict aSlot.iterMax (ldpcDecode aSlot.iterMax (cutAt aSlot.framedAt 1 (sureLlrs goodField))) = .decoded) ∧
    (let s := withChan (fun c => { c with retryReq := [9], reed := [aSlot] })
     s.retry[(0 : Fin 4)] = none ∧ s.nextRetry = some 0 ∧ s.chan[(0 : Act)].retryReq = [9] ∧
     s.chan[(0 : Act)].reed.find? (fun o => o.seq == 9) = some aSlot) ∧
    ((withRetry true).retry[(0 : Fin 4)] = some ⟨0, aSlot, [(0, 3)], true, 0⟩ ∧
      verdict aSlot.iterRetry (ldpcDecode aSlot.iterRetry (cutAt 0 1 (sureLlrs goodField))) = .decoded) ∧
    (let s := { blank with retry := blank.retry.set 0 (some ⟨0, { aSlot with iterRetry := 0 }, [(0, 3)], true, 9⟩) }
     (s.retry[(0 : Fin 4)].map (fun j => (ldpcDecode j.slot.iterRetry (cutAt 0 (3 / 4) [])).checksOk)) = some false) := by
  refine ⟨⟨rfl, sure_decodes _ _ (by decide) (by decide)⟩, ⟨rfl, by decide, rfl, rfl⟩, ⟨rfl, sure_decodes _ _ (by decide) (by decide)⟩, rfl⟩

theorem test_meets_SectorBoundaryEndsSector :
    (let s := withChan (fun c => { c with clocked := true, cur := some aReading })
     s.chan[(0 : Act)].clocked = true ∧ s.chan[(0 : Act)].cur = some aReading ∧ aReading.write = false ∧ s.chan[(0 : Act)].pass = none) ∧
    (let s := withChan (fun c => { c with clocked := true })
     s.canonical = true ∧ s.chan[(0 : Act)].cur = none ∧ s.chan[(0 : Act)].pass = none) :=
  ⟨⟨rfl, rfl, rfl, rfl⟩, rfl, rfl, rfl⟩

/-- A warp mark of frame 0 over warp cylinder 0: the prefix in symbols 0 to 7, the rest 0. -/
def aMark : WarpMark := ⟨0, 0x27#32, []⟩

theorem test_meets_WarpLockFollowsMarks :
    (let s := withChan (fun c => { c with clocked := true })
     s.chan[(0 : Act)].clocked = true ∧ s.chan[(0 : Act)].gate = false ∧ prefixErrors aMark ≤ 1 ∧ endSymbol aMark = false ∧ parityEven aMark = true ∧
     markFrame aMark = (s.chan[(0 : Act)].frame + 1) % max 1 s.cfg.spin[hdaOf 0].wedges ∧
     (grayDecode (markGray aMark) % 4096 + 4096 - s.warpCyl 0 % 4096) % 4096 = 0 ∧ 1 < prefixErrors { aMark with symbols := 0#32 }) ∧
    (let s := withChan (fun c => { c with clocked := true, pll := { c.pll with tolMet := true, lockMarks := 2 } })
     s.canonical = true ∧ s.chan[(0 : Act)].locked = false ∧ s.chan[(0 : Act)].pll.tolMet = true ∧ 2 ≤ s.chan[(0 : Act)].pll.lockMarks) ∧
    (let s := withChan (fun c => { c with clocked := true, locked := true, badFrames := 4 })
     s.canonical = true ∧ s.chan[(0 : Act)].locked = true ∧ 4 ≤ s.chan[(0 : Act)].badFrames ∧ s.chan[(0 : Act)].zone ≠ (63 : Fin 64).val) ∧
    (let s := withChan (fun c => { c with clocked := true, locked := true })
     let l : List WarpCycle := List.replicate 256 ⟨1 / 4, false⟩
     s.canonical = true ∧ s.chan[(0 : Act)].locked = true ∧ 256 ≤ l.length ∧ ∀ c ∈ l, 1 / 8 < c.error ∨ c.error < -1 / 8) ∧
    (let s := withChan (fun c => { c with clocked := true })
     s.chan[(0 : Act)].badFrames < 4 ∧ s.chan[(0 : Act)].pll.badRun < 256 ∧ ∀ c ∈ [(⟨-1 / 8, true⟩ : WarpCycle)], -1 / 8 ≤ c.error ∧ c.error ≤ 1 / 8) := by
  refine ⟨⟨rfl, rfl, by decide, by decide, by decide, by decide, by decide, by decide⟩, ⟨rfl, rfl, rfl, by decide⟩, ⟨rfl, rfl, by decide, by decide⟩,
    ⟨rfl, rfl, Nat.le_of_eq List.length_replicate.symm, fun c hc => ?_⟩, by decide, by decide, fun c hc => ?_⟩
  · rw [List.eq_of_mem_replicate hc]; norm_num
  · rw [List.mem_singleton.mp hc]; norm_num

theorem test_meets_PreampFaultCutsWrite :
    (let s := withChan (fun c => { c with clocked := true })
     s.chan[(0 : Act)].clocked = true ∧ s.chan[(0 : Act)].paFault = false ∧ s.sevOf (srcAct 0 0) < 2) ∧
    (chanUp id).chanWritable 0 0 = true := by
  refine ⟨⟨rfl, rfl, by decide⟩, by decide⟩

theorem test_meets_PreampLinkOneAtATime :
    (let s := withChan (fun c => { c with due := [.idle] })
     s.chan[(0 : Act)].due = [.idle] ∧ s.chan[(0 : Act)].gate = false ∧ s.chan[(0 : Act)].cur = none ∧ s.chan[(0 : Act)].link = .free) ∧
    (withChan (fun c => { c with link := .script (.headSelect 14) [0x1234#16] })).chan[(0 : Act)].link = .script (.headSelect 14) [0x1234#16] ∧
    ((chanUp id).canonical = true ∧ (chanUp id).chanWritable 0 0 = true ∧
     (chanUp id).bitF (Reg.ACU_PA_ACC 0) Fld.ACU_PA_ACC_BUSY = false ∧ Fld.ACU_PA_ACC_GO.get 0x1807F#32 = 1) ∧
    (let s := withChan (fun c => { c with paWaiting := true })
     s.chan[(0 : Act)].paWaiting = true ∧ s.chan[(0 : Act)].due = [] ∧ s.chan[(0 : Act)].gate = false) ∧
    (let s := withChan (fun c => { c with link := .management 0x8F00#16 })
     s.canonical = true ∧ s.chan[(0 : Act)].link = .management 0x8F00#16 ∧ (0x8F00#16).getLsbD 15 = true) := by
  refine ⟨⟨rfl, rfl, rfl, rfl⟩, rfl, ⟨by decide, by decide, by decide, by decide⟩, ⟨rfl, rfl, rfl⟩, rfl, rfl, rfl⟩

/-! ### Actuators -/

/-- A servo span whose SAM stands at offset −4, and whose TID and WN read 0. -/
def aSpan : WedgeRead := ⟨0xAAAAAAAAAAAAAAAAAAAABAD8#96, 10, 10, 10, 10, 1000⟩
def aSeek (second : Bool) : SeekRun := ⟨⟨5, 0, .read⟩, second, ⟨0, 81920, 0, 0, 0, 0, false⟩, false, false⟩
/-- Session 0 open, HDA 0 with its two actuators declared, ACU[0] clocked. -/
def acuUp (f : Acu → Acu) : State := (keeperIn (withAcu (fun u => f { u with clocked := true }))).setReg Reg.GLB_GEOM 0x301#32

theorem test_meets_WedgeGivesPositionOrWithdrawsPermit :
    (let s := withAcu (fun u => { u with clocked := true, state := .follow })
     s.acu[(0 : Act)].clocked = true ∧ s.crossFree (.acuChan 0 false) = true ∧ s.acu[(0 : Act)].state = .follow ∧ s.acu[(0 : Act)].seek = none ∧
     (∀ o : Fin 9, samAt { aSpan with bits := 0#96 }.bits o.val = false) ∧
     wedgeMissing (readWedge aSpan) s.cfg.acts[(0 : Act)].amin s.chan[(0 : Act)].frame true = false ∧ s.seqOk (wedgeStore 0) = true ∧
     s.seqOk (acuStore 0) = true ∧ aSpan.burstA + aSpan.burstB ≠ 0 ∧ aSpan.burstC + aSpan.burstD ≠ 0) ∧
    (let s := (withAcu (fun u => { u with clocked := true })).send (.acuChan 0 false) .doubt
     s.acu[(0 : Act)].clocked = true ∧ s.crossFree (.acuChan 0 false) = false) ∧ blank.acu[(0 : Act)].clocked = false := by decide +kernel

theorem test_meets_SeekCourse :
    (withAcu (fun u => { u with state := .follow })).acu[(0 : Act)].state = .follow ∧
    blank.acu[(0 : Act)].state = .ramp ∧
    (let s := withAcu (fun u => { u with state := .settle, seek := some (aSeek false), rdRun := 255, settleWedges := 255 })
     s.acu[(0 : Act)].state = .settle ∧ s.acu[(0 : Act)].seek = some (aSeek false) ∧ (aSeek false).cmd.intent = .read ∧
     max 1 (Fld.ACU_SETTLE_CFG_RD_N.get s.acu[(0 : Act)].settleCfg) ≤ s.acu[(0 : Act)].rdRun) ∧
    (let k := { aSeek false with cmd := ⟨5, 0, .write⟩ }
     let s := withAcu (fun u => { u with state := .settle, seek := some k, wrRun := 255 })
     s.acu[(0 : Act)].seek = some k ∧ k.cmd.intent = .write ∧ max 1 (Fld.ACU_SETTLE_CFG_WR_N.get s.acu[(0 : Act)].settleCfg) ≤ s.acu[(0 : Act)].wrRun) ∧
    (let s := withAcu (fun u => { u with state := .settle, seek := some (aSeek true), settleWedges := 255 })
     s.acu[(0 : Act)].seek = some (aSeek true) ∧ (aSeek true).second = true ∧ s.settleTmo 0 ≤ s.acu[(0 : Act)].settleWedges ∧
     s.acu[(0 : Act)].rdRun < max 1 (Fld.ACU_SETTLE_CFG_RD_N.get s.acu[(0 : Act)].settleCfg) ∧ s.sevOf (srcAct 0 1) < 2) ∧
    (let s := withAcu (fun u => { u with state := .settle, seek := some (aSeek false), settleWedges := 0 })
     s.acu[(0 : Act)].settleWedges < s.settleTmo 0) := by decide +kernel

theorem test_meets_ServoLockConfirmedAndLost :
    4 ≤ (withAcu (fun u => { u with lockRun := 4, state := .loading })).acu[(0 : Act)].lockRun ∧
    (let s := withAcu (fun u => { u with state := .follow, missRun := 4 })
     s.acu[(0 : Act)].state = .follow ∧ s.cfg.acts[(0 : Act)].lostN ≤ s.acu[(0 : Act)].missRun ∧ s.sevOf (srcAct 0 2) < 2) ∧
    (let s := withAcu (fun u => { u with state := .seek, missRun := 8 })
     s.acu[(0 : Act)].state = .seek ∧ 8 ≤ s.acu[(0 : Act)].missRun) := by decide +kernel

theorem test_meets_LoadsAndParks :
    (let s := (withAcu (fun u => { u with clocked := true })).modPower (fun p => { p with phase := .run })
     s.acu[(0 : Act)].state = .ramp ∧ s.acu[(0 : Act)].clocked = true ∧ s.power.phase ≠ .held) ∧
    (let s := withAcu (fun u => { u with state := .loading })
     s.acu[(0 : Act)].state = .loading ∧ s.acu[(0 : Act)].servoLock = false ∧ s.sevOf (srcAct 0 3) < 2) ∧
    (let s := withAcu (fun u => { u with state := .lost })
     s.canonical = true ∧ s.acu[(0 : Act)].state = .lost) ∧
    (let s := acuUp (fun u => { u with state := .follow })
     s.canonical = true ∧ s.acuWritable 0 0 = true ∧ s.acu[(0 : Act)].state = .follow) ∧
    (let s := (withAcu (fun u => { u with state := .settle })).modPower (fun p => { p with stopWait := p.stopWait.set 0 true })
     s.power.stopWait[(0 : Act)] = true ∧ s.chan[(0 : Act)].cur.isNone = true ∧ s.acu[(0 : Act)].state = .settle) ∧
    (let s := withAcu (fun u => { u with state := .parking, park := some .drive, latchRun := 400 })
     s.acu[(0 : Act)].state = .parking ∧ s.acu[(0 : Act)].park = some .drive ∧ 400 ≤ s.acu[(0 : Act)].latchRun) := by decide +kernel

theorem test_meets_WritePermitFollowsCauses :
    (withAcu (fun u => { u with shockIn := true })).acu[lowAct 0].shockIn = true ∧
    (withAcu (fun u => { u with shockLeft := some 0 })).acu[(0 : Act)].shockLeft = some 0 ∧
    (withAcu (fun u => { u with masatRun := 255 })).canonical = true ∧ (withAcu (fun u => { u with masatRun := 255 })).masatPresent 0 = true ∧
    (let s := withAcu (fun u => { u with state := .follow, pesValid := true, speedIn := false, wrRun := 255, tolRun := 255, masatRun := 0 })
     s.wiLive 0 = 0 ∧ max 1 (Fld.ACU_PES_LIM_COUNT.get s.acu[(0 : Act)].pesLim) ≤ s.acu[(0 : Act)].tolRun) ∧
    blank.wiLive 0 ≠ 0 := by decide +kernel

theorem test_meets_CurrentLoopGivesDuty :
    (let s := withAcu (fun u => { u with clocked := true, state := .settle })
     s.acu[(0 : Act)].clocked = true ∧ s.acu[(0 : Act)].state = .settle) ∧ blank.acu[(0 : Act)].state = .ramp := by decide +kernel

theorem test_meets_CoefficientWritesApplied :
    let s := acuUp id
    s.may 0 .operator = true ∧ s.unitClocked (.acu 0) = true ∧ s.bitF (cleSelKey 0 (.acu 0)) Fld.ACU_CLE_SEL_AUTOINC = false ∧
    s.getF (cleSelKey 0 (.acu 0)) Fld.ACU_CLE_SEL_STAGE < 12 ∧ s.getF (cleSelKey 0 (.acu 0)) Fld.ACU_CLE_SEL_ITEM < 5 ∧
    (s.loopOf (.acu 0) (s.cleLoop 0 (.acu 0))).waiting = [] := by decide +kernel

/-! ### Spindles -/

/-- Session 0 of a Keeper, HDA 0 declared and in Maintenance, its SCU clocked, the motor bus up, SPD_MAX 7,200, START_TRIES 3. -/
def scuUp (f : Scu → Scu) : State :=
  let s := ((keeperIn (withScu (fun u => f { u with clocked := true }))).setReg Reg.GLB_GEOM 0x301#32).setF (Reg.UST_HDA 0) Fld.UST_HDA_ADM 3
  { s.modPower (fun p => { p with mbusHi := true }) with
    cfg := { s.cfg with spin := s.cfg.spin.set 0 { SpindleCfg.none with spdMax := 7200, startTries := 3 } } }

theorem test_meets_SpindleStartSequence :
    ((scuUp id).cmdAllowed 0 0 = true ∧ (scuUp id).power.mbusHi = true ∧ (scuUp id).scu[(0 : Hda)].state = .stopped) ∧
    (let s := withScu (fun u => { u with state := .detect, measuring := true })
     s.scu[(0 : Hda)].state = .detect ∧ s.scu[(0 : Hda)].measuring = true ∧ s.scu[(0 : Hda)].lossPending = false ∧
     s.power.placed[(0 : Hda)] = false ∧ s.power.buRun[(0 : Hda)] = false) ∧
    (let s := scuUp (fun u => { u with state := .detect })
     s.scu[(0 : Hda)].state = .detect ∧ s.scu[(0 : Hda)].measuring = false ∧ s.scu[(0 : Hda)].lossPending = false ∧ s.power.mbusHi = true) ∧
    (withScu (fun u => { u with state := .align })).scu[(0 : Hda)].state = .align ∧
    (let s := withScu (fun u => { u with state := .openloop, obsLock := true })
     s.scu[(0 : Hda)].state = .openloop ∧ s.scu[(0 : Hda)].obsLock = true ∧
     openReached s.cfg.spin[(0 : Hda)] s.scu[(0 : Hda)].olPeriods s.cfg.spin[(0 : Hda)].handover = true) ∧
    (let s := scuUp (fun u => { u with state := .openloop, obsSpeed := -1 })
     s.scu[(0 : Hda)].state = .openloop ∧ s.scu[(0 : Hda)].obsSpeed < 0 ∧ s.scu[(0 : Hda)].startFails + 1 < s.cfg.spin[(0 : Hda)].startTries) ∧
    (let s := scuUp (fun u => { u with state := .openloop, startFails := 2 })
     s.scu[(0 : Hda)].obsLock = false ∧ openReached s.cfg.spin[(0 : Hda)] s.scu[(0 : Hda)].olPeriods (2 * s.cfg.spin[(0 : Hda)].handover) = true ∧
     s.cfg.spin[(0 : Hda)].startTries ≤ s.scu[(0 : Hda)].startFails + 1 ∧ s.sevOf (srcHda 0 0) < 2) ∧
    (let s := scuUp (fun u => { u with state := .coast, tryWait := true })
     s.scu[(0 : Hda)].state = .coast ∧ s.scu[(0 : Hda)].tryWait = true ∧ s.power.mbusHi = true) ∧
    (let s := scuUp (fun u => { u with state := .zvbrake, afterZv := .align })
     s.scu[(0 : Hda)].state = .zvbrake ∧ s.scu[(0 : Hda)].afterZv = .align ∧ s.scu[(0 : Hda)].shortLow = false ∧
     s.scu[(0 : Hda)].startFails + 1 < s.cfg.spin[(0 : Hda)].startTries) := by
  decide +kernel

theorem test_meets_SpindleStops :
    (let s := scuUp (fun u => { u with state := .run })
     s.cmdAllowed 0 0 = true ∧ s.scu[(0 : Hda)].state = .run ∧ s.bitF (Reg.SCU_CHOP 0) Fld.SCU_CHOP_REGEN_OFF = false) ∧
    (let s := withScu (fun u => { u with state := .zvbrake, afterZv := .stop, shortLow := true })
     s.scu[(0 : Hda)].state = .zvbrake ∧ s.scu[(0 : Hda)].afterZv = .stop ∧ s.scu[(0 : Hda)].shortLow = true) ∧
    (let s := withScu (fun u => { u with state := .run, badRes := 1 })
     s.scu[(0 : Hda)].state = .run ∧ s.scu[(0 : Hda)].catching = false ∧ s.resN 0 ≤ s.scu[(0 : Hda)].badRes ∧ s.sevOf (srcHda 0 1) < 2) ∧
    (let s := withScu (fun u => { u with state := .coast, lossPending := true })
     s.scu[(0 : Hda)].state = .coast ∧ s.scu[(0 : Hda)].lossPending = true) ∧
    (let s := withScu (fun u => { u with state := .bushold })
     s.scu[(0 : Hda)].state = .bushold ∧ s.bothDown 0 = true) := by decide +kernel

theorem test_meets_SpindlePeriodAndTarget :
    (let s := scuUp (fun u => { u with state := .accel })
     s.scu[(0 : Hda)].clocked = true ∧ s.scu[(0 : Hda)].state = .accel ∧ s.seqOk (scuStore 0) = true) ∧
    (let s := withScu (fun u => { u with state := .accel, goodRun := 64 })
     64 ≤ s.scu[(0 : Hda)].goodRun ∧ s.scu[(0 : Hda)].state.observes = true) ∧
    (let s := withScu (fun u => { u with state := .run, tolRun := 4 })
     s.scu[(0 : Hda)].state = .run ∧ 4 ≤ s.scu[(0 : Hda)].tolRun) ∧
    (let s := scuUp (fun u => { u with state := .run })
     s.canonical = true ∧ s.scuWritable 0 0 .keeper = true ∧ 3600 ≤ Fld.SCU_CTRL_TARGET.get 0x1C20#32 ∧
     Fld.SCU_CTRL_TARGET.get 0x1C20#32 ≤ s.cfg.spin[(0 : Hda)].spdMax ∧ s.scu[(0 : Hda)].state = .run ∧
     s.getF (Reg.SCU_CTRL 0) Fld.SCU_CTRL_TARGET ≠ Fld.SCU_CTRL_TARGET.get 0x1C20#32) ∧
    Fld.SCU_CTRL_TARGET.get 3599#32 < 3600 := by decide +kernel

theorem test_meets_ChopperFaults :
    (let s := withScu (fun u => { u with chopOn := true })
     s.canonical = true ∧ s.scu[(0 : Hda)].chopOn = true ∧ s.scu[(0 : Hda)].chopAt < s.scu[(0 : Hda)].vbus + 100 ∧ s.sevOf (srcHda 0 3) < 2) ∧
    (blank.canonical = true ∧ blank.scu[(0 : Hda)].chopOn = false) ∧
    ((scuUp id).canonical = true ∧ (scuUp id).scuWritable 0 0 .operator = true ∧ (15#32 : Word).toNat % 16 = 15) := by decide +kernel

/-! ### Microcode stores -/

/-- A program of one word, with its check bits. -/
def oneWord (q : Fin 64) (w : BitVec 128) : Prog := ⟨0, 0, 0, [w], [secdedCheck (isPick q) w], []⟩
/-- The store q runs a program of one word. -/
def atOne (q : Fin 64) (w : BitVec 128) : State :=
  blank.modStore q (fun t => { t with running := true, held := false, active := some (oneWord q w), pc := 0 })
theorem blank_jq (q : Fin 64) : blank.jq[q] = storeReset := by simp [blank, State.reset]
theorem atOne_store (q : Fin 64) (w : BitVec 128) :
    (atOne q w).jq[q] = { storeReset with running := true, held := false, active := some (oneWord q w), pc := 0 } := by
  rw [atOne, State.modStore_same, blank_jq]
theorem atOne_atWord (q : Fin 64) (w : BitVec 128) : (atOne q w).atWord q w := by
  refine ⟨?_, ?_, ?_, oneWord q w, ?_, ?_, ?_⟩
  · rw [atOne_store]
  · rw [atOne_store]
  · simp [atOne, State.modStore, State.storeFailed, State.bit, State.getF, State.reg, blank, sget, Fld.get]
  · rw [atOne_store]
  · rw [atOne_store]; rfl
  · rw [atOne_store]; rfl
theorem atOne_quiet (q : Fin 64) (w : BitVec 128) : (atOne q w).jq[q].armed = false ∧ (atOne q w).jq[q].file = [] ∧
    (atOne q w).jq[q].ports = [] ∧ (atOne q w).jq[q].flags = 0#4 := by
  rw [atOne_store]; exact ⟨rfl, rfl, rfl, rfl⟩

theorem test_meets_ShedArithmetic :
    (∀ op ∈ [1, 2, 3, 4, 7, 8], wf (BitVec.ofNat 128 (op * 2 ^ 32)) 37 32 = op) ∧
    (∀ (u : ShedUnit) (w : BitVec 128), (atOne (shedStore u) w).atWord (shedStore u) w ∧ (atOne (shedStore u) w).jq[shedStore u].armed = false ∧
      (atOne (shedStore u) w).jq[shedStore u].file = []) :=
  ⟨by decide +kernel, fun _ _ => ⟨atOne_atWord _ _, (atOne_quiet _ _).1, (atOne_quiet _ _).2.1⟩⟩

theorem test_meets_ShedMovesAndPorts :
    (∀ op ∈ [0, 5, 6, 9, 10, 11, 12, 13], wf (BitVec.ofNat 128 (op * 2 ^ 32)) 37 32 = op ∧ wf (BitVec.ofNat 128 (op * 2 ^ 32)) 30 30 = 0 ∧
      wf (BitVec.ofNat 128 (op * 2 ^ 32)) 29 24 = 0) ∧
    wf (BitVec.ofNat 128 (63 * 2 ^ 24)) 29 24 = 63 ∧ wf (BitVec.ofNat 128 (13 * 2 ^ 32 + 2 ^ 100)) 100 100 = 1 ∧
    (∀ (u : ShedUnit) (w : BitVec 128), (atOne (shedStore u) w).atWord (shedStore u) w ∧ (atOne (shedStore u) w).jq[shedStore u].armed = false ∧
      (atOne (shedStore u) w).jq[shedStore u].file = [] ∧ (atOne (shedStore u) w).jq[shedStore u].ports = [] ∧
      (atOne (shedStore u) w).jq[shedStore u].flags = 0#4) :=
  ⟨by decide +kernel, by decide +kernel, by decide +kernel, fun _ _ => ⟨atOne_atWord _ _, atOne_quiet _ _⟩⟩

theorem test_meets_PickWordsSequence :
    isPick 31 = true ∧ isPick 48 = true ∧ (∀ w, (atOne 31 w).jq[(31 : Fin 64)].armed = false) ∧ (atOne 31 (BitVec.ofNat 128 (2 ^ 36))).atWord 31 (BitVec.ofNat 128 (2 ^ 36)) ∧
    wf 0#128 36 35 = 0 ∧ wf (BitVec.ofNat 128 (63 * 2 ^ 28)) 33 28 = 63 ∧ wf (BitVec.ofNat 128 (2 ^ 35 + 2 ^ 29)) 36 35 = 1 ∧
    1 < wf (BitVec.ofNat 128 (2 ^ 35 + 2 ^ 29)) 33 28 ∧ wf (BitVec.ofNat 128 (2 ^ 36)) 36 35 = 2 ∧ wf (BitVec.ofNat 128 (2 ^ 36)) 49 49 = 0 ∧
    unitFixes 31 (wf (BitVec.ofNat 128 (2 ^ 35 + 2 ^ 29)) 33 28) = false :=
  ⟨by decide, by decide, fun w => (atOne_quiet 31 w).1, atOne_atWord _ _, by decide +kernel, by decide +kernel, by decide +kernel, by decide +kernel,
    by decide +kernel, by decide +kernel, by decide +kernel⟩

theorem test_meets_StoresArmSwapAbandon :
    (let s := (keeperIn blank).modStore 0 (fun t => { t with stgValid := true, running := true })
     s.canonical = true ∧ s.may 0 .keeper = true ∧ s.jq[(0 : Fin 64)].stgValid = true ∧ s.jq[(0 : Fin 64)].running = true ∧ s.storeFailed 0 = false) ∧
    (let s := ((keeperIn blank).modStore 0 (fun t => { t with armed := true, waitIdle := true })).setB Reg.JQ_ACT Fld.JQ_ACT_BUSY true
     s.groupIdle (.acu 0) = true ∧ s.groupHeld (.acu 0) = false ∧ (0 : Fin 64) ∈ groupStores (.acu 0) ∧ s.jq[(0 : Fin 64)].armed = true ∧ s.jq[(0 : Fin 64)].waitIdle = true ∧
     s.bitF Reg.JQ_ACT Fld.JQ_ACT_BUSY = true ∧ s.canonical = true ∧ s.may 0 .keeper = true) := by decide +kernel

/-- The CRC bytes `l` of block 0 of store 0 in the first shadow slot; the block itself holds zero words. The store stands held at a program of one zero
word. -/
def repairing (l : List Byte) : State :=
  { blank.modStore 0 (fun t => { t with held := true, active := some (oneWord 0 0#128) }) with
    hbm := [(0x08010000, l.getD 0 0), (0x08010001, l.getD 1 0), (0x08010002, l.getD 2 0), (0x08010003, l.getD 3 0)] }
theorem repairing_block (l : List Byte) : (repairing l).hbmRead (shadowAddr false 0 (0 / 64)) (64 * wordSize true) = zeros 768 := by
  rw [State.hbmRead, zeros, show (768 : Nat) = 64 * wordSize true from rfl, List.eq_replicate_iff]
  refine ⟨by simp, fun b hb => ?_⟩
  obtain ⟨i, hi, rfl⟩ := List.mem_map.mp hb
  have hi : i < 768 := List.mem_range.mp hi
  have hz : (if false = true then 0x08800000 else 0x08000000) + 0x20000 * (0 : Fin 64).val + 1024 * (0 / 64) + i = 0x08000000 + i := by simp
  simp only [State.hbmByte, shadowAddr, hz, repairing, sget]
  rw [if_pos (show 0x08000000 + i < hbmSize by rw [hbmSize]; omega)]
  simp only [show (0x08010000 = 0x08000000 + i) = False by simp; omega, show (0x08010001 = 0x08000000 + i) = False by simp; omega,
    show (0x08010002 = 0x08000000 + i) = False by simp; omega, show (0x08010003 = 0x08000000 + i) = False by simp; omega, if_false]
theorem repairing_crc (l : List Byte) (h : l.length = 4) : (repairing l).hbmRead (shadowCrcAddr false 0 (0 / 64)) 4 = l := by
  match l, h with
  | [a, b, c, d], _ => simp [State.hbmRead, State.hbmByte, repairing, shadowCrcAddr, sget, List.range_succ, hbmSize]
theorem test_meets_StoresArmSwapAbandon_repair :
    let s := repairing (leBytes 4 (crc32c (zeros 768)).toNat)
    s.jq[(0 : Fin 64)].held = true ∧ s.storeFailed 0 = false ∧ s.jq[(0 : Fin 64)].active = some (oneWord 0 0#128) ∧
    s.repaired s.jq[(0 : Fin 64)].slot 0 (isPick 0) (oneWord 0 0#128) s.jq[(0 : Fin 64)].pc ⟨.clean, .clean⟩ = some (oneWord 0 0#128) := by
  have key : ∀ l : List Byte, l = leBytes 4 (crc32c (zeros 768)).toNat →
      (repairing l).jq[(0 : Fin 64)].held = true ∧ (repairing l).storeFailed 0 = false ∧ (repairing l).jq[(0 : Fin 64)].active = some (oneWord 0 0#128) ∧
      (repairing l).repaired (repairing l).jq[(0 : Fin 64)].slot 0 (isPick 0) (oneWord 0 0#128) (repairing l).jq[(0 : Fin 64)].pc ⟨.clean, .clean⟩ =
        some (oneWord 0 0#128) := by
    intro l hl
    have h : (repairing l).shadowWord false 0 true 0 .clean = some 0#128 := by
      rw [State.shadowWord_clean _ _ _ _ _ (repairing_block l), repairing_crc l (by rw [hl, leBytes_length]), hl, leNat_leBytes,
        if_pos (Nat.mod_eq_of_lt (show _ < 256 ^ 4 from (crc32c (zeros 768)).isLt))]
      decide +kernel
    have hj : (repairing l).jq[(0 : Fin 64)] = { storeReset with held := true, active := some (oneWord 0 0#128) } := by
      have := State.modStore_same blank 0 (fun t => { t with held := true, active := some (oneWord 0 0#128) })
      rw [blank_jq] at this; exact this
    refine ⟨by rw [hj], by simp [repairing, State.modStore, State.storeFailed, State.bit, State.getF, State.reg, blank, sget, Fld.get], by rw [hj], ?_⟩
    rw [hj]
    simp only [State.repaired, show isPick 0 = true by decide, storeReset, h]
    decide +kernel
  exact key _ rfl

/-! ### Host ports -/

def aTask (st : CState) (cls : Nat) (cdb : List Byte) : Ctx :=
  { served.mkCtx (aFrame cdb []) (some aLu) ⟨cls, 0, 1, 0, 4096, true⟩ 0 with state := st }
def withTask (x : Ctx) : State := served.modIntake (fun i => { i with ctxs := [(3, x)] })

theorem test_meets_LinksComeAndGo :
    served.canonical = true ∧ served.power.portsOn = true ∧ served.linkUp 0 0 = true := by decide +kernel

theorem test_meets_NexusesAndQuotas :
    (served.intake.initTab.any (fun e => e.2 == ⟨0, 1⟩) = true) ∧ (served.intake.initTab.any (fun e => e.2 == ⟨0, 2⟩) = false) ∧
    served.freeInit = some 1 ∧ served.nexusBusy 0 = false ∧ (keeperIn served).may 0 .keeper = true ∧
    (keeperIn served).luCfg ((keeperIn served).getF (bank 0 Reg.INT_LU_SEL) Fld.INT_LU_SEL_LU) = some aLu ∧ (keeperIn served).canonical = true := by
  decide +kernel

/-- A table of n entries taken. -/
def tableOf (n : Nat) : State := served.modIntake (fun i => { i with initTab := (List.range n).map (fun k => (k, ⟨0, BitVec.ofNat 64 (k + 1)⟩)) })

theorem aget_mem_isSome {α : Type} : ∀ (l : List (Nat × α)) (k : Nat), k ∈ l.map (·.1) → (aget l k).isSome = true
  | [], _, h => by simp at h
  | (k', v) :: t, k, h => by
    unfold aget; split
    · rfl
    · rename_i hne; simp only [List.map_cons, List.mem_cons] at h
      exact aget_mem_isSome t k (h.resolve_left (fun e => hne e.symm))

theorem tableOf_taken (n i : Nat) (h : i < n) : (aget (tableOf n).intake.initTab i).isSome = true := by
  refine aget_mem_isSome _ i ?_
  simp only [tableOf, State.modIntake, List.map_map, List.mem_map, List.mem_range, Function.comp]
  exact ⟨i, h, rfl⟩

theorem test_meets_NexusesAndQuotas_full : (tableOf 2048).freeInit = none := by
  unfold State.freeInit; rw [List.find?_eq_none]
  intro i hi e
  have h := tableOf_taken 2048 i (List.mem_range.1 hi)
  cases hg : aget (tableOf 2048).intake.initTab i <;> simp_all

def aTmf : TmfFrame := ⟨0, 0, 9, zeros 8, 7⟩
theorem test_meets_TaskManagement :
    served.known 0 0 = true ∧ tmfLunOk aTmf = true ∧ (served.luCfg (tmfLu aTmf)).isSome = true ∧ served.linkUp 0 0 = true ∧
    (aget served.intake.initTab 0).isSome = true ∧ aLu ∈ served.cfg.lus ∧ served.lossTime aLu.lu ≠ 0xFFFF ∧
    (let s := served.modIntake (fun k => { k with tmfs := [⟨0, 0, 9, [3]⟩] })
     s.intake.tmfs = [⟨0, 0, 9, [3]⟩] ∧ ∀ c ∈ [3], s.ctx? c = none) := by decide +kernel

def aBurst : RxBurst := ⟨3, 0, 4096, 0, []⟩
def aData : DataFrame := ⟨0, 0, 7, 0, zeros 1024⟩
theorem test_meets_WriteDataPaced :
    (let x := { aTask .dataIn 1 [0x8A] with outstanding := true }
     let s := { withTask x with shu := { served.shu with hostQ := [⟨.hostIn, 3, 0, 1⟩] } }
     s.nextXfer 0 = some (⟨.hostIn, 3, 0, 1⟩, x)) ∧
    (let x := aTask .dataIn 1 [0x8A]
     let s := { withTask x with shu := { served.shu with rx := [aBurst] } }
     s.known 0 0 = true ∧ s.taskOf 0 0 7 = some 3 ∧ s.ctx? 3 = some x ∧ x.state ≠ .stopping ∧ x.abort = false ∧ x.response = [] ∧
     s.rxOf 3 = some aBurst ∧ aBurst.next = aBurst.lo ∧ aBurst.lo < aBurst.hi ∧ s.respTime x.lu ≠ 0 ∧ s.hasSent 3 x = true ∧ s.canonical = true ∧
     s.intake.ctxs = [(3, x)] ∧ x.port = 0) ∧
    aData.data.length = 1024 ∧ served.taskOf 0 0 7 = none ∧ served.waitOf 0 0 7 = none ∧
    (let w : Waiting := ⟨aFrame ([0x8A#8] ++ zeros 12 ++ [1#8]) [], 0, false⟩
     let s := served.modIntake (fun i => { i with admq := [w] })
     s.canonical = true ∧ s.known 0 0 = true ∧ s.taskOf 0 0 7 = none ∧ s.waitOf 0 0 7 = some w) := by decide +kernel

theorem test_meets_ReadDataPinsAndWaiting :
    (let x := aTask .dataOut 0 [0x88]
     let s := { withTask x with shu := { served.shu with hostOut := served.shu.hostOut.set 0 [⟨3, 0, zeros 4096, 0⟩] } }
     s.nextOut 0 = some (3, x, zeros 1024) ∧ x.err = none ∧ x.pinFrom = [] ∧ x.preds = []) ∧
    (let s := withTask (aTask .linger 1 [0x8A]); s.canonical = true ∧ s.intake.ctxs = [(3, aTask .linger 1 [0x8A])]) ∧
    (let w : Waiting := ⟨aFrame ([0x88#8] ++ zeros 12 ++ [1#8]) [], 0, false⟩
     let s := served.modIntake (fun i => { i with admq := [w] })
     let a : Ask := ⟨0, 0, 1, 0, 4096, true⟩
     s.canonical = true ∧ s.power.phase = .run ∧ s.activating = false ∧ s.frameCfg w.frame = some aLu ∧ s.check4 aLu w.frame = .ok a ∧
     s.checks56 aLu (s.mkCtx w.frame (some aLu) a 0) = none ∧ s.check7 aLu (s.mkCtx w.frame (some aLu) a 0) [w] = none ∧
     (∀ b : Act, s.sch[b].pass = none) ∧ s.ctxFits (some 0) = true ∧ s.creelAnswer 0 a.bobbins = .grant ∧
     (s.setReg Reg.INT_STAT 0#32).ctxFits (some 0) = false) := by decide +kernel

/-! ### Commands of the host -/

/-- The conditions of a clear way, as a check. -/
def clearB (s : State) (f : CmdFrame) (l : LuCfg) (a : Ask) : Bool :=
  s.canonical && decide (s.power.phase = .run) && s.known f.port.val f.init.val && decide (f.cdb.length = 16 ∧ f.addLen = 0)
  && !frameNaca f && decide (s.frameCfg f = some l) && decide (s.intake.ctxs = [] ∧ s.intake.admq = [] ∧ s.hed.retired = [])
  && allActs.all (fun b => s.sch[b].pass == none) && !s.activating && decide (s.intake.uas = []) && decide (aget s.intake.exceptions l.lu = none)
  && decide (s.check4 l f = .ok a) && decide (s.checks56 l (s.mkCtx f (some l) a 0) = none)
  && decide (s.check7 l (s.mkCtx f (some l) a 0) [] = none) && s.ctxFits (some l.lu) && decide (a.bobbins = 0 ∨ s.creelAnswer l.lu a.bobbins = .grant)

theorem clearWay_of {s : State} {f : CmdFrame} {l : LuCfg} {a : Ask} (h : clearB s f l a = true) : ClearWay s f l a := by
  simp only [clearB, Bool.and_eq_true, decide_eq_true_eq, Bool.not_eq_true', List.all_eq_true, beq_iff_eq] at h
  obtain ⟨⟨⟨⟨⟨⟨⟨⟨⟨⟨⟨⟨⟨⟨⟨h1, h2⟩, h3⟩, h4⟩, h5⟩, h6⟩, h7⟩, h8⟩, h9⟩, h10⟩, h11⟩, h12⟩, h13⟩, h14⟩, h15⟩, h16⟩ := h
  exact ⟨⟨h1, h2, h3, h4.1, h4.2, h5, h6⟩, ⟨h7.1, h7.2.1, fun a => h8 a (List.mem_finRange a), h7.2.2, h9⟩,
    by rw [h10]; simp, h11, h12, h13, h14, h15, h16⟩

/-- A CDB of at most 16 bytes as numbers. -/
def cdb (l : List Nat) : CmdFrame := aFrame (l.map (BitVec.ofNat 8)) []
def askBlk (cls : Nat) : Ask := ⟨cls, 0, 1, 0, 4096, true⟩

theorem test_meets_CommandChecks :
    served.known 0 0 = true ∧ served.known 0 1 = false ∧ served.power.phase = .run ∧ served.canonical = true ∧
    frameNaca (cdb [0, 0, 0, 0, 0, 4]) = true ∧ frameNaca (cdb [0]) = false ∧ served.frameCfg { cdb [0] with lun := [0, 9, 0, 0, 0, 0, 0, 0] } = none ∧
    served.frameCfg (cdb [0]) = some aLu ∧ served.taskOf 0 0 7 = none ∧ served.waitOf 0 0 7 = none ∧
    (served.modIntake (fun i => { i with uas := [⟨0, 0, 0x29, 1⟩] })).intake.uas.find? (fun u => u.init == 0 && u.lu == frameLu (cdb [0]))
      = some ⟨0, 0, 0x29, 1⟩ ∧ served.intake.uas = [] ∧ opSupported (cdb [0xC0]) = false ∧
    served.check4 aLu (cdb [0x12, 0, 1]) = .error fieldErr ∧
    (let s := served.setReg (Reg.UST_LU 0) (BitVec.ofNat 32 (2 ^ 4)); let a : Ask := Ask.none
     s.check4 aLu (cdb [0]) = .ok a) ∧
    (let s : State := { served with cip := { served.cip with keys := [] } }
     s.check4 aLu (cdb [0x88, 0, 0, 0, 0, 0, 0, 0, 0, 0, 0, 0, 0, 1]) = .ok (askBlk 0) ∧
     s.checks56 aLu (s.mkCtx (cdb [0x88, 0, 0, 0, 0, 0, 0, 0, 0, 0, 0, 0, 0, 1]) (some aLu) (askBlk 0) 0) = some (sense keyProtect 0x80 0)) := by
  decide +kernel

/-- LU 0 has one sequential zone, with an EMPTY, an implicitly open or an explicitly open descriptor. -/
def seqLu : LuCfg := { aLu with runs := [⟨1, 0, 0, 0, true, 0⟩] }
def aZone (cond wp : Nat) : ZDesc :=
  { cond := cond, ztype := true, valid := true, warn := false, limit := false, attempt := 0, lu := 0, head := 0, act := 0
    wp := wp, rz := 0, mzone := 0, stamp := 1, klabel := 0, defIdx := 0, defPrim := 0, defGrown := 0, gen := 0 }
def zoned (cond wp : Nat) : State :=
  { served with cfg := { served.cfg with lus := [seqLu] }, hbm := writeBytes [] (descAddr 0) (aZone cond wp).encode }

theorem test_meets_CommandsReturnTheirData :
    clearB served (cdb [0x00]) aLu Ask.none = true ∧ clearB served (cdb [0x91]) aLu Ask.none = true ∧
    clearB served (cdb [0x12, 0, 0, 0, 36]) aLu (Ask.plain 36) = true ∧ clearB served (cdb [0x12, 1, 0, 0, 36]) aLu (Ask.plain 36) = true ∧
    clearB served (cdb [0xA0, 0, 0, 0, 0, 0, 0, 0, 0, 64]) aLu (Ask.plain 64) = true ∧
    clearB served (cdb [0x1A, 0, 0x0A, 0, 36]) aLu (Ask.plain 36) = true ∧ clearB served (cdb [0x5A, 0, 0x0A, 0, 0, 0, 0, 0, 36]) aLu (Ask.plain 36) = true ∧
    clearB served (cdb [0x4D, 0, 0, 0, 0, 0, 0, 0, 36]) aLu (Ask.plain 36) = true ∧
    clearB (served.modIntake (fun i => { i with diagWritten := [(1, [1, 0, 0, 0])] })) (cdb [0x1C, 1, 1, 0, 4]) aLu (Ask.plain 4) = true ∧
    clearB served (cdb [0x3C, 3, 0, 0, 0, 0, 0, 0, 4]) aLu (Ask.plain 4) = true ∧ clearB served (cdb [0x3C, 2, 0, 0, 0, 0, 0, 0, 4]) aLu (Ask.plain 4) = true ∧
    clearB served (cdb [0x95, 0, 0, 0, 0, 0, 0, 0, 0, 0, 0, 0, 0, 128]) aLu (Ask.plain 128) = true ∧
    clearB served (cdb [0x9E, 0x10, 0, 0, 0, 0, 0, 0, 0, 0, 0, 0, 0, 32]) aLu (Ask.plain 32) = true ∧
    clearB served (cdb [0x03, 0, 0, 0, 18]) aLu (Ask.plain 18) = true ∧ served.check5 0 aLu.acts [] = none ∧ served.luLocked 0 = false := by
  decide +kernel

theorem test_meets_MediaCommandsBecomeTasks :
    clearB served (cdb [0x88, 0, 0, 0, 0, 0, 0, 0, 0, 0, 0, 0, 0, 1]) aLu (askBlk 0) = true ∧
    clearB served (cdb [0x8F, 0, 0, 0, 0, 0, 0, 0, 0, 0, 0, 0, 0, 1]) aLu (askBlk 2) = true ∧
    clearB served (cdb [0x88]) aLu ⟨0, 0, 0, 0, 0, true⟩ = true ∧ clearB served (cdb [0x8F]) aLu ⟨2, 0, 0, 0, 0, true⟩ = true ∧
    clearB served (cdb [0x8A]) aLu ⟨1, 0, 0, 0, 0, true⟩ = true ∧
    clearB served { cdb [0x07, 2] with param := zeros 12 } aLu ⟨5, 0, 1, 0, 4096, true⟩ = true ∧
    reassignList 32 ((zeros 12).drop 4) ≠ [] ∧
    clearB (zoned 1 0) (cdb [0x8A, 0, 0, 0, 0, 0, 0, 0, 0, 0, 0, 0, 0, 1]) seqLu (askBlk 1) = true ∧ ((zoned 1 0).desc 0).ztype = true ∧
    ((zoned 1 0).desc 0).cond = 1 ∧ descAddr 0 + 32 ≤ hbmSize ∧ (zoned 1 0).zones.temple.mb = [] := by decide +kernel

theorem test_meets_ZoneOperations :
    clearB (zoned 2 8) (cdb [0x94, 1]) seqLu ⟨3, 0, 0, 0, 0, false⟩ = true ∧ ((zoned 2 8).desc 0).cond = 2 ∧
    clearB (zoned 1 0) (cdb [0x94, 3]) seqLu ⟨3, 0, 0, 0, 0, false⟩ = true ∧ ((zoned 1 0).desc 0).cond = 1 ∧
    (zoned 1 0).roomToOpen seqLu = true ∧ clearB (zoned 2 8) (cdb [0x94, 3]) seqLu ⟨3, 0, 0, 0, 0, false⟩ = true ∧
    clearB (zoned 2 8) (cdb [0x94, 2]) seqLu ⟨3, 0, 0, 0, 0, false⟩ = true ∧ clearB (zoned 2 8) (cdb [0x94, 4]) seqLu ⟨3, 0, 0, 0, 0, false⟩ = true ∧
    ((zoned 2 8).desc 0).stamp < 0xFFFFFFFF ∧ (zoned 2 8).reloading 0 = false ∧ (zoned 1 0).reloading 0 = false ∧ descAddr 0 + 32 ≤ hbmSize ∧ (zoned 2 8).zones.temple.mb = [] := by decide +kernel

theorem test_meets_FormatAndSanitize :
    clearB (zoned 1 0) { cdb [0x04, 0x10] with param := zeros 4 } seqLu ⟨3, 0, 0, 0, 4, true⟩ = true ∧
    clearB (zoned 1 0) (cdb [0x48, 3]) seqLu { Ask.none with cls := 3 } = true ∧ seqLu.zones = [0] ∧ ((zoned 1 0).desc 0).klabel < 0xFFFFFFFF ∧
    ((zoned 1 0).desc 0).defPrim = 0 := by decide +kernel

theorem test_meets_ParametersAndImages :
    (let p : List Byte := [0x0A#8, 10#8] ++ zeros 10
     let s : State := { served with intake := { served.intake with modes := [(modeKey 0 0x0A 0, p)] } }
     clearB s { cdb [0x15, 0x10, 0, 0, 16] with param := zeros 4 ++ p } aLu (Ask.plain 16) = true ∧
     clearB s { cdb [0x55, 0x10, 0, 0, 0, 0, 0, 0, 20] with param := zeros 8 ++ p } aLu (Ask.plain 20) = true ∧
     splitPages 16 p = [(0x0A, 0, p)] ∧ modePages.contains (0x0A, 0) = true ∧ modeCheck 0x0A 0 (s.modePage 0 0x0A 0) p = none) ∧
    clearB served (cdb [0x1D, 0x20]) aLu (Ask.plain 0) = true ∧ clearB served (cdb [0x1D, 0x40]) aLu (Ask.plain 0) = true ∧
    clearB served (cdb [0x1D, 0x80]) aLu (Ask.plain 0) = true ∧
    clearB served { cdb [0x1D, 0x30, 0, 0, 4] with param := [1, 0, 0, 0] } aLu (Ask.plain 4) = true ∧
    (let s : State := { served with staging := ⟨some .host, false, 4, none⟩ }
     clearB s { cdb [0x3B, 0x0D, 0, 0, 0, 4, 0, 0, 4] with param := zeros 4 } aLu (Ask.plain 4) = true ∧
     s.getF Reg.INT_ACT_STAT Fld.INT_ACT_STAT_PHASE = 0) ∧
    clearB served { cdb [0x3B, 0x0D, 0, 0, 0, 0, 0, 0, 4] with param := zeros 4 } aLu (Ask.plain 4) = true ∧
    clearB served (cdb [0x3B, 0x0F]) aLu Ask.none = true := by decide +kernel

/-! ### The scheduler and the Creel -/

/-- Actuator 0 can carry a pass. -/
def ready0 : State := (served.modChan 0 (fun c => { c with locked := true })).modAcu 0 (fun c => { c with state := .follow })
/-- A write whose one segment of one block stands in a sequential zone of actuator 0. -/
def aWrite (st : CState) (done : Nat) : Ctx := { aTask st 1 [0x8A] with segs := [⟨0, 0, 0, 1, done, 0, 0, 0⟩], placed := [0], nblk := 1 }
def writeQueued : State :=
  ({ zoned 1 0 with chan := ready0.chan, acu := ready0.acu } : State).modIntake (fun i => { i with ctxs := [(3, aWrite .queued 0)] })
def aPass : SchPass := { emptyPass with write := true, blks := [⟨0, 3, 0, 0, 0, 0, false, false⟩], tracks := [(0, [0])], onTrack := true, lu := some 0 }
def savePass : SchPass := { emptyPass with kind := .internal (.save 0), write := true, onTrack := true, tracks := [(768, [])] }

theorem test_meets_SchedulerDecides :
    ((ready0.modSch 0 (fun h => { h with decided := some savePass })).sch[0].decided.isSome = true) ∧
    (let s := ready0.modSch 0 (fun h => { h with work := [(.save 0, 0)] })
     s.sch[0].decided = none ∧ s.sch[0].pass = none ∧ s.shu.ch[mediaCh 0].state = .idle ∧ s.choose 0 0 = some (.work (.save 0) 0 1)) ∧
    ready0.choose 0 0 = none ∧ ready0.schWindow 0 = [] ∧
    (let s := ready0.modSch 0 (fun h => { h with work := [(.save 0, 0)], decided := some savePass })
     s.sch[0].decided = some savePass ∧ s.sch[0].pass = none ∧ s.sch[0].work.any (fun x => x.1 == .save 0) = true) ∧
    (let s := ready0.modSch 0 (fun h => { h with work := [(.selftest 0 0 0 false, 0)] })
     s.sch[0].work.any (fun w => w.1.isSelftest && !s.sch[0].running w.1) = true) ∧
    (let s := ready0.modSch 0 (fun h => { h with pass := some savePass })
     s.passOver 0 savePass = true ∧ s.sch[0].decided = none ∧ s.zones.waits = [] ∧ savePass.complete = true ∧ s.sch[0].work = []) ∧
    (let p : SchPass := { savePass with blks := [⟨0, ctxCount, 0, 0, 0, systemMark, false, false⟩] }
     let s := ready0.modSch 0 (fun h => { h with pass := some p }); s.passOver 0 p = true ∧ p.complete = false) ∧
    (let x := aWrite .media 1
     let s := { writeQueued with intake := { writeQueued.intake with ctxs := [(3, x)] } }.modSch 0 (fun h => { h with pass := some aPass })
     s.sch[0].pass = some aPass ∧ s.passOver 0 aPass = true ∧ s.endedAt aPass = none ∧ s.sch[0].decided = none ∧ x.allWritten = true ∧
     s.growing 3 = false ∧ x.port = 0 ∧ aget s.intake.exceptions x.lu = none) := by decide +kernel

theorem test_meets_SchedulerDecides_segment :
    (match writeQueued.choose 0 0 with | some (.seg k _) => decide (writeQueued.ctx? k.c = some k.x ∧ k.x.cls ≠ 5) | _ => false) = true := by decide +kernel

/-- Pool 0 holds bobbins 0 to 99, bobbins 5 and up of them free, 5 in the head cache. -/
def pooled : State := (served.modPool 0 (fun p => { p with cache := [5] }))
def owns (b : Nat) (s : State) : State := setOwned b true s

def inPool (x : Ctx) : State := pooled.modIntake (fun i => { i with ctxs := [(3, x)] })
/-- Channel d runs a program of bank 0. -/
def chRun (d : Fin 64) (w : List (BitVec 64)) (f : ShuCh → ShuCh) (s : State) : State :=
  { s with shu := { s.shu with store := s.shu.store.set 0 w, info := s.shu.info.set 0 [(0, w.length)]
                               ch := s.shu.ch.set d (f { chIdle with state := .run }) } }
/-- MOVE of host data to bobbins with POP and PLACE, COUNT 0, internal CRC off. -/
def moveInWord : BitVec 64 := BitVec.ofNat 64 (1 + 2 * 2 ^ 8 + 2 ^ 33 + 2 ^ 34)

theorem test_meets_BobbinsMove :
    (let x := { aTask .dataIn 1 [0x8A] with credits := 1 }
     let s := chRun 0 [moveInWord] (fun c => { c with job := some ⟨.hostIn, 3, 0, 1⟩, moving := some 1 }) (inPool x)
     swf 0#64 s.creel.owned = true ∧ s.ctx? 3 = some x ∧ 0 < x.credits ∧ s.creel.pools[Fin.ofNat 65 (s.poolOf x.lu)].cache = 5 :: [] ∧
     s.bobWaits 5 = false ∧ s.wantsPop 0 3 x = true) ∧
    (let s := returnBobbin 3 0 (owns 3 pooled)
     s.canonical = true ∧ swf 0#64 s.creel.owned = true ∧ s.creel.returns = [(3, 0, false)] ∧ s.bobWaits 3 = false ∧
     s.inList (s.poolOf 0) 3 = true ∧ s.bobOwned 3 = true ∧ s.isPinned 3 = false ∧ s.poolFree (s.poolOf 0) < 2 ^ 18 - 1 ∧ s.poolOf 0 < 64 ∧
     (returnBobbin 3 0 pooled).bobOwned 3 = false) ∧
    (let s := (writeLink 0 6 (some 7) pooled).modPool 0 (fun p => { p with head := some 6 })
     s.creel.pools[0].rebuild = false ∧ s.creel.pools[0].head = some 6 ∧ s.readLink 0 6 = some (some 7) ∧ pooled.readLink 0 6 = none ∧
     pooled.sevOf 0xAC < 2 ∧ pooled.canonical = true ∧ pooled.creel.pools[0].cache.length < 16) ∧
    (pooled.modPool 0 (fun p => { p with rebuild := true })).creel.pools[0].rebuild = true ∧
    ({ pooled with creel := { pooled.creel with bitmapWait := [0] } }).creel.bitmapWait.contains 0 = true := by decide +kernel

/-! ### The Shuttle -/

def moveWord (src dst more : Nat) : BitVec 64 := BitVec.ofNat 64 (1 + src * 2 ^ 4 + dst * 2 ^ 8 + more)
def aMove (src dst : Nat) : Move := ⟨src, dst, 0, 0, 0, false, 0, false, false, false⟩
def aJob (k : JobKind) : Job := ⟨k, 3, 0, 1⟩
/-- Channel d runs one instruction on a job of context 3. -/
def onCh (d : Fin 64) (w : BitVec 64) (k : JobKind) (x : Ctx) : State := chRun d [w] (fun c => { c with job := some (aJob k), moving := some 1 }) (inPool x)
def aRead (st : CState) : Ctx := { aTask st 0 [0x88] with segs := [⟨0, 0, 0, 1, 0, 0, 0, 0⟩], nblk := 1, bobs := [9], placed := [0] }

theorem test_meets_HostJobsInOrder :
    (let x := aTask .dataIn 1 [0x8A]
     let s := inPool { x with nblk := 1 }
     s.owed 0 < s.window 0 ∧ s.nextBurst 0 = some (3, { x with nblk := 1 }) ∧ s.shu.hostQ.length < 4096 ∧ s.shu.overflow = []) ∧
    (let s := inPool (aRead .media); s.ctx? 3 = some (aRead .media) ∧ (aRead .media).placed ≠ [] ∧ s.hasHostJob 3 = false) ∧
    (let s := { pooled with shu := { pooled.shu with hostQ := [aJob .hostIn] } }
     s.shu.ch[(16 : Fin 64)].state = .idle ∧ s.shu.hostQ = aJob .hostIn :: [] ∧ s.shu.overflow = [] ∧
     ∀ e : Fin 64, 16 ≤ e.val → e.val < 16 → s.shu.ch[e].state ≠ .idle) := by decide +kernel

theorem test_meets_ShuttleProgramsRun :
    (let s := chRun 16 [moveWord 2 1 0] (fun c => { c with job := some (aJob .hostOut) }) (inPool (aRead .media))
     s.shu.ch[(16 : Fin 64)].moving = none ∧ s.shuInstr 16 = .move (aMove 2 1) ∧ s.shu.ch[(16 : Fin 64)].left = 1) ∧
    (onCh 16 (BitVec.ofNat 64 (2 + 5 * 16 + 7 * 2 ^ 12)) .hostOut (aRead .media)).shuInstr 16 = .loop 5 7 false ∧
    (let s := onCh 16 3#64 .hostOut (aRead .media); s.shuInstr 16 = .wait 0 0 ∧ s.waitMet 16 0 = true ∧
      (onCh 16 3#64 .hostOut { aRead .media with placed := [] }).waitMet 16 0 = false) ∧
    (let s := modCh 16 (fun c => { c with state := .wait }) (onCh 16 3#64 .hostOut (aRead .media))
     s.shu.ch[(16 : Fin 64)].state = .wait ∧ s.shuInstr 16 = .wait 0 0 ∧ s.waitMet 16 0 = true) ∧
    (let s := onCh 16 (BitVec.ofNat 64 (4 + 16)) .hostOut (aRead .dataOut)
     s.shuInstr 16 = .signal 1 ∧ s.intake.ctxs = [(3, aRead .dataOut)] ∧ (aRead .dataOut).err = none ∧ (aRead .dataOut).response = [] ∧
     aget s.intake.exceptions 0 = none ∧ (aRead .media).allHere = true) ∧
    (modCh 16 (fun c => { c with state := .paced }) (onCh 16 1#64 .hostOut (aRead .media))).atLo 16 = true ∧
    (let s := onCh 0 0#64 .mediaIn (aRead .media); s.shuInstr 0 = .fin ∧ s.sch[0].pass = none) ∧
    (let p : SchPass := { aPass with write := false }
     let s := ((inPool (aRead .media)).modSch 0 (fun h => { h with pass := some p }))
     s.shu.ch[mediaCh 0].state = .idle ∧ s.nextMedia p = some (3, ⟨0, 0, 0, 1, 0, 0, 0, 0⟩)) := by decide +kernel

theorem test_meets_BlocksAreMoved :
    (let x := aRead .dataOut
     let s := setPlaced 9 0 (onCh 16 (moveWord 2 1 0) .hostOut x)
     s.shuInstr 16 = .move (aMove 2 1) ∧ s.ctx? 3 = some x ∧ 0 < x.outLimit ∧ s.atHi 16 = false ∧ s.homeOf x 0 = some (9, 0) ∧ x.has 0 = true ∧
     s.isPlaced 9 0 = true ∧ x.prot = 0) ∧
    ({ onCh 16 (moveWord 2 1 0) .hostOut (aRead .dataOut) with
        shu := { (onCh 16 (moveWord 2 1 0) .hostOut (aRead .dataOut)).shu with hostOut := Vector.replicate 2 [⟨3, 0, zeros 4096, 0⟩] } }).atHi 16 = true ∧
    (let x := { aWrite .media 0 with bobs := [9] }
     let s := setPlaced 9 0 ((onCh 0 (moveWord 2 3 0) .mediaOut x).modSch 0 (fun h => { h with pass := some aPass }))
     s.shuInstr 0 = .move (aMove 2 3) ∧ s.atHi 0 = false ∧ s.homeOf x 0 = some (9, 0) ∧ s.isPlaced 9 0 = true ∧
     aPass.blks.find? (fun b => b.ctx == 3 && b.blk == 0 && !b.erase) = some ⟨0, 3, 0, 0, 0, 0, false, false⟩) ∧
    (let x := { aWrite .dataIn 0 with bobs := [9] }
     let s := onCh 16 (moveWord 0 2 0) .hostIn x
     s.canonical = true ∧ s.shuInstr 16 = .move (aMove 0 2) ∧ x.wire = 4096 ∧ x.prot = 0 ∧ blockHome x.bobs 0 = some (9, 0)) ∧
    (let x := { aRead .media with placed := [] }
     let s := onCh 0 (moveWord 4 2 (2 ^ 34)) .mediaIn x
     s.canonical = true ∧ s.shuInstr 0 = .move { aMove 4 2 with place := true } ∧ x.srcs = [] ∧ blockHome x.bobs 0 = some (9, 0)) := by decide +kernel

theorem test_meets_BlocksAreMoved_data :
    (⟨3, 0, 4096, 4096, zeros 4096⟩ : RxBurst).data.length = 4096 ∧ (⟨3, 0, zeros 4096, []⟩ : InBlock).data.length = 4096 := by
  constructor <;> exact List.length_replicate

theorem test_meets_BusErrorsHalt :
    (let x := { aWrite .dataIn 0 with bobs := [9] }
     let s := onCh 16 (moveWord 0 2 (2 ^ 30)) .hostIn x
     s.shuInstr 16 = .move { aMove 0 2 with retry := 1 } ∧ 0 < s.shu.ch[(16 : Fin 64)].left ∧ s.shu.ch[(16 : Fin 64)].fails < 1 ∧ s.sevOf 0xAD < 2 ∧
     s.canonical = true ∧ s.intake.ctxs = [(3, x)] ∧ x.port = 0 ∧ x.response = [] ∧ s.qerr x.lu ≠ 1) ∧
    (modCh 16 (fun c => { c with retryDue := true }) (onCh 16 1#64 .hostIn (aRead .media))).shu.ch[(16 : Fin 64)].retryDue = true ∧
    (onCh 16 (BitVec.ofNat 64 (3 + 2 ^ 16)) .hostIn (aRead .media)).shuInstr 16 = .wait 0 1 ∧
    (let s := keeperIn (modCh 0 (fun c => { c with state := .halted }) served)
     s.may 0 .operator = true ∧ s.getF (bank 0 Reg.SHU_CH_SEL) Fld.SHU_CH_SEL_CH = 0 ∧ s.shu.ch[(0 : Fin 64)].state = .halted ∧
     s.shu.ch[mediaCh 0].stopped = false) := by decide +kernel

/-! ### The Temple -/

/-- Entry 0 of the Temple is as given; the groups are powered. -/
def tempIn (e : TEntry) : State := (setEntry 0 e (zoned 1 0)).setReg Reg.TMP_STAT 0x3F#32
def anEntry (st : TState) (bytes : List Byte) : TEntry := ⟨0, bytes, st, false, 0, false⟩
def noEvict (s : State) : Bool := (List.finRange 48).all (fun i => match s.zones.temple.entries[i].state with | .evicting _ => false | _ => true)

theorem noEvict_of {s : State} (h : noEvict s = true) (i : Fin 48) (n : Nat) : s.zones.temple.entries[i].state ≠ .evicting n := by
  have := List.all_eq_true.1 h i (List.mem_finRange i)
  intro e; rw [e] at this; simp at this

theorem test_meets_TempleServesDescriptors :
    served.luOfZone 5 = none ∧
    (let s := tempIn (anEntry .valid (aZone 1 0).encode)
     (s.luOfZone 0).isSome = true ∧ noEvict s = true ∧ s.findEntry 0 = some 0 ∧ dchkOk (aZone 1 0).encode = true ∧
     (tempIn (anEntry .invalid [])).findEntry 0 = none ∧ (tempIn (anEntry .invalid [])).findFill 0 = none ∧
     (tempIn (anEntry .invalid [])).victim = some 0) ∧
    (let s := tempIn (anEntry .filling [])
     noEvict s = true ∧ s.zones.temple.maint = none ∧ dchkOk (s.zoneBytes 0) = true ∧ dchkOk ({ s with hbm := [] }.zoneBytes 0) = false ∧ s.sevOf 0xAE < 2 ∧
     s.canonical = true ∧ (s.zones.temple.mb.map (·.g)).Nodup ∧ descAddr 0 + 32 ≤ hbmSize) ∧
    (let s := (zoned 1 0).modTemple (fun t => { t with mb := [⟨0, []⟩] })
     s.canonical = true ∧ (s.zones.temple.mb.map (·.g)).Nodup ∧ s.zones.temple.mb = ⟨0, []⟩ :: []) ∧
    (let s := keeperIn (tempIn (anEntry .valid (aZone 1 0).encode))
     s.canonical = true ∧ s.may 0 .operator = true ∧ s.bitF Reg.TMP_MAINT Fld.TMP_MAINT_BUSY = false ∧
     s.getF Reg.TMP_MAINT_ADDR Fld.TMP_MAINT_ADDR_ZONE = 0 ∧ (s.luOfZone 0).isSome = true ∧ ({ s with cfg := { s.cfg with lus := [] } } : State).luOfZone 0 = none ∧
     s.findFill 0 = none ∧ s.findEntry 0 = some 0 ∧ 9 ≤ s.unlocked ∧ s.noFill (fun _ => true) = true ∧
     (keeperIn (tempIn (anEntry .invalid []))).findEntry 0 = none ∧ (∀ i : Fin 48, i.val / 8 = 0 → s.zones.temple.entries[i].lock = false) ∧
     s.bit Reg.TMP_STAT 1 = true ∧
     8 ≤ (List.finRange 48).countP (fun i => !(i.val / 8 == 0) && s.bit Reg.TMP_STAT (i.val / 8) && !(s.zones.temple.entries[i]).lock) ∧
     (s.setReg Reg.TMP_STAT 0#32).bit Reg.TMP_STAT 0 = false) ∧
    (let s := (zoned 1 0).modTemple (fun t => { t with cleaning := some 2 })
     s.zones.temple.cleaning = some 2 ∧ s.noFill (fun i => i.val / 8 == 2) = true) := by decide +kernel

/-! ### The cipher and the check-value units -/

/-- A served part whose LU 0 holds no key. -/
def locked0 : State := keeperIn { served with cip := { served.cip with keys := [] } }
def keyed : State := keeperIn (zoned 1 0)
def aDKey : DKey := ⟨0, 0, 0, some (zeros 32), 1⟩
def sealPass : SchPass := { aPass with keys := [(0, 0, 0)] }
def anItem : EncItem := ⟨0, 3, 0, 0, 0, 0, 0, 0, false, false, [], []⟩
def sealing0 : State :=
  { writeQueued with cip := { writeQueued.cip with derived := [aDKey] } }.modSch 0 (fun h => { h with pass := some sealPass })

theorem leNat_lt : ∀ l : List Byte, leNat l < 256 ^ l.length
  | [] => by simp [leNat]
  | b :: t => by
    have h := leNat_lt t
    have e : leNat (b :: t) = b.toNat + 256 * leNat t := rfl
    rw [e, List.length_cons, Nat.pow_succ]
    have := b.isLt; omega

theorem kcvOf_lt (k : List Byte) : kcvOf k < 2 ^ 24 := by
  have h := leNat_lt (((aesBlock (roundKeys k) (zeros 16)).take 3).reverse)
  have e : kcvOf k = leNat (((aesBlock (roundKeys k) (zeros 16)).take 3).reverse) := rfl
  have n : (((aesBlock (roundKeys k) (zeros 16)).take 3).reverse).length ≤ 3 := by simp
  have m : (256 : Nat) ^ (((aesBlock (roundKeys k) (zeros 16)).take 3).reverse).length ≤ 256 ^ 3 := Nat.pow_le_pow_right (by decide) n
  rw [e]; omega

theorem test_meets_KeysAndRekey_kcv (s : State) :
    (∃ kcv : BitVec 24, kcvOf s.stagedKey = kcv.toNat) ∧ ∃ kcv : BitVec 24, kcvOf s.stagedKey ≠ kcv.toNat := by
  have e (n : Nat) (h : n < 2 ^ 24) : (BitVec.ofNat 24 n).toNat = n := by rw [BitVec.toNat_ofNat, Nat.mod_eq_of_lt h]
  have h := kcvOf_lt s.stagedKey
  refine ⟨⟨BitVec.ofNat 24 (kcvOf s.stagedKey), (e _ h).symm⟩, ?_⟩
  by_cases h0 : kcvOf s.stagedKey = 0
  · exact ⟨1#24, by rw [h0]; decide⟩
  · exact ⟨0#24, by simpa using h0⟩

theorem test_meets_KeysAndRekey :
    locked0.canonical = true ∧ locked0.may 0 .keeper = true ∧ locked0.luCfg (locked0.keySel 0) = some aLu ∧ locked0.luLocked (locked0.keySel 0) = true ∧
    locked0.bitF (bank (locked0.keySel 0) Reg.CIP_KEY_STAT) Fld.CIP_KEY_STAT_CLEARING = false ∧ keyed.luLocked (keyed.keySel 0) = false ∧
    ({ locked0 with cfg := { locked0.cfg with lus := [] } }).luCfg 0 = none ∧ locked0.intake.ctxs = [] ∧
    (let x := aRead .queued
     let s := keeperIn (inPool x)
     s.canonical = true ∧ s.may 0 .keeper = true ∧ s.intake.ctxs = [(3, x)] ∧ x.lu = s.keySel 0 ∧ x.reserve = false ∧ x.state.begun = false ∧
     x.hasMedia = true ∧ x.port = 0 ∧ x.response = [] ∧ x.preds = []) ∧
    (let s := keyed.setB (bank 0 Reg.CIP_KEY_STAT) Fld.CIP_KEY_STAT_CLEARING true
     s.canonical = true ∧ s.bitF (bank 0 Reg.CIP_KEY_STAT) Fld.CIP_KEY_STAT_CLEARING = true ∧ s.luBusy 0 = false) ∧
    (let s := requestKey (0, 0, 0) keyed; s.cip.derivQ = (0, 0, 0) :: [] ∧ aget s.cip.keys 0 = some []) ∧
    keyed.canonical = true ∧ keyed.may 0 .keeper = true ∧ keyed.bitF Reg.CIP_REKEY_CMD Fld.CIP_REKEY_CMD_BUSY = false ∧
    keyed.luOfZone (keyed.getF Reg.CIP_REKEY_ADDR Fld.CIP_REKEY_ADDR_ZONE) = some (seqLu, 0) ∧ keyed.luCfg 0 = some seqLu ∧
    keyed.rekeyRefusal 0 0 = none ∧ keyed.hed.retired = [] ∧ keyed.activating = false ∧ keyed.zones.temple.mb = [] ∧ (keyed.desc 0).klabel < 0xFFFFFFFF ∧
    (keyed.setReg Reg.CIP_REKEY_ADDR 9#32).luOfZone 9 = none ∧ ({ keyed with cip := { keyed.cip with keys := [] } }).rekeyRefusal 0 0 = some 2 ∧
    served.may 0 .keeper = false := by decide +kernel

theorem test_meets_BlocksSealedAndChecked :
    (let s := { sealing0 with shu := { sealing0.shu with cipherOut := sealing0.shu.cipherOut.set 0 [anItem] } , cip := { sealing0.cip with lastQ := 31 } }
     s.cip.cores[(0 : Fin 4)] = none ∧ s.sch[0].pass = some sealPass ∧ (s.cip.lastQ + 1 + 0) % 32 = 2 * 0 ∧ s.shu.cipherOut[(0 : Act)] = anItem :: [] ∧
     s.chan[0].stage.length + s.sealing 0 < 2 ∧ (s.passKey sealPass 0).isSome = true ∧ sealPass.blks.any (fun b => b.tag == anItem.tag) = true) ∧
    (let d : DecodedSector := ⟨0, [], 0, ⟨false, false, false⟩, false⟩
     let s := { sealing0.modChan 0 (fun c => { c with out := [d] }) with cip := { sealing0.cip with lastQ := 0 } }
     s.cip.cores[(0 : Fin 4)] = none ∧ (s.cip.lastQ + 1 + 0) % 32 = 2 * 0 + 1 ∧ s.chan[0].out = d :: [] ∧
     s.passOf 0 0 = some (sealPass, ⟨0, 3, 0, 0, 0, 0, false, false⟩) ∧ (s.passKey sealPass 0).isSome = true ∧
     s.luOfZone 0 = some (seqLu, 0) ∧ (openFails (selvedgeOf []) 0 0 (s.desc 0) true).isSome = true) ∧
    (let s := keeperIn served; s.canonical = true ∧ s.may 0 .operator = true ∧ s.cvBound 0 = false) ∧ served.may 0 .operator = false := by decide +kernel

/-- A sealed sector with tag T: zeros, no protection information, STAMP 1, block 0 of LU 0 in a sequential zone. -/
def trailer0 : List Byte := [1#8, 0#8, 0#8, 0#8] ++ zeros 7 ++ [0x21#8]
def sealedSector (T : List Byte) : List Byte := List.replicate 4096 0#8 ++ (List.replicate 16 0#8 ++ (T ++ (trailer0 ++ zeros 4)))

theorem sealed_parts (T : List Byte) (h : T.length = 16) :
    (sealedSector T).take 4096 = List.replicate 4096 0#8 ∧ aadOf (sealedSector T) = List.replicate 16 0#8 ++ trailer0 ∧
    selvedgeOf (sealedSector T) = ⟨T, 1, 0, 0, 0, true, 0, false, false, 1⟩ := by
  have e0 : (sealedSector T).take 4096 = List.replicate 4096 0#8 := List.take_left' List.length_replicate
  have e1 : (sealedSector T).drop 4096 = List.replicate 16 0#8 ++ (T ++ (trailer0 ++ zeros 4)) := List.drop_left' List.length_replicate
  have e2 : (sealedSector T).drop 4112 = T ++ (trailer0 ++ zeros 4) := by
    have : (sealedSector T).drop 4112 = ((sealedSector T).drop 4096).drop 16 := by rw [List.drop_drop]
    rw [this, e1]; exact List.drop_left' List.length_replicate
  have e3 : (sealedSector T).drop 4128 = trailer0 ++ zeros 4 := by
    have : (sealedSector T).drop 4128 = ((sealedSector T).drop 4112).drop 16 := by rw [List.drop_drop]
    rw [this, e2]; exact List.drop_left' h
  refine ⟨e0, ?_, ?_⟩
  · unfold aadOf; rw [e1, e3, List.take_left' List.length_replicate]; rfl
  · have d (k : Nat) : (T ++ (trailer0 ++ zeros 4)).drop (16 + k) = (trailer0 ++ zeros 4).drop k := by
      rw [← List.drop_drop, List.drop_left' h]
    have d16 := d 0; have d20 := d 4; have d26 := d 10; have d27 := d 11
    norm_num only [Nat.reduceAdd] at d16 d20 d26 d27
    unfold selvedgeOf
    simp only [e2, List.take_left' h, d16, d20, d26, d27]
    rfl

def tag0 : List Byte := gcmTag (zeros 32) (nonceOf 0 0 0 1) (List.replicate 16 0#8 ++ trailer0) (List.replicate 4096 0#8)
theorem beBytes_length (n x : Nat) : (beBytes n x).length = n := by unfold beBytes; rw [List.length_reverse, leBytes_length]
theorem tag0_length : tag0.length = 16 := by
  have h : (aesBlock (roundKeys (zeros 32)) (nonceOf 0 0 0 1 ++ beBytes 4 1)).length = 16 := by decide +kernel
  unfold tag0 gcmTag xorBytes
  rw [List.length_zipWith, beBytes_length]
  exact (congrArg (min 16) h).trans (by decide)

theorem test_meets_BlocksSealedAndChecked_opens :
    let f := sealedSector tag0
    let t := selvedgeOf f
    openFails t 0 0 (aZone 1 0) (gcmTag (zeros 32) (nonceOf 0 0 t.attempt t.stamp) (aadOf f) (f.take 4096) == t.tag) = none := by
  have h := sealed_parts tag0 tag0_length
  show openFails (selvedgeOf (sealedSector tag0)) 0 0 (aZone 1 0) (gcmTag (zeros 32) (nonceOf 0 0 (selvedgeOf (sealedSector tag0)).attempt
    (selvedgeOf (sealedSector tag0)).stamp) (aadOf (sealedSector tag0)) ((sealedSector tag0).take 4096) == (selvedgeOf (sealedSector tag0)).tag) = none
  rw [h.1, h.2.1, h.2.2]
  show openFails _ _ _ _ (tag0 == tag0) = none
  rw [beq_self_eq_true]; rfl

/-! ### Heddle memories -/

def scrubbing : State := served.setB Reg.HED_SCRUB Fld.HED_SCRUB_EN true
def testAt (m w : Nat) : State := keeperIn (served.setReg Reg.HED_TEST_ADDR (BitVec.ofNat 32 (m + 2 ^ 8 * w)))

theorem test_meets_HeddleWords :
    (let s := served
     s.canonical = true ∧ 7 < macroSize 200 ∧ s.hedLoc 200 7 = 7 ∧ s.hed.due.contains (200, 7) = false ∧ hedJudge (s.hedStored 200 7 ^^^ 0#80) = .clean ∧
     hedJudge (s.hedStored 200 7 ^^^ 1#80) = .corrected 0 ∧ s.sevOf 0xB1 < 2 ∧ hedJudge (s.hedStored 200 7 ^^^ 3#80) = .uncorrectable ∧
     swf 0#64 s.creel.owned = true) ∧
    (let s := served.modHed (fun h => { h with due := [(200, 7)] })
     s.hed.due = (200, 7) :: [] ∧ s.freeRemap 200 = some 0 ∧ s.sevOf 0xB3 < 2) ∧
    (let s := (List.range 8).foldl (fun (s : State) n => s.setB (bank 200 (Reg.HED_REMAP n)) Fld.HED_REMAP_VALID true) served; s.freeRemap 200 = none) ∧
    (scrubbing.bitF Reg.HED_SCRUB Fld.HED_SCRUB_EN = true ∧ scrubbing.hed.scrub < hedWords ∧ scrubPlace (List.range 204) 0 = some (0, 0) ∧
     hedJudge (scrubbing.hedStored 0 0) = .clean) ∧
    (let s := testAt 200 7
     s.canonical = true ∧ s.may 0 .keeper = true ∧ s.bitF Reg.HED_TEST_CMD Fld.HED_TEST_CMD_BUSY = false ∧ s.getF Reg.HED_TEST_ADDR Fld.HED_TEST_ADDR_MACRO = 200 ∧
     s.getF Reg.HED_TEST_ADDR Fld.HED_TEST_ADDR_WORD = 7 ∧ hedJudge (s.hedStored 200 (s.hedLoc 200 7)) = .clean ∧
     (testAt 203 7).getF Reg.HED_TEST_ADDR Fld.HED_TEST_ADDR_MACRO = 203 ∧ 7 < macroSize 203 ∧
     (testAt 204 7).getF Reg.HED_TEST_ADDR Fld.HED_TEST_ADDR_MACRO = 204) := by decide +kernel

/-! ### Faults and crossings -/

def aRaise (src sev : Nat) : Raise := ⟨src, .none, sev, false, true, false⟩
def reporting : State := { served with raised := [aRaise 0xAD 1] }

theorem test_meets_FaultsAndCrossings :
    (reporting.canonical = true ∧ reporting.loomRuns = true ∧ reporting.raised = aRaise 0xAD 1 :: [] ∧ reporting.errnMin ≤ 1 ∧
     reporting.isPending 0xAD = false ∧ 1 < (reporting.setReg Reg.FLT_CFG 2#32).errnMin) ∧
    (let s := keeperIn served; s.canonical = true ∧ s.may 0 .operator = true ∧ s.may 0 .keeper = true ∧ s.fltSel 0 ≤ 0xB8 ∧ srcMin (s.fltSel 0) ≤ 1) ∧
    served.may 0 .operator = false ∧
    (let s := (served.setB Reg.GLB_ISLAND_STAT (lockFld .shed) true).setF (bank 0xB6 Reg.FLT_SEV) Fld.FLT_SEV_SEV 4
     s.canonical = true ∧ s.bitF Reg.GLB_ISLAND_STAT (lockFld .shed) = true ∧ s.sevOf 0xB6 = 4 ∧ s.isPending 0xB6 = false ∧ s.raised = [] ∧
     served.bitF Reg.GLB_ISLAND_STAT (lockFld .shed) = false) ∧
    (let s (x : Crossing) (w : XWord) : State := { (served.modAcu 1 (fun u => { u with clocked := true })).modScu 0 (fun u => { u with clocked := true }) with cross := xset x ⟨[w], [], (wordsOf w.msg w.total).take w.idx, none⟩ [] }
     let r (i : Nat) : XWord := ⟨.report 115200 12000 true true, i, 3⟩
     let l : XWord := ⟨.lock true, 0, 1⟩
     served.takesWords (.acuChan 0 true) = false ∧ (s (.scuAcu 1 true) (r 0)).takesWords (.scuAcu 1 true) = true ∧
     (xget (.scuAcu 1 true) (s (.scuAcu 1 true) (r 2)).cross).fifo = r 2 :: [] ∧ (r 2).total = (r 2).idx + 1 ∧
     (s (.chanScu 0) l).takesWords (.chanScu 0) = true ∧ l.total = l.idx + 1 ∧ (r 0).idx = 0 ∧ 1 < (r 0).total) := by decide +kernel

/-! ### Images -/

def aHead (n : Nat) : List Byte :=
  [0x43#8, 0x59#8, 0x46#8, 0x52#8, 1#8, 0#8, 0#8, 1#8, 0#8, 0#8, 0#8, 1#8, 0#8, 0xB0#8] ++ leBytes 2 n ++ leBytes 4 1024 ++ leBytes 4 0
    ++ zeros 8 ++ [0#8, 100#8, 8#8, 1#8] ++ zeros 216
def aHeader (n : Nat) : List Byte := aHead n ++ leBytes 4 (crc32c (aHead n)).toNat
/-- A record of one Pick word, with the digest of its words. -/
def aJq (q : BitVec 64) : JqRec :=
  let w := [BitVec.ofNat 128 (2 ^ 31)]
  { mask := q, ver := 1, iface := 0, layout := 0, words := w, digest := sha384 (mcodeBytes true w) }
def anImage (crc : Bool) (q : BitVec 64) : ImageFile :=
  ⟨aHeader 2, true, true, zeros 48,
    [⟨0, false, 64, crc, .jacquard (jqPayload true (aJq q))⟩, ⟨0xFFFFFFFF, false, 0, true, .fin⟩]⟩
def aCtx : Ctx := { served.mkCtx (cdb [0x3B, 0x0D]) (some aLu) Ask.none 0 with state := .media }

theorem test_meets_LoaderRuns :
    (let s := (served.setB Reg.GLB_READY Fld.GLB_READY_HBM true)
     s.loomRuns = true ∧ s.bitF Reg.GLB_READY Fld.GLB_READY_HBM = true ∧ s.bitF Reg.GLB_READY Fld.GLB_READY_IMAGE = false ∧ s.loader = .idle) ∧
    blank.canonical = true ∧ ({ anImage true 0 with header := [] }).headerFault ≠ none ∧
    firstBad ([true, true].take 2) 0 = none ∧ firstBad ([true, false].take 2) 0 = some 1 ∧
    ({ blank with loader := .applying .powerOn 0, cand := some (anImage true 0) } : State).canonical = true := by decide +kernel

def aGoodImage : ImageFile := { anImage true 0 with header := aHeader 1, recs := [⟨0xFFFFFFFF, false, 0, true, .fin⟩] }

theorem aGoodImage_header : aGoodImage.headerFault = none :=
  headerFault_append _ (aHead 1) (by decide +kernel) rfl (by decide +kernel) (by decide +kernel) (by decide +kernel) (by decide +kernel)

theorem test_meets_LoaderRuns_passes : blank.checkImage aGoodImage = none :=
  checkImage_none _ _ aGoodImage_header (by decide +kernel) rfl (by decide +kernel) (by decide +kernel) (by decide +kernel) (by decide +kernel)
    (by decide +kernel)

theorem test_meets_LoaderRuns_refused (s : State) : (s.checkImage { anImage true 0 with header := [] }).isSome = true := by
  simp [State.checkImage, ImageFile.headerFault, ImageFile.field, leNat]

theorem test_meets_SlotDirectoryJournal :
    (let s : State := { withTask aCtx with staging := ⟨some .host, true, 4, some [1, 2, 3, 4]⟩ }
     s.staging.erasing = true ∧ s.staging.holder = some .host ∧ s.intake.ctxs = [(3, aCtx)] ∧ aCtx.downloads = true ∧ aCtx.port = 0 ∧
     aCtx.response = [] ∧ aget s.intake.exceptions aCtx.lu = none ∧ aCtx.state ≠ .linger) ∧
    (let e : JEntry := ⟨0, 0, 10, 0, 0, 1, 0, []⟩
     let s := journalPut 0 0 10 0 [] none blank
     s.jpend = [e] ∧ s.journal.length < halfEntries ∧ s.jwait = [] ∧ (journalPut 0 0 10 0 [] (some (.ctx 3)) blank).jwait = [(e.seq, .ctx 3)]) := by
  decide +kernel

theorem test_meets_SlotDirectoryJournal_full (e : List Byte) : halfEntries ≤ ({ blank with journal := List.replicate halfEntries e } : State).journal.length := by
  rw [List.length_replicate]

theorem test_meets_ActivationCourse :
    (let s := setActPhase 1 served
     s.canonical = true ∧ s.actPhase = 1 ∧ s.stillBegun = false ∧ s.loader = .idle) ∧
    (let s := (setActPhase 1 (withTask aCtx)).modIntake (fun i => { i with actBy := some (.ctx 3) })
     s.canonical = true ∧ s.actPhase = 1 ∧ s.intake.ctxs = [(3, aCtx)] ∧ aCtx.state = .media) ∧
    (let s := (setActPhase 3 { served with cand := some (anImage true 0) }).modIntake (fun i => { i with actBy := some .mgmt })
     s.canonical = true ∧ s.actPhase = 3 ∧ s.bitF Reg.JQ_ACT Fld.JQ_ACT_BUSY = false ∧ s.intake.ctxs = []) := by decide +kernel

theorem test_meets_ActivationCourse_passes (q : Fin 64) : bankPasses [] q true (bankOf true (aJq 1)) = true :=
  bankPasses_bankOf q true (aJq 1) (by simp only [aJq])

/-! ### Power and resets -/

/-- A part with HDA 0 and its two actuators configured, in the mask of bring-up, its spindle as given, and bring-up due. -/
def readyHda (st : ScuState) (due : Option Bool) : State :=
  let s : State := { served with power := { served.power with buDue := due }
                                 scu := served.scu.set 0 { served.scu[0] with state := st } }
  (s.setReg Reg.GLB_GEOM 0x301#32).setF Reg.GLB_BU_CFG Fld.GLB_BU_CFG_HDA_MASK 1
/-- The bring-up of HDA 0 runs; actuator 0 is in a phase. -/
def inBringup (spin phase : Nat) : State :=
  (setPhase 0 phase (setSpin 0 spin (readyHda .accel none))).modPower (fun p => { p with buRun := p.buRun.set 0 true })

theorem test_meets_PowerOnAndBringup :
    State.reset.power.released = false ∧ served.power.released = true ∧ served.canonical = true ∧ served.power.mainHi = true ∧
    (let s := (served.setB Reg.GLB_READY Fld.GLB_READY_MGMT true).setB Reg.GLB_READY Fld.GLB_READY_CLOCKS true
     s.canonical = true ∧ s.loomRuns = true ∧ s.bitF Reg.GLB_READY Fld.GLB_READY_HBM = false) ∧
    (let s := served.setB Reg.GLB_READY Fld.GLB_READY_IMAGE true; s.bitF Reg.GLB_READY Fld.GLB_READY_CIPHER = false ∧ s.canonical = true) ∧
    (let s := readyHda .stopped (some true)
     s.canonical = true ∧ s.mayBringup = true ∧ s.inMask 0 = true ∧ s.hasHda 0 = true ∧ s.hdaOut 0 = false ∧ s.ownBits .hda 0 % 2 = 0 ∧
     served.power.buDue = none ∧ (keeperIn s).may 0 .keeper = true ∧ s.power.portsOn = true ∧ s.anyHalted 0 = false) ∧
    served.may 0 .keeper = false ∧ (keeperIn { served with power := { served.power with portsOn := false } }).power.portsOn = false ∧
    (let s := (readyHda .detect none).modScu 0 (fun u => { u with waitPlace := true })
     s.canonical = true ∧ s.power.mbusHi = true ∧ s.placesUsed < s.staggerN ∧ allHdas.find? (fun h => s.scu[h].waitPlace && s.scu[h].state == .detect) = some 0) ∧
    (let s := (readyHda .detect none).modPower (fun p => { p with placed := Vector.replicate 8 true }); s.staggerN ≤ s.placesUsed) ∧
    (let s := inBringup 2 8
     s.canonical = true ∧ s.power.buRun[(0 : Hda)] = true ∧ s.spinOf 0 = 2 ∧ s.phaseOf 0 = 8 ∧ s.scu[(0 : Hda)].inTol = false ∧ (0 : Act) ∈ s.actsOf 0) ∧
    (let s := (inBringup 4 1).modAcu 0 (fun u => { u with state := .follow, servoLock := true })
     s.power.buRun[hdaOf 0] = true ∧ s.phaseOf 0 = 1) ∧
    (let s := inBringup 4 2; s.phaseOf 0 = 2 ∧ s.chan[0].locked = false ∧ s.sevOf (srcAct 0 7) < 2) ∧
    (let s : State := { inBringup 4 3 with cfg := { served.cfg with acts := served.cfg.acts.set 0 { served.cfg.acts[0] with heads := 1 } } }
     s.canonical = true ∧ s.phaseOf 0 = 3 ∧ s.calLeft 0 = [] ∧ s.calBusy 0 = false ∧ 0 < s.cfg.acts[0].heads ∧ s.headOut 0 0 = false ∧
     s.power.tables[(0 : Act)] = false) ∧
    (inBringup 4 4).phaseOf 0 = 4 ∧ (inBringup 4 5).phaseOf 0 = 5 ∧ swf 0 (inBringup 4 5).own = true ∧ (inBringup 4 5).rewriting 0 = false ∧
    (raiseWork 0 (.defect 0 .copyA) (inBringup 4 5)).phaseOf 0 = 5 ∧ (raiseWork 0 (.defect 0 .copyA) (inBringup 4 5)).rewriting 0 = true := by decide +kernel

theorem test_meets_ResetsAndRestart :
    served.canonical = true ∧ served.loomRuns = true ∧ served.power.phase = .run ∧ (∀ a : Act, served.chan[a].pass = none) ∧ served.zones.temple.mb = [] ∧
    (keeperIn served).may 0 .keeper = true ∧ served.may 0 .keeper = false ∧
    ({ served.power with phase := .qualified } : Power).phase = .qualified ∧
    (let s := served.modPower (fun p => { p with phase := .held, cause := 1 })
     s.canonical = true ∧ s.power.released = true ∧ s.power.mainHi = true ∧ s.power.sysLow = false ∧ s.power.phase = .held ∧ s.power.cause < 4) ∧
    (let s := keeperIn ((readyHda .halted none).setF Reg.GLB_RST Fld.GLB_RST_MOT_HDA 3)
     let t := (s.modAcu 0 (fun u => { u with state := .halted })).modAcu 1 (fun u => { u with state := .halted })
     t.canonical = true ∧ t.may 0 .keeper = true ∧ t.bitF Reg.GLB_RST Fld.GLB_RST_MOT_BUSY = false ∧ t.actPhase = 0 ∧ t.mayReset 0 = true ∧
     t.mayReset 1 = false ∧ t.getF Reg.GLB_RST Fld.GLB_RST_MOT_HDA = 3) ∧
    (served.modPower (fun p => { p with mot := p.mot.set 0 (some .parking) })).power.mot[(0 : Hda)] = some .parking ∧
    (let s := served.modPower (fun p => { p with mot := p.mot.set 0 (some .held) })
     s.power.mot[(0 : Hda)] = some .held ∧ s.img = none ∧ s.bitF Reg.GLB_BU_CFG Fld.GLB_BU_CFG_AUTO = false ∧ s.canonical = true) := by decide +kernel

theorem test_meets_PowerRails :
    served.canonical = true ∧ served.power.mainHi = true ∧ served.power.motHi = true ∧ served.power.mbusHi = true ∧ served.power.released = true ∧
    served.sevOf 0xB8 < 2 ∧ (served.modPower (fun p => { p with mainHi := false })).power.mainHi = false ∧ (readyHda .run none).hasHda 0 = true ∧
    (let s := (readyHda .bushold none).modPower (fun p => { p with mbusHi := false, motHi := false })
     s.canonical = true ∧ s.power.mbusHi = false ∧ s.power.motHi = false ∧ s.hasHda 0 = true ∧ s.scu[(0 : Hda)].state = .bushold) ∧
    (let s := setSpin 0 4 ((readyHda .coast none).modPower (fun p => { p with mbusDelay := true }))
     s.canonical = true ∧ s.power.mbusDelay = true ∧ s.inMask 0 = true ∧ s.begun 0 = true ∧ s.scu[(0 : Hda)].state = .coast ∧ s.power.buDue = none ∧
     s.hdaOut 0 = false ∧ s.ownBits .hda 0 % 2 = 0) := by decide +kernel

/-! ### Management -/

/-- The endpoint answers, session 0 is a Keeper's, and unit registers are as they are once an image declares LU 0. -/
def managed : State := { keeperIn (served.setB Reg.GLB_READY Fld.GLB_READY_MGMT true) with mgmt := { served.mgmt with dynAddr := some 9 } }
def roleIn (r : Role) (s : State) : State := { s with sess := s.sess.set 0 ⟨.opened, r, 0, true, 0⟩ }
def exchanging (wanted : Bool) (s : State) : State := { s with sess := s.sess.set 0 ⟨.exchanging wanted, .observer, 0, false, 0⟩ }
def digest (b : Byte) : List Byte := List.replicate 48 b
/-- An anchor is installed. -/
def anchored (role slot : Nat) (b : Byte) (s : State) : State :=
  { s with journal := s.journal ++ [entryBytes ⟨1, 0, 0xF0, role * 4 + slot, 0, 1, s.jseq, digest b⟩], jseq := s.jseq + 1 }

theorem test_meets_EndpointAndSessions :
    managed.canonical = true ∧ managed.mgmtUp = true ∧ managed.isOpen 0 = true ∧ managed.isOpen 1 = false ∧
    acceptedType [0x05#8] = true ∧ managed.mgmt.asm = none ∧
    ({ managed with mgmt := { managed.mgmt with asm := some (1, [0x05#8]) } } : State).mgmtUp = true ∧
    ({ managed with mgmt := { managed.mgmt with ready := [.control 1 []] } } : State).mgmtUp = true ∧ managed.mgmt.dynAddr.isSome = true ∧
    ({ managed with mgmt := { managed.mgmt with ready := [.control 1 []], dynAddr := none } } : State).mgmtUp = true ∧
    managed.sess[(1 : Fin 4)].phase = .closed ∧ (∀ k : Fin 4, k < 1 → managed.sess[k].phase ≠ .closed) ∧
    (let s : State := { managed with sess := Vector.replicate 4 ⟨.opened, .observer, 0, true, 0⟩ }
     s.mgmtUp = true ∧ ∀ n : Fin 4, s.sess[n].phase ≠ .closed) ∧
    (exchanging false managed).mgmtUp = true := by decide +kernel

theorem test_meets_EndpointAndSessions_finish :
    (let s := exchanging true (anchored 3 0 1 (anchored 2 1 2 (anchored 1 2 3 managed)))
     s.canonical = true ∧ s.mgmtUp = true ∧ s.sess[(0 : Fin 4)].phase = .exchanging true ∧ s.mgmt.claimOpen = false ∧
     s.anchorSlot 3 (digest 1) = some 0 ∧ s.keeperOpen = false ∧
     s.anchorSlot 3 (digest 2) = none ∧ s.anchorSlot 2 (digest 2) = some 1 ∧
     s.anchorSlot 3 (digest 3) = none ∧ s.anchorSlot 2 (digest 3) = none ∧ s.anchorSlot 1 (digest 3) = some 2 ∧
     (∀ r ∈ [1, 2, 3], s.anchorSlot r (digest 4) = none) ∧
     (let u : State := { s with sess := s.sess.set 1 ⟨.opened, .keeper, 0, true, 0⟩ }
      u.anchorSlot 3 (digest 1) = some 0 ∧ u.keeperOpen = true)) ∧
    (let s := exchanging true { managed with mgmt := { managed.mgmt with claimOpen := true } }
     s.mgmt.claimOpen = true ∧ s.keeperAnchors = 0 ∧ s.mgmtUp = true ∧ (digest 1).length = 48) := by decide +kernel

/-- A message to the register at an address. -/
def toReg (op count : Byte) (a : Nat) (data : List Byte) : RegMsg := ⟨[1, op, 7, count] ++ leBytes 4 a ++ data⟩

theorem test_meets_RegistersUnitsAndFirmware_headers :
    headCheck (toReg 1 1 Reg.CAL_CFG []) 0x01 1 64 0 0 = none ∧ headCheck (toReg 2 1 Reg.CAL_CFG [1, 0, 0, 0]) 0x02 1 32 4 0 = none ∧
    headCheck (toReg 3 1 Reg.CAL_CFG (zeros 8)) 0x03 1 1 0 8 = none ∧ headCheck (toReg 4 0 0 (zeros 8)) 0x04 0 0 0 8 = none ∧
    headCheck (toReg 1 0 Reg.CAL_CFG []) 0x01 1 64 0 0 = some 0x03 ∧ headCheck (toReg 2 1 2 [1, 0, 0, 0]) 0x02 1 32 4 0 = some 0x02 ∧
    headCheck (toReg 9 1 0 (zeros 8)) 0x03 1 1 0 8 = some 0x04 ∧ headCheck (toReg 4 1 0 (zeros 8)) 0x04 0 0 0 8 = some 0x03 ∧
    managed.mgmtUp = true ∧ managed.isOpen 0 = true ∧ (roleIn .observer managed).isOpen 0 = true ∧
    (roleIn .observer managed).sess[(0 : Fin 4)].role = .observer := by decide +kernel

theorem test_meets_RegistersUnitsAndFirmware_registers :
    ∃ (d : RegDesc) (i r : Nat), managed.canonical = true ∧ managed.inSess 0 ∧ managed.sess[(0 : Fin 4)].role = .keeper ∧
      PlainReg managed 0 Reg.CAL_CFG Reg.CAL_CFG d i r ∧ d.base ≠ Reg.CREEL_POOL_PEAK ∧ (∀ u : State, u.capture (some 0) d.base r = none) := by
  have h : (regAt Reg.CAL_CFG).isSome = true := by decide +kernel
  obtain ⟨⟨d, i, r⟩, e⟩ := Option.isSome_iff_exists.mp h
  have hd : (regAt Reg.CAL_CFG).map (fun x => (x.1.base, x.2.1, x.2.2)) = some (Reg.CAL_CFG, 0, 0) := by decide +kernel
  have hf : (regAt Reg.CAL_CFG).all (fun x => x.1.fields.all (fun f => f.acc == .rw || f.acc == .rwk)) = true := by decide +kernel
  rw [e] at hd hf
  simp only [Option.map_some, Option.some.injEq, Prod.mk.injEq] at hd
  obtain ⟨b, rfl, rfl⟩ := hd
  simp only [Option.all_some, List.all_eq_true, Bool.or_eq_true, beq_iff_eq] at hf
  refine ⟨d, 0, 0, by decide +kernel, ⟨by decide +kernel, by decide +kernel⟩, rfl, ⟨e, ?_, ?_, ?_, hf, ?_, ?_, ?_⟩, ?_, ?_⟩
  all_goals rw [b]
  · decide +kernel
  · decide +kernel
  · decide +kernel
  · exact fun _ => rfl
  · exact fun _ _ _ => rfl
  · exact fun _ _ => rfl
  · decide
  · exact fun _ => rfl

/-- A request for LU 0. -/
def aUnitReq (target : Byte) (gen drainT : BitVec 16) : UnitStateReq := ⟨0, 0, target, gen, drainT, 0⟩
def aDrain (deadline : Option Nat) : Drain := ⟨.lu, 0, 2, deadline, 0⟩
def admSet (n : Nat) (s : State) : State := s.setF (ustKey .lu 0) Fld.UST_LU_ADM n

theorem test_meets_RegistersUnitsAndFirmware_units :
    (toReg 4 0 0 [0, 0, 2, 0, 0, 5, 0, 0]).state = aUnitReq 2 0 5 ∧ unitKind (aUnitReq 2 0 5).kind.toNat = some .lu ∧ managed.unitCheck 0 (aUnitReq 2 0 5) = 0x00 ∧ managed.unitCheck 0 (aUnitReq 2 9 5) = 0x05 ∧
    managed.unitCheck 0 (aUnitReq 1 0 5) = 0x06 ∧ managed.drainOf .lu 0 = none ∧ managed.adm .lu 0 ≠ 1 ∧
    (admSet 3 managed).canonical = true ∧ (admSet 3 managed).unitCheck 0 (aUnitReq 0 0 0) = 0x00 ∧ (admSet 3 managed).inSess 0 ∧
    (let s : State := { managed with drains := [aDrain (some 5)] }
     s.canonical = true ∧ s.drainOf .lu 0 = some (aDrain (some 5)) ∧ s.loomRuns = true ∧ s.onUnit .lu 0 = [] ∧
     (let u : State := { s with intake := { s.intake with ctxs := [(3, aTask .queued 0 [0x88])] } }
      u.onUnit .lu 0 = [3] ∧ (aTask .queued 0 [0x88]).abort = false ∧ (aTask .queued 0 [0x88]).doom = none ∧ (aTask .queued 0 [0x88]).cls = 0 ∧
      (aTask .queued 0 [0x88]).preds = [] ∧ (aTask .queued 0 [0x88]).port = 0 ∧ (aTask .queued 0 [0x88]).response = [] ∧
      (∀ a : Act, u.chan[a].cur = none) ∧ u.zones.waits = [])) := by
  refine ⟨by decide +kernel, by decide +kernel, by decide +kernel, by decide +kernel, by decide +kernel, by decide +kernel, by decide +kernel, by decide +kernel,
    by decide +kernel, ⟨by decide +kernel, by decide +kernel⟩, by decide +kernel⟩

theorem test_meets_RegistersUnitsAndFirmware_firmware :
    managed.actPhase = 0 ∧ (setActPhase 1 managed).actPhase ≠ 0 ∧ (managed.monitor (.hdaTemp 0)) = (0x11, none) ∧
    (managed.monitor (.unitState .lu 0)).1 = 0x21 ∧ (managed.monitor (.unitState .lu 0)).2.isSome = true ∧
    (let s : State := { managed with staging := ⟨some .pldm, false, 4, none⟩ }
     s.staging.holder = some .pldm ∧ s.staging.next = 4 ∧ s.staging.erasing = false) ∧
    managed.staging.holder ≠ some .pldm ∧ managed.mgmt.armed = none ∧
    ({ managed with mgmt := { managed.mgmt with armed := some ⟨0, 0x01, 3, 0⟩ } } : State).now ≤ 0 + 10000000 ∧
    managed.mgmt.revoked.contains (2 : Fin 4).val = false := by decide +kernel

theorem test_meets_RegistersUnitsAndFirmware_anchors :
    (let s := managed.setReg (bank 0 Reg.PROT_ANCHOR_SEL) (BitVec.ofNat 32 (Fld.PROT_ANCHOR_SEL_ROLE.set 0#32 2).toNat)
     s.canonical = true ∧ s.may 0 .keeper = true ∧ s.bitF Reg.PROT_ANCHOR_CMD Fld.PROT_ANCHOR_CMD_BUSY = false ∧ s.anchorSel 0 = (2, 0) ∧
     s.stagedDigest.all (· == 0#8) = true ∧ s.anchorAt 2 0 = none ∧
     (let u := s.setReg (Reg.PROT_ANCHOR_DIG 0) 5#32
      u.canonical = true ∧ u.stagedDigest.all (· == 0#8) = false ∧ u.anchorAt 2 0 = none ∧ (anchored 2 0 1 u).anchorAt 2 0 = some (digest 1))) ∧
    (let s := anchored 3 0 1 (managed.setReg (bank 0 Reg.PROT_ANCHOR_SEL) (BitVec.ofNat 32 (Fld.PROT_ANCHOR_SEL_ROLE.set 0#32 3).toNat))
     s.canonical = true ∧ s.anchorSel 0 = (3, 0) ∧ (s.anchorAt 3 0).isSome = true ∧ s.keeperAnchors ≤ 1) ∧
    (roleIn .operator managed).may 0 .keeper = false := by decide +kernel

/-! ### Calibration -/

/-- HDA 0 with its two actuators is declared, and an Operator has named it in CAL_CMD. -/
def calibrated : State :=
  { ((keeperIn served).setReg Reg.GLB_GEOM 0x301#32).setReg Reg.CAL_CMD (Fld.CAL_CMD_HDA.set 0#32 1) with
    cfg := { served.cfg with acts := served.cfg.acts.set 0 { served.cfg.acts[0] with heads := 1 } } }
def calRunning (f : CalRun → CalRun) : State := calibrated.modCal 0 (fun q => f { q with running := true })
def inWindow (s : State) : State := s.modAcu 0 (fun u => { u with calWin := some (0 * 64 + 0), state := .follow, clocked := true })

theorem test_meets_CalibrationRuns :
    calibrated.canonical = true ∧ calibrated.loomRuns = true ∧ calibrated.hasHda 0 = true ∧ calibrated.hasHda 5 = false ∧
    calibrated.cal[(0 : Hda)].running = false ∧ calibrated.bitF Reg.CAL_CFG Fld.CAL_CFG_AUTO = false ∧
    (let s := calibrated.setReg Reg.CAL_CFG (Fld.CAL_CFG_PERIOD.set (Fld.CAL_CFG_AUTO.set 0#32 1) 5)
     s.canonical = true ∧ s.bitF Reg.CAL_CFG Fld.CAL_CFG_AUTO = true ∧ s.loomRuns = true ∧ s.hasHda 0 = true ∧
     atLeast1 (s.getF Reg.CAL_CFG Fld.CAL_CFG_TEMP_DELTA) ≤ (signed 8 (40#8).toNat - s.calLast 0).natAbs ∧ s.periodOn = true) ∧
    calibrated.may 0 .operator = true ∧ calibrated.may 1 .operator = false ∧ calibrated.calNamed = [0] ∧
    (let s := calRunning id
     s.cal[(0 : Hda)].running = true ∧ s.cal[(0 : Hda)].bringup = false ∧ s.calBusy (lowAct 0) = false ∧ s.calBusy (highAct 0) = false ∧
     (inWindow s).calBusy (lowAct 0) = true) := by decide +kernel

theorem test_meets_CalibrationRuns_measurements :
    (inWindow calibrated).acu[(0 : Act)].clocked = true ∧ calibrated.acu[(0 : Act)].clocked = false ∧
    aget (inWindow calibrated).calRef (refKey (.acu 0) 1) = none ∧
    aget ({ calibrated with calRef := [(refKey (.acu 0) 1, [(3, 0)])] } : State).calRef (refKey (.acu 0) 1) = some [(3, 0)] ∧
    ((((1 : Nat) : Int) * 50 - isum [3]).natAbs ≤ 100 * 1) ∧ (100 * 1 < (((1 : Nat) : Int) * 500 - isum [3]).natAbs) ∧
    (let s := calRunning (fun q => { q with scu := true, left := q.left.set 0 [(0, 0)] })
     s.scu[(0 : Hda)].state = .run ∧ s.cal[(0 : Hda)].scu = true ∧ s.cal[(0 : Hda)].aborted = false ∧ s.cal[(0 : Hda)].left[0] ≠ [] ∧
     (let u : State := { s with cfg := { s.cfg with spin := s.cfg.spin.set 0 { s.cfg.spin[0] with rPh := 100 } } }
      u.imageRph 0 ≤ 2 * 60 ∧ 2 * 60 ≤ 3 * u.imageRph 0 ∧ 2 * 40 < u.imageRph 0)) := by decide +kernel

theorem test_meets_CalibrationRuns_windows :
    (let s := inWindow (calRunning (fun q => { q with scu := true, left := q.left.set 0 [(0, 0)] }))
     s.canonical = true ∧ swf 0#32 s.chan[(0 : Act)].skew = true ∧ s.acu[(0 : Act)].calWin = some (0 * 64 + 0) ∧ s.acu[(0 : Act)].state = .follow ∧
     s.sch[(0 : Act)].decided = none ∧ s.cal[hdaOf 0].scu = true ∧ s.skewWedges 0 < 2 * 5000 ∧ 2 * 0 ≤ s.skewWedges 0 ∧
     s.firstOf 0 0 0 = none ∧ skewValid (s.chan[(0 : Act)].skewOf 0 0) = false ∧
     (let u := s.modChan 0 (fun c => { c with skew := [(0, skewWord 0 0 true)] })
      swf 0#32 u.chan[(0 : Act)].skew = true ∧ skewValid (u.chan[(0 : Act)].skewOf 0 0) = true ∧
      u.skewJump < (500 - skewAngle (u.chan[(0 : Act)].skewOf 0 0)).natAbs ∧ u.cal[hdaOf 0].aborted = false) ∧
     (let u := s.modCal 0 (fun q => { q with first := [(0, 0, 0, 500)] })
      u.firstOf 0 0 0 = some 500 ∧ (503 - 500 : Int).natAbs ≤ 4 ∧ 4 < (600 - 500 : Int).natAbs ∧
      (setHeadOut 0 0 true u).headOut (0 : Act).val 0 = true ∧ (setHeadOut 0 0 true u).firstOf 0 0 0 = some 500)) := by decide +kernel

/-! ### The recorder -/

/-- The Loom runs with an image, the recorder is ready and accepts, and session 0 is a Keeper's. -/
def recording (f : Recorder → Recorder) : State :=
  (((keeperIn served).setB Reg.GLB_READY Fld.GLB_READY_IMAGE true).setB Reg.ER_STAT Fld.ER_STAT_READY true).modRcd
    (fun d => f { d with accepting := true })
def aRec (typ : Nat) (p : List Byte) : Rec := ⟨typ, 5, 0, p⟩
def aSector (l : List Rec) : RingSector := ⟨3, 7, 1, l⟩
def aSnap : Snap := ⟨aRec 1 (zeros 8), 0, [0]⟩

theorem test_meets_RecorderRecords :
    (recording id).canonical = true ∧ (recording id).loomRuns = true ∧ (recording id).bitF Reg.ER_STAT Fld.ER_STAT_READY = true ∧
    (let s := (recording (fun d => { d with ring := [aSector [aRec 8 []]] })).setB Reg.ER_STAT Fld.ER_STAT_READY false
     s.canonical = true ∧ s.bitF Reg.ER_STAT Fld.ER_STAT_READY = false ∧ s.rcd.ring = [aSector [aRec 8 []]]) ∧
    (aRec 2 []).clearsLog = false ∧ (aRec 2 []).typ ≠ 0x0008 ∧ (aRec 7 [2]).clearsLog = true ∧ (recording id).rcd.buf = [] ∧
    (let s := recording (fun d => { d with buf := [aRec 2 []] })
     s.mayProgram = true ∧ s.rcd.ring = [] ∧ s.rcd.erasing.contains 0 = false) ∧
    (aSector []).used + recLen (aRec 2 []).payload.length ≤ 4096 ∧ (aSector []).pos < 2048 ∧
    4096 < (aSector (List.replicate 170 (aRec 2 []))).used + recLen (aRec 2 []).payload.length ∧
    (recording (fun d => { d with erasing := [4] })).rcd.erasing = [4] ∧ (recording id).rcd.clearing = none ∧
    (recording (fun d => { d with erasing := [4], clearing := some 5 })).rcd.clearing.isSome = true ∧
    (recording id).rcd.accepting = true ∧ (recording id).rcd.lostNow = 0 ∧ bufUsed (recording id).rcd.buf ≤ 62000 ∧
    (recording (fun d => { d with snaps := [aSnap] })).rcd.running = none ∧
    (recording (fun d => { d with running := some aSnap })).rcd.running = some aSnap := by decide +kernel

theorem test_meets_RecorderRecords_snapshot :
    bufUsed (recording id).rcd.buf
      + recLen (withNreg aSnap.rcd.payload aSnap.addrs.length ++ aSnap.addrs.flatMap (recording id).snapEntry).length ≤ 65536 := by decide +kernel

theorem test_meets_RecorderRecords_sessions :
    (recording id).power.released = true ∧ (recording id).power.mainHi = true ∧ (recording id).rcd.secs < 3599 ∧
    ((recording id).modRcd (fun d => { d with secs := 3599 })).rcd.secs = 3599 ∧
    (let s := (recording id).setReg (bank 2 Reg.ER_HIST_CFG) 10#32
     s.canonical = true ∧ s.getF (bank 2 Reg.ER_HIST_CFG) Fld.ER_HIST_CFG_QTY = 10) ∧
    (recording id).may 0 .keeper = true ∧ (recording id).may 1 .operator = false ∧
    (let s := (recording id).setB (bank (0 : Fin 4).val Reg.ER_RD_CTRL) Fld.ER_RD_CTRL_BUSY true
     s.canonical = true ∧ s.bitF (bank (0 : Fin 4).val Reg.ER_RD_CTRL) Fld.ER_RD_CTRL_BUSY = true) ∧
    ((recording id).reg (bank (0 : Fin 4).val Reg.ER_HIST_SEL)).toNat < 16 ∧ Fld.ER_HIST_CFG_QTY.get 3#32 < 11 := by decide +kernel

/-! ### Every state -/

theorem test_meets_StepRunsTheFront : blank.pending = [] := by decide

theorem swf_nil {α : Type} [DecidableEq α] (d : α) : swf d ([] : List (Nat × α)) = true := rfl

theorem test_meets_StepKeepsSound :
    (let s : State := { served with pending := [.claimWindowEnd] }
     s.Sound ∧ ∃ t, step s = .next t) :=
  ⟨⟨by decide +kernel, by decide +kernel, by decide +kernel, by decide +kernel, List.nodup_nil⟩, _, rfl⟩

/-! ### Well-formedness: an ill-formed term for each check -/

theorem test_wf_lun : (Instr.testUnitReady { aFrame [] [] with lun := zeros 7 }).wf = false := by decide
theorem test_wf_cdb : (Instr.read16 { aFrame [] [] with cdb := zeros 6 }).wf = false := by decide
theorem test_wf_frame : (Instr.read16 (aFrame [] [])).wf = true := by decide
theorem test_wf_task : (Instr.queryTask ⟨0, 0, 1, zeros 9, 0⟩).wf = false := by decide
theorem test_wf_data_frame : (Instr.dataFrameReceived ⟨0, 0, 7, 0, []⟩).wf = false := by decide
theorem test_wf_message : (Instr.regRead none (toReg 1 1 0 (zeros 1089))).wf = false := by decide +kernel
theorem test_wf_digest (n : Fin 4) : (Instr.finish n ⟨true, true, zeros 47⟩).wf = false := by decide +revert
theorem test_wf_llr (a : Act) : (Instr.inlineDecodeDone a [15, -16]).wf = false := rfl
theorem test_wf_samples (a : Act) : (Instr.sectorBoundary a 0 ⟨[], [0#6]⟩).wf = false := rfl
theorem test_wf_image : (Instr.imageCheckPassDone ⟨{ anImage true 0 with sha := [] }, []⟩).wf = false := by decide
theorem test_wf_payload : (Instr.imageCheckPassDone ⟨{ aGoodImage with recs := [⟨0, false, 4, true, .jacquard []⟩] }, []⟩).wf = false := by decide +kernel
theorem test_wf_packet : (Instr.mctpPacket ⟨true, true, 0, []⟩).wf = false := by decide
theorem test_wf_seek (a : Act) (c : SeekCmd) : (Instr.acuSeek a { c with cyl := 4194304 }).wf = false := by
  show decide (4194304 < 4194304) = false
  exact decide_eq_false (Nat.lt_irrefl _)
theorem test_wf_update : (Instr.templeUpdate 0 20 (zeros 9) false).wf = false := by decide
theorem test_wf_nonce : (Instr.challenge 0 (zeros 31)).wf = false := by decide
theorem test_wf_svn (n : Fin 4) : (Instr.oemRaiseSvnMin n (2 ^ 32)).wf = false := by decide +revert

/-! ### Results worked out in the spec's own examples -/

/-- Chapter 14, the inputs of one sector: LU 5, LBA 200,000, counter 0x457. -/
theorem test_nonce_example : nonceOf 5 200000 0 0x457 = [0x01, 0x05, 0, 0, 0, 0x03, 0x0D, 0x40, 0, 0, 0x04, 0x57] := by decide +kernel

/-- Chapter 15, a CRC on an unbound unit: "123456789" gives 0xD0DB, also when it is fed in two parts. -/
theorem test_check_value_example :
    (let p : CvParams := ⟨16, 0x8BB7, 0, false, false, 0⟩
     p.result (p.feed p.start [0x31, 0x32, 0x33, 0x34, 0x35, 0x36, 0x37, 0x38, 0x39]) = 0xD0DB#64) := by decide +kernel

/-- Chapter 16: D[45] flips and is delivered correct. -/
theorem test_heddle_example :
    hedJudge (codeWord 0x0123456789ABCDEF#64 ^^^ (1#80 <<< 45)) = .corrected 45 ∧
    hedDeliver (codeWord 0x0123456789ABCDEF#64 ^^^ (1#80 <<< 45)) = 0x0123456789ABCDEF#64 := by decide +kernel

/-- Chapter 9, pool 3: LU 10 can take 12,000 more bobbins and no more. -/
def poolExample : State :=
  let s : State := { blank with cfg := { blank.cfg with lus := [{ aLu with lu := 10, pool := 3 }, { aLu with lu := 11, pool := 3 }] } }
  let quota (u : Nat) (s : State) : State :=
    ((s.setF (bank u Reg.INT_LU_BOB) Fld.INT_LU_BOB_MIN 1500).setF (bank u Reg.INT_LU_BOB) Fld.INT_LU_BOB_MAX 4000).setF
      (bank u Reg.INT_LU_USE_BOB) Fld.INT_LU_USE_BOB_POOL 3
  (((quota 11 (quota 10 s)).setF (bank 10 Reg.INT_LU_USE_BOB) Fld.INT_LU_USE_BOB_USED 2000).setF (bank 3 Reg.CREEL_POOL_SIZE)
    Fld.CREEL_POOL_SIZE_SIZE 20000).setF (bank 3 Reg.CREEL_POOL_FREE) Fld.CREEL_POOL_FREE_FREE 18000
theorem test_pool_example :
    poolExample.poolReserved 3 = 10000 ∧ poolExample.creelAnswer 10 12000 = .grant ∧ poolExample.creelAnswer 10 12001 = .empty := by decide +kernel

/-- Chapter 4, a false early mark: FIRST records −3, 0, +2 and re-frames at 0, +2, −3, −1, +1; BEST frames at 0. -/
theorem test_framing_example :
    (let q : List (Int × Nat) := [(-3, 5), (0, 1), (2, 6)]
     (candRecord false q).cands = [-3, 0, 2] ∧ (reframeList (-3) (candRecord false q)).map (·.1) = [0, 2, -3, -1, 1] ∧
     (candRecord true q).cands.head? = some 0) := by decide +kernel

/-! ### Published test vectors of the standards that the spec names -/

/-- CRC-32C of "123456789". -/
theorem test_crc32c : crc32c [0x31, 0x32, 0x33, 0x34, 0x35, 0x36, 0x37, 0x38, 0x39] = 0xE3069283#32 := by decide +kernel

/-- FIPS 197, C.3: AES-256. -/
theorem test_aes256 :
    aesBlock (roundKeys ((List.range 32).map (BitVec.ofNat 8))) ((List.range 16).map (fun i => BitVec.ofNat 8 (17 * i)))
      = [0x8E, 0xA2, 0xB7, 0xCA, 0x51, 0x67, 0x45, 0xBF, 0xEA, 0xFC, 0x49, 0x90, 0x4B, 0x49, 0x60, 0x89] := by decide +kernel

/-- GCM specification, test cases 13 and 14: a key of zeros; no data; one block of zeros. -/
theorem test_gcm :
    gcmTag (zeros 32) (zeros 12) [] [] = [0x53, 0x0F, 0x8A, 0xFB, 0xC7, 0x45, 0x36, 0xB9, 0xA9, 0x63, 0xB4, 0xF1, 0xC4, 0xCB, 0x73, 0x8B] ∧
    gcmCrypt (zeros 32) (zeros 12) (zeros 16) = [0xCE, 0xA7, 0x40, 0x3D, 0x4D, 0x60, 0x6B, 0x6E, 0x07, 0x4E, 0xC5, 0xD3, 0xBA, 0xF3, 0x9D, 0x18] := by
  decide +kernel

/-- SP 800-38B: AES-256-CMAC of the empty message. -/
theorem test_cmac :
    cmac [0x60, 0x3D, 0xEB, 0x10, 0x15, 0xCA, 0x71, 0xBE, 0x2B, 0x73, 0xAE, 0xF0, 0x85, 0x7D, 0x77, 0x81, 0x1F, 0x35, 0x2C, 0x07, 0x3B, 0x61, 0x08,
          0xD7, 0x2D, 0x98, 0x10, 0xA3, 0x09, 0x14, 0xDF, 0xF4] []
      = [0x02, 0x89, 0x62, 0xF6, 0x1B, 0x7B, 0xF8, 0x9E, 0xFC, 0x6B, 0x55, 0x1F, 0x46, 0x67, 0xD9, 0x83] := by decide +kernel

end Sys2Proof.Machine
end

section
/-! SUPPORT. The framer's choice in mode FIRST (R76): the head of the qualifying offsets is the lowest one, FRAMER_MARK_FIRST selects it, and the close of
the window keeps what is selected. -/

namespace Sys2Proof.Machine

/-! ### The lowest qualifying offset -/

/-- What `f` keeps of 0, 1, ... begins with what it makes of the least number that it keeps. -/
theorem head?_filterMap_range_of_least {α : Type} {f : Nat → Option α} {n i : Nat} {x : α} (hi : i < n) (hx : f i = some x)
    (hlow : ∀ j < i, f j = none) : ((List.range n).filterMap f).head? = some x := by
  obtain ⟨k, rfl⟩ : ∃ k, n = i + (k + 1) := ⟨n - i - 1, by omega⟩
  have below : (List.range i).filterMap f = [] :=
    List.filterMap_eq_nil_iff.mpr fun j hj => hlow j (List.mem_range.mp hj)
  rw [List.range_add, List.filterMap_append, below, List.nil_append, List.range_succ_eq_map, List.map_cons, Nat.add_zero,
    List.filterMap_cons_some hx, List.head?_cons]

/-- The first qualifying offset is that of the least window position within the threshold. -/
theorem qualifying_head? {win thr i d : Nat} {llrs : List Int} (hi : i < win) (hd : markDist llrs (firstOffset win + i) = some d)
    (hthr : d ≤ thr) (hlow : ∀ j e : Nat, j < i → markDist llrs (firstOffset win + j) = some e → thr < e) :
    (qualifying win thr llrs).head? = some (firstOffset win + i, d) := by
  apply head?_filterMap_range_of_least hi
  · simp only [hd, if_pos hthr]
  · intro j hj
    cases he : markDist llrs (firstOffset win + j) with
    | none => simp only [he]
    | some e => simp only [he, if_neg (Nat.not_le.mpr (hlow j e hj he))]

/-! ### FRAMER_MARK_FIRST -/

/-- With nothing selected in mode FIRST, the first qualifying offset is selected. -/
theorem framerMarkFirst_selects {a : Act} {llrs : List Int} {s : State} {r : SectorRun} {q : Int × Nat} (hcur : s.chan[a].cur = some r)
    (hread : r.write = false) (hfirst : r.best = false) (hsel : r.selected = none) (hrec : r.record = none)
    (hq : (qualifying r.win r.thr llrs).head? = some q) :
    framerMarkFirst a llrs s = s.modChan a (fun c => { c with cur := some { r with selected := some q } }) := by
  obtain ⟨rest, hlist⟩ := List.head?_eq_some_iff.mp hq
  simp only [framerMarkFirst, hcur, hlist, hread, hfirst, hsel, hrec, Option.isSome_none, Bool.or_self, Bool.false_eq_true, if_false]

/-- Where an offset is selected already, nothing changes. -/
theorem framerMarkFirst_of_selected {a : Act} {llrs : List Int} {s : State} {r : SectorRun} (hcur : s.chan[a].cur = some r)
    (hsel : r.selected.isSome) : framerMarkFirst a llrs s = s := by
  simp only [framerMarkFirst, hcur, hsel, Bool.or_true, Bool.true_or, if_true]

/-! ### FRAMER_WINDOW_CLOSE -/

@[simp] theorem countChan_chan (a : Act) (i k : Nat) (f : Fld) (s : State) : (countChan a i k f s).chan = s.chan := rfl

/-- The close of a window writes the record and, where nothing is selected yet, the selection; the counters it raises are no part of the channels. -/
theorem framerWindowClose_chan {a : Act} {llrs : List Int} {s : State} {r : SectorRun} (hcur : s.chan[a].cur = some r)
    (hread : r.write = false) (hrec : r.record = none) :
    let q := qualifying r.win r.thr llrs
    (framerWindowClose a llrs s).chan = (s.modChan a (fun c => { c with
      cur := some { r with
        selected := some (r.selected.getD ((if r.best then sortBest q else q).headD (0, 0x3F)))
        record := some (candRecord r.best q) } })).chan := by
  simp only [framerWindowClose, hcur, hread, hrec, Option.isSome_none, Bool.or_self, Bool.false_eq_true, if_false, apply_ite State.chan,
    State.incF_chan, countChan_chan, ite_self]

/-- The close of a window keeps an offset selected before it. -/
theorem framerWindowClose_of_selected {a : Act} {llrs : List Int} {s : State} {r : SectorRun} {q : Int × Nat} (hcur : s.chan[a].cur = some r)
    (hread : r.write = false) (hsel : r.selected = some q) (hrec : r.record = none) :
    (framerWindowClose a llrs s).chan[a].cur =
      some { r with selected := some q, record := some (candRecord r.best (qualifying r.win r.thr llrs)) } := by
  rw [framerWindowClose_chan hcur hread hrec, State.modChan_same, hsel, Option.getD_some]

/-! ### The statement -/

/-- A change of channel `a` is a change of nothing else. -/
theorem onlyChan_modChan (a : Act) (f : Chan → Chan) (s : State) : onlyChan a [] s (s.modChan a f) :=
  ⟨rfl, fun _ hb => State.modChan_ne s f hb.symm, fun k _ => State.modChan_reg s a f k⟩

/-- Settles O4: the head of the qualifying offsets is the lowest one (R75), FRAMER_MARK_FIRST selects that head, and neither a further one nor the
window's close touches a selection. -/
theorem framerFirstTakesLowestOffset : Obligations.FramerFirstTakesLowestOffset := by
  unfold Obligations.FramerFirstTakesLowestOffset
  constructor
  · intro a llrs s r i d hcur hread hfirst hsel hrec hi hd hthr hlow
    have selects := framerMarkFirst_selects hcur hread hfirst hsel hrec (qualifying_head? hi hd hthr hlow)
    exact ⟨_, congrArg Host.Outcome.next selects, onlyChan_modChan a _ s, State.modChan_same s a _⟩
  · intro a llrs s r q hcur hread _ hsel hrec
    have stands : framerMarkFirst a llrs s = s := framerMarkFirst_of_selected hcur (by rw [hsel, Option.isSome_some])
    exact ⟨congrArg Host.Outcome.next stands, framerWindowClose a llrs s, _, rfl,
      framerWindowClose_of_selected hcur hread hsel hrec, rfl, rfl⟩

end Sys2Proof.Machine
end

section
/-! SUPPORT. The queue of host jobs (R250): what a posting does to it, and what the taking of its oldest job does. -/

namespace Sys2Proof.Machine

/-! ### A context and a channel after a write -/

/-- The value set at a key is the one found there. -/
theorem aget_aset_same {α : Type} (l : List (Nat × α)) (k : Nat) (v : α) : aget (aset l k v) k = some v := by
  induction l with
  | nil => simp only [aset, aget, if_pos]
  | cons e t ih =>
    obtain ⟨k', v'⟩ := e
    rw [aset]
    split
    · simp only [aget, if_pos]
    · split
      · simp only [aget, if_pos]
      · next hne => rw [aget, if_neg (Ne.symm hne), ih]

@[simp] theorem putCtx_ctx?_same (c : Nat) (x : Ctx) (s : State) : (putCtx c x s).ctx? c = some x := aget_aset_same _ _ _

/-- A write of a channel is a change of that channel and of registers. -/
theorem putCh_frame (d : Fin 64) (c : ShuCh) (s : State) :
    putCh d c s = { s with shu := { s.shu with ch := s.shu.ch.set d c }, regs := (putCh d c s).regs } := by
  unfold putCh showCh
  dsimp only
  split <;> rfl

/-- Channel `d` as it takes job `j`: at the start of the program that the bank in force gives the job's kind. -/
def State.takenCh (s : State) (d : Fin 64) (j : Job) : ShuCh :=
  { chIdle with
    state := .run, job := some j, bank := s.shu.bank
    prog := s.shu.kinds[bankIdx s.shu.bank].getD (kindIdx j.kind) 0, returned := s.shu.ch[d].returned }

/-- The taking of a job is a change of the channel and of registers. -/
theorem startCh_frame (d : Fin 64) (j : Job) (s : State) :
    startCh d j s = { s with shu := { s.shu with ch := s.shu.ch.set d (s.takenCh d j) }, regs := (startCh d j s).regs } :=
  putCh_frame d (s.takenCh d j) (s.incF Reg.SHU_CNT_JOB Fld.SHU_CNT_JOB_JOBS)

theorem startCh_shu (d : Fin 64) (j : Job) (s : State) : (startCh d j s).shu = { s.shu with ch := s.shu.ch.set d (s.takenCh d j) } :=
  congrArg State.shu (startCh_frame d j s)

theorem startCh_hostQ (d : Fin 64) (j : Job) (s : State) : (startCh d j s).shu.hostQ = s.shu.hostQ := by rw [startCh_shu]

theorem startCh_same (d : Fin 64) (j : Job) (s : State) : (startCh d j s).shu.ch[d] = s.takenCh d j := by
  simp only [startCh_shu, Fin.getElem_fin, Vector.getElem_set_self]

theorem startCh_ne {d e : Fin 64} (j : Job) (s : State) (h : e ≠ d) : (startCh d j s).shu.ch[e] = s.shu.ch[e] := by
  simp only [startCh_shu, Fin.getElem_fin]
  exact Vector.getElem_set_ne _ _ fun hde => h (Fin.ext hde.symm)

/-! ### A job enters the queue -/

@[simp] theorem showQueue_shu (s : State) : (showQueue s).shu = s.shu := rfl

theorem showQueue_reg (s : State) {k : Nat} (h : k ≠ Reg.SHU_JOBQ) : (showQueue s).reg k = s.reg k := State.reg_setF_ne s h _ _

/-- With room in the queue and no job kept in a context, a posted job goes to the end of the queue. -/
theorem postHost_of_room (j : Job) {s : State} (hroom : s.shu.hostQ.length < 4096) (hover : s.shu.overflow = []) :
    postHost j s = showQueue { s with shu := { s.shu with hostQ := s.shu.hostQ ++ [j] } } :=
  if_pos ⟨hroom, hover⟩

/-- Queue `q'` is queue `q` with jobs added at its end, within the 4,096 places if `q` was. -/
def queueExtends (q q' : List Job) : Prop := (q.length ≤ 4096 → q'.length ≤ 4096) ∧ ∃ l, q' = q ++ l

theorem queueExtends_refl (q : List Job) : queueExtends q q := ⟨id, [], (List.append_nil q).symm⟩

/-- A posted host job, which stays in its context where the queue has no place for it, keeps the queue's order and bound (R250). -/
theorem postHost_extends (j : Job) (s : State) : queueExtends s.shu.hostQ (postHost j s).shu.hostQ := by
  unfold postHost
  split
  · next room =>
    refine ⟨fun _ => ?_, [j], rfl⟩
    simpa using room.1
  · exact queueExtends_refl _

theorem postBurst_extends (port : Nat) (s : State) : queueExtends s.shu.hostQ (postBurst port s).shu.hostQ := by
  unfold postBurst
  split
  · exact queueExtends_refl _
  · split
    · exact queueExtends_refl _
    · exact postHost_extends _ (putCtx _ _ s)

theorem postHostOut_extends (c : Nat) (s : State) : queueExtends s.shu.hostQ (postHostOut c s).shu.hostQ := by
  unfold postHostOut
  split
  · exact queueExtends_refl _
  · split
    · exact postHost_extends _ s
    · exact queueExtends_refl _

/-- A media job goes to its channel and never to the queue of host jobs (R249). -/
theorem postMedia_hostQ (a : Act) (s : State) : (postMedia a s).shu.hostQ = s.shu.hostQ := by
  unfold postMedia
  split
  · rfl
  · split
    · rfl
    · split
      · rfl
      · split
        · rfl
        · exact startCh_hostQ _ _ (s.modSch a _)

theorem jobPost_extends {j : JobPost} {s t : State} (h : execJobPost j s = .next t) : queueExtends s.shu.hostQ t.shu.hostQ := by
  obtain rfl := Host.Outcome.next.inj h
  cases j with
  | burst port => exact postBurst_extends port.val s
  | hostOut c => exact postHostOut_extends c.val s
  | media a => exact postMedia_hostQ a s ▸ queueExtends_refl _

/-- Below WINDOW, a port posts the job of the burst that is due and marks its command (R180). -/
theorem postBurst_of_due {port c : Nat} {x : Ctx} {s : State} (hwin : s.owed port < s.window port) (hdue : s.nextBurst port = some (c, x)) :
    postBurst port s = postHost ⟨if x.cls = 1 then .hostIn else .compareIn, c, x.hostDone, min (x.nblk - x.hostDone) (s.burstBlocks port)⟩
      (putCtx c { x with requested := x.hostDone + min (x.nblk - x.hostDone) (s.burstBlocks port), outstanding := true } s) := by
  unfold postBurst
  rw [if_neg (Nat.not_le.mpr hwin), hdue]

/-- A read whose first block is placed and that has no host job gets the job of its whole transfer (R249). -/
theorem postHostOut_of_placed {c : Nat} {x : Ctx} {s : State} (hctx : s.ctx? c = some x) (hread : x.cls = 0) (hmedia : x.state = .media)
    (hport : x.port < 2) (hblk : 0 < x.nblk) (hplaced : x.placed ≠ []) (hnone : s.hasHostJob c = false) :
    postHostOut c s = postHost ⟨.hostOut, c, 0, x.nblk⟩ s := by
  unfold postHostOut
  simp [hctx, hread, hmedia, hport, hblk, hplaced, hnone]

/-! ### The oldest job leaves the queue -/

/-- The free host channel found is the lowest-numbered one. -/
theorem freeHost_of_lowest {d : Fin 64} {s : State} (hhost : 16 ≤ d.val) (hidle : s.shu.ch[d].state = .idle)
    (hlow : ∀ e : Fin 64, 16 ≤ e.val → e.val < d.val → s.shu.ch[e].state ≠ .idle) : s.freeHost = some d := by
  unfold State.freeHost
  rw [List.find?_eq_some_iff_getElem]
  refine ⟨beq_iff_eq.mpr hidle, d.val - 16, by simp; omega, Fin.ext ?_, fun k hk => ?_⟩
  · simp [hostCh]; omega
  · have busy := hlow (hostCh ⟨k, by omega⟩) (Nat.le_add_right 16 k) (by simp only [hostCh]; omega)
    simpa using busy

/-- With no job kept in a context, the free channel takes the front of the queue and nothing refills it. -/
theorem hostJobDequeue_of_free {d : Fin 64} {j : Job} {rest : List Job} {s : State} (hfree : s.freeHost = some d) (hq : s.shu.hostQ = j :: rest)
    (hover : s.shu.overflow = []) :
    execHostJobDequeue s = .next (startCh d j (showQueue { s with shu := { s.shu with hostQ := rest } })) := by
  unfold execHostJobDequeue fillQueue
  simp only [hfree, hq, hover]

/-- Settles O41: a job posted while there is room goes to the end of the queue, no posting does anything else to the queue, and the lowest free
host channel takes the job at its front (R250). -/
theorem hostJobsInOrder : Obligations.HostJobsInOrder := by
  unfold Obligations.HostJobsInOrder
  refine ⟨?burst, ?read, ?bound, ?dequeue⟩
  case burst =>
    intro p c x s hwin hdue hroom hover n
    refine ⟨_, congrArg Host.Outcome.next ((postBurst_of_due hwin hdue).trans (postHost_of_room _ hroom hover)), rfl, putCtx_ctx?_same c _ s, rfl, ?_⟩
    intro k hk
    exact showQueue_reg _ (List.mem_singleton.not.mp hk)
  case read =>
    intro c x s hctx hread hmedia hport hblk hplaced hnone hroom hover
    refine ⟨_, congrArg Host.Outcome.next
      ((postHostOut_of_placed hctx hread hmedia hport hblk hplaced hnone).trans (postHost_of_room _ hroom hover)), rfl, rfl, rfl, ?_⟩
    intro k hk
    exact showQueue_reg _ (List.mem_singleton.not.mp hk)
  case bound =>
    intro j s t hlen hpost
    obtain ⟨bounded, appended⟩ := jobPost_extends hpost
    exact ⟨bounded hlen, appended⟩
  case dequeue =>
    intro d j rest s hhost hidle hlow hq hover
    have same := startCh_same d j (showQueue { s with shu := { s.shu with hostQ := rest } })
    refine ⟨_, hostJobDequeue_of_free (freeHost_of_lowest hhost hidle hlow) hq hover, startCh_hostQ d j _,
      congrArg ShuCh.state same, congrArg ShuCh.job same, congrArg ShuCh.pc same, congrArg ShuCh.cursor same, fun e he => startCh_ne j _ he, ?_⟩
    rw [startCh_frame]
    rfl

end Sys2Proof.Machine
end
